-- ==== Sys2Proof/Word.lean ====
section
/-! DEFINITION. The word types of the AX256 and their plainest arithmetic (00_scope R6, R7; 07 R205). -/

namespace Sys2Proof

/-- A byte. -/
abbrev Byte := BitVec 8
/-- A 64-bit register or scalar register value. -/
abbrev Word := BitVec 64
/-- A 40-bit address register or package address (07 R205, 01 R26). -/
abbrev Addr := BitVec 40
/-- A 512-byte row of a scratchpad, accumulator or row register, little-endian (07 R205, 09 R266). -/
abbrev Row := BitVec 4096
/-- A function: 0 is PF0, n = 1 to 64 is VF n (03 R88). -/
abbrev Fn := Fin 65
/-- A paddock by index; paddock n of the spec has index n - 1 (03 R88). -/
abbrev PdkId := Fin 64
/-- A core n = 16 * bay + position (01 R25). -/
abbrev CoreId := Fin 256
/-- A bay (01 R25). -/
abbrev BayId := Fin 16
/-- A memory stack (01 R25). -/
abbrev StackId := Fin 6
/-- A fabric port (01 R25). -/
abbrev PortId := Fin 8
/-- A Tambour engine (01 R25). -/
abbrev EngineId := Fin 4
/-- A compute die (01 R25). -/
abbrev DieId := Fin 4
/-- A scalar register index. -/
abbrev XReg := Fin 32
/-- An address register index. -/
abbrev AReg := Fin 16
/-- A row register index. -/
abbrev WReg := Fin 16

/-- Ceiling division, for the tables that round up. -/
def ceilDiv (a b : Nat) : Nat := if b = 0 then 0 else (a + b - 1) / b

/-- `a` rounded up to a multiple of `b`. -/
def roundUp (a b : Nat) : Nat := ceilDiv a b * b

/-- Bits `hi:lo` of a number, both ends included (00 R6). -/
def bits (v hi lo : Nat) : Nat := (v / 2 ^ lo) % 2 ^ (hi + 1 - lo)

/-- Bit `i` of a number. -/
def bitAt (v i : Nat) : Bool := (v / 2 ^ i) % 2 = 1

/-- A Boolean as a bit. -/
def b2n (b : Bool) : Nat := if b then 1 else 0

/-- A sum that stops at `m` (the counters that hold at a maximum). -/
def satAdd (m a b : Nat) : Nat := min m (a + b)

/-- Little-endian number of a list of bytes (00 R7). -/
def leNat : List Byte → Nat
  | [] => 0
  | b :: bs => b.toNat + 256 * leNat bs

/-- The `n` little-endian bytes of a number (00 R7). -/
def leBytes : Nat → Nat → List Byte
  | 0, _ => []
  | n + 1, v => BitVec.ofNat 8 v :: leBytes n (v / 256)

end Sys2Proof
end

