-- ==== Sys2Proof/Syntax.lean ====
section
/-! DEFINITION. The commands of the block: one constructor of `Instr` per row of spec/opcode_table.json, with the row's
operands, and the small types those operands are made of. Operands name what the sender decides; what the device decides
itself is in State. -/

namespace Sys2Proof

/-- Scalar operations of the R form (07 R212). -/
inductive AluOp where
  | add | sub | and | or | xor | sll | srl | sra | slt | sltu | min | max | mul
deriving DecidableEq, Repr

/-- Scalar operations of the I form (07 R212). -/
inductive AluImmOp where
  | addi | andi | ori | xori | slli | srli | srai | slti
deriving DecidableEq, Repr

/-- Branch comparisons (07 R212). -/
inductive Cond where
  | eq | ne | lt | ge | ltu | geu
deriving DecidableEq, Repr

/-- Row operations with two or three row sources (07 R218). -/
inductive LaneOp where
  | add | sub | mul | fma | max | min | and | or | xor | cmplt | sel
deriving DecidableEq, Repr

/-- Reductions of VRED (07 R218). -/
inductive RedOp where
  | sum | max | min
deriving DecidableEq, Repr

/-- The operations of a Yard macro descriptor (13 R369). -/
inductive YardOp where
  | create | release | append | trim | fork | lookup | publish | pin | unpin | prefetch | query | ptread
deriving DecidableEq, Repr

/-- The class of a macro bundle (07 R226). -/
inductive MacroOp where
  | matmul
  | attend
  | yard (op : YardOp)
deriving DecidableEq, Repr

/-- One slot of a bundle, or a whole macro bundle (07 R208), as a core holds it until it issues. -/
inductive SlotOp where
  | nop
  | alu (op : AluOp) (rd rs1 rs2 : XReg)
  | alui (op : AluImmOp) (rd rs1 : XReg) (imm : BitVec 14)
  | li (rd : XReg) (imm : BitVec 19)
  | lis (rd : XReg) (k : Fin 4) (imm : BitVec 16)
  | branch (c : Cond) (rs1 rs2 : XReg) (off : BitVec 14)
  | jal (rd : XReg) (off : BitVec 19)
  | jr (rd rs1 : XReg)
  | amov (ad : AReg) (rs1 : XReg)
  | aaddi (ad asrc : AReg) (imm : BitVec 14)
  | xmova (rd : XReg) (asrc : AReg)
  | getsv (rd : XReg) (idx : BitVec 14)
  | rand (rd : XReg)
  | stop
  | vnop
  | lane (op : LaneOp) (wd ws1 ws2 ws3 : WReg) (fmt : Fin 16)
  | vcvt (wd ws1 : WReg) (fmt : Fin 16) (tf : Fin 16) (part : Fin 4) (sr : Bool)
  | vbcast (wd : WReg) (xs : XReg) (fmt : Fin 16)
  | vred (xs : XReg) (ws1 : WReg) (fmt : Fin 16) (op : RedOp)
  | vsfu (wd ws1 : WReg) (fmt : Fin 16) (sel : Fin 64)
  | mnop
  | ldr (w : WReg) (adr : AReg) (off : BitVec 12)
  | str (w : WReg) (adr : AReg) (off : BitVec 12)
  | lda (w : WReg) (adr : AReg) (off : BitVec 12)
  | sta (w : WReg) (adr : AReg) (off : BitVec 12)
  | fill (x : XReg) (adr : AReg) (off cnt : BitVec 12)
  | copy (x : XReg) (adr : AReg) (off cnt : BitVec 12)
  | semsig (pair : Fin 64) (ctr : Fin 2) (cnt : BitVec 12) (remote : Bool) (x : XReg)
  | semwait (pair : Fin 64) (ctr : Fin 2) (cnt : BitVec 12)
  | hqpush (q : Fin 128) (x : XReg)
  | hqpop (q : Fin 128) (x : XReg)
  | claimTake (k : Fin 64) (cnt : BitVec 12) (x : XReg)
  | claimArm (k : Fin 64) (x : XReg)
  | strmgo (st : Fin 16) (prick : BitVec 12) (adr : AReg)
  | strmswap (st : Fin 16)
  | strmwait (st : Fin 16) (x : XReg)
  | hoopPush (h : Fin 16) (w : WReg)
  | hoopConfig (h : Fin 16) (adr : AReg) (cnt : BitVec 12)
  | hoopPop (h : Fin 16) (w : WReg)
  | hoopPeek (h : Fin 16) (w : WReg) (cnt : BitVec 12)
  | hoopDrop (h : Fin 16) (cnt : BitVec 12)
  | hoopCount (h : Fin 16) (x : XReg)
  | arrwait (k : Fin 128) (x : XReg) (sub : Bool)
  | arrReset (k : Fin 128)
  | mwait (x : XReg)
  | mac (m : MacroOp) (adr : AReg) (off : BitVec 12) (xs : XReg)
deriving DecidableEq, Repr

/-- Which part of an 8-byte register a read covers (00 R471, 02 R47). -/
inductive Half where
  | full | low | high
deriving DecidableEq, Repr

/-- The class a memory request joins (10 R306, R307). -/
inductive MemClass where
  | save | deadline | fcfs
deriving DecidableEq, Repr

/-- Who sends a request to package memory (06 R192, 10 R306): stream `st` of a core, or its tile sequencer as stream 16; a Tambour engine,
BAR2, the loader or the fabric for a paddock; Yard and Loft page traffic; a bay's save path; the zeroing of a paddock at its teardown. -/
inductive Requester where
  | core (c : CoreId) (st : Fin 17)
  | tambour (p : PdkId)
  | host (p : PdkId)
  | loader (p : PdkId)
  | fabric (p : PdkId)
  | yard
  | save
  | zero (p : PdkId)
deriving DecidableEq, Repr

/-- A request to package memory (01 R28, 06 R192). `tag` names it in later commands. The owner ID it carries, its class, its dry time and
its place among requests of one beat follow from its sender. -/
structure MemReq where
  tag   : Nat
  write : Bool
  addr  : Nat
  len   : Nat
  data  : List Byte
  by_   : Requester
deriving DecidableEq, Repr

/-- What a check of a stored row or granule finds: nothing, `words` corrected code words, or an uncorrectable error (09 R284, R287; 16 R459,
R460). -/
inductive EccResult where
  | clean
  | corrected (words : Nat)
  | uncorrectable
deriving DecidableEq, Repr

/-- A corrected scratchpad row to be written back (09 R284): one that the patrol found, or one that a read of another agent found, with so
many corrected code words. -/
structure CorrectedRow where
  row   : Fin 4096
  words : Option Nat := none
deriving DecidableEq, Repr

/-- Who met an uncorrectable scratchpad error (09 R287). `bundle` is the reading, macro or STRMGO bundle; `patrolSpare` names the unused spare
row of the row's bank. -/
inductive UeFinder where
  | program (bundle : Nat)
  | sequencer (bundle : Nat)
  | stream (bundle : Nat)
  | save
  | patrol
  | patrolSpare (j : Fin 8)
deriving DecidableEq, Repr

/-- A change of a function's configuration space (03 R85, R86, R88, 05 R472, 06 R174, R186). `numVfs` writes NumVFs, `deviceControl` PF0's
Device Control register, `streamControl` the control of one IDE stream in PF0's IDE capability. -/
inductive CfgWrite where
  | bar (i : Nat) (v : BitVec 32)
  | msixEnable (v : Bool)
  | funcMask (v : Bool)
  | vfEnable
  | numVfs (n : Nat)
  | deviceControl (mps mrrs : Fin 8) (cor nonfatal fatal ur : Bool)
  | streamControl (k : Nat) (v : BitVec 32)
  | sriovLayout (v : BitVec 32)
  | completionTimeout (v : Nat)
  | other (off : Nat) (v : BitVec 32)
deriving DecidableEq, Repr

/-- The two SPDM responders (06 R180). -/
inductive Responder where
  | doe | mctp
deriving DecidableEq, Repr

/-- The management transports (16 R443, R445). -/
inductive Transport where
  | mailbox | pcie | i3c
deriving DecidableEq, Repr

/-- The trailer of a privileged command: the nonce it presents, the operator's public key and the signature, and the signed
bytes (16 R447). -/
structure Auth where
  nonce  : BitVec 64
  key    : List Byte
  sig    : List Byte
  signed : List Byte
deriving DecidableEq, Repr

/-- A unit the Myirari controller tracks and QUARANTINE or RELEASE may name (16 R451, R463, R464). -/
inductive UnitId where
  | bay (b : BayId) | port (p : PortId) | engine (e : EngineId) | stack (s : StackId) | core (c : CoreId)
deriving DecidableEq, Repr

/-- The fields of a fabric header that a receiver uses (15 R423), with what arrived of the frame around it. -/
structure FrameHdr where
  vlanTags : Nat
  first    : Bool
  last     : Bool
  enc      : Bool
  notReady : Bool
  src      : Nat
  dst      : Nat
  srcPdk   : Nat
  dstPdk   : Nat
  jobId    : Nat
  seq      : Nat
  ctr      : Nat
  xfer     : Nat
  offset   : Nat
  tag      : List Byte
deriving DecidableEq, Repr

/-- The target block of a first DATA frame (15 R423). `get` is OP 2, else a PUT. -/
structure TargetBlk where
  get    : Bool
  rspace : Bool
  len    : Nat
  raddr  : Nat
deriving DecidableEq, Repr

/-- The contents of a HELLO (15 R427). -/
structure Hello where
  device    : Nat
  port      : Nat
  protect   : Nat
  ethertype : Nat
deriving DecidableEq, Repr

/-- Names one fabric flow: a paddock's job slot and the member rank at the far end (15 R440). -/
structure FlowId where
  pdk  : PdkId
  job  : Fin 16
  rank : Fin 64
deriving DecidableEq, Repr

/-- A command of the block. `more = true` on a core's slot operation says that another slot of the same bundle follows. -/
inductive Instr where
  -- Host registers and package memory
  | registerWrite (fn : Fn) (off size : Nat) (val : Word) (ide : Option Nat)
  | rcRead (fn : Fn) (off size : Nat) (ide : Option Nat)
  | tscRead (fn : Fn) (half : Half)
  | pkgMemAccess (rq : MemReq)
  | rowSlotGrant (st : StackId)
  | pkgMemFetchComplete (st : StackId) (tag : Nat) (ecc : EccResult) (dramRow : Nat)
  | pkgMemWriteComplete (st : StackId) (tag : Nat)
  | memPatrol (st : StackId) (ecc : EccResult) (dramRow : Nat) (writtenSince : Bool)
  -- Beats, power and thermal
  | bubbleBeat (c : CoreId)
  | railUpdate (capMv thermMv mon : List Nat) (base : Nat)
  | pwrCapWrite (val : Word)
  | pdkPaceWrite (p : PdkId) (val : Word) (ide : Option Nat)
  | junctionAboveFloor (d : DieId) (tj mv : Nat)
  | junctionRecovered (d : DieId) (tj mon : Nat)
  | thermalTrip (d : DieId) (tj : Nat)
  | tripEnterStandby
  -- Power-up, resets, link
  | auxPowerOn (fwOk ucodeOk : Bool)
  | mainPowerOn
  | perstDeassert
  | linkTrainingStart
  | rampComplete (noResource : List Nat)
  | perstAssert
  | hotReset
  | linkDisable
  | linkDisableCleared
  | conventionalResetDone
  | p54vLoss (mv : Nat)
  | p54vLowTimeout (mv : Nat)
  | auxLoss (mv : Nat)
  | refclkStop
  | linkDown
  | standbyRequest (force : Bool)
  | standbyTransitionDone
  | powerUp
  | pf0Flr
  | vfFlr (p : PdkId)
  | vfEnableClear
  | vfD3hot (p : PdkId)
  | pf0D3hot
  | vfD0 (fn : Fn)
  | vfBmeClear (p : PdkId)
  | vfBmeSet (p : PdkId)
  | configWrite (fn : Fn) (w : CfgWrite)
  | msixRelease (fn : Fn)
  | unsupportedTlp (fn : Fn)
  | bar2Tlp (p : PdkId) (write : Bool) (off len : Nat) (data : List Byte) (ide : Option Nat)
  | pdkWinWrite (p : PdkId) (val : Word) (ide : Option Nat)
  | hostCompletion (tag : Nat) (ok : Bool) (data : List Byte)
  | completionTimeout (tag : Nat)
  -- Loader
  | ldrGo
  | pdkLoadGo (p : PdkId) (ide : Option Nat)
  | loaderTake
  | loadChecksComplete
  | platformCommit
  | tenantCommit
  -- Paddocks, rings and the scheduler
  | suspend (p : PdkId)
  | resume (p : PdkId)
  | teardown (p : PdkId) (byTenant : Bool)
  | teardownDrained (p : PdkId)
  | teardownComplete (p : PdkId)
  | ringEnable (p : PdkId) (val : Word) (ide : Option Nat)
  | ringDisable (p : PdkId) (val : Word) (ide : Option Nat)
  | sqTailDoorbell (p : PdkId) (k : Fin 256) (val : BitVec 16) (ide : Option Nat)
  | cqHeadDoorbell (p : PdkId) (k : Fin 256) (val : BitVec 16) (ide : Option Nat)
  | sqEntry (p : PdkId) (k : Fin 256) (data : List Byte)
  | scheduleDecision
  | sliceExpiry (b : BayId)
  | coresStopped (b : BayId)
  | baySwitch (b : BayId)
  | jobEnd (p : PdkId) (k : Fin 256)
  | completionWrite (p : PdkId) (k : Fin 256) (ok : Bool)
  -- Security
  | entropySample (v : Byte)
  | drbgReinstantiate
  | drbgReseed
  | entropyWaitTimeout (c : CoreId)
  | getVersion (r : Responder)
  | getCapabilities (r : Responder)
  | negotiateAlgorithms (r : Responder)
  | getDigests (r : Responder)
  | getCertificate (r : Responder) (slot : Fin 8) (off len : Nat)
  | challenge (r : Responder) (slot : Fin 8) (nonce : List Byte)
  | getMeasurements (r : Responder) (idx : Nat) (nonce : List Byte)
  | keyExchange (r : Responder) (data : List Byte)
  | finish (r : Responder) (sid : Nat) (macOk : Bool)
  | heartbeat (r : Responder) (sid : Nat)
  | keyUpdate (r : Responder) (sid : Nat)
  | endSession (r : Responder) (sid : Nat)
  | chunkGet (r : Responder) (handle seq : Nat)
  | spdmUnsupportedRequest (r : Responder) (code : Nat)
  | heartbeatTimeout (r : Responder) (sid : Nat)
  | ideKmQuery (sid : Nat) (port : Nat)
  | keyProg (sid stream : Nat) (set : Fin 2) (rx : Bool) (sub : Fin 4)
  | kSetGo (sid stream : Nat) (set : Fin 2) (rx : Bool) (sub : Fin 4)
  | kSetStop (sid stream : Nat) (set : Fin 2) (rx : Bool) (sub : Fin 4)
  | getTdispVersion (sid : Nat) (p : PdkId)
  | getTdispCapabilities (sid : Nat) (p : PdkId)
  | lockInterfaceRequest (sid : Nat) (p : PdkId) (stream : Nat) (p2p : Bool)
  | getDeviceInterfaceReport (sid : Nat) (p : PdkId)
  | getDeviceInterfaceState (sid : Nat) (p : PdkId)
  | startInterfaceRequest (sid : Nat) (p : PdkId)
  | stopInterfaceRequest (sid : Nat) (p : PdkId)
  | tdispUnsupportedRequest (sid : Nat) (p : PdkId)
  | pdkConsentWrite (p : PdkId) (val : Word) (ide : Option Nat)
  | epochAck (e : Nat)
  | bayPowerDown (mask : BitVec 16)
  | bayScrubConfirmed (b : BayId)
  | bayPowerUp (mask : BitVec 16)
  -- Core: control slot
  | nop (c : CoreId) (more : Bool)
  | add (c : CoreId) (more : Bool) (rd rs1 rs2 : XReg)
  | sub (c : CoreId) (more : Bool) (rd rs1 rs2 : XReg)
  | and (c : CoreId) (more : Bool) (rd rs1 rs2 : XReg)
  | or (c : CoreId) (more : Bool) (rd rs1 rs2 : XReg)
  | xor (c : CoreId) (more : Bool) (rd rs1 rs2 : XReg)
  | sll (c : CoreId) (more : Bool) (rd rs1 rs2 : XReg)
  | srl (c : CoreId) (more : Bool) (rd rs1 rs2 : XReg)
  | sra (c : CoreId) (more : Bool) (rd rs1 rs2 : XReg)
  | slt (c : CoreId) (more : Bool) (rd rs1 rs2 : XReg)
  | sltu (c : CoreId) (more : Bool) (rd rs1 rs2 : XReg)
  | min (c : CoreId) (more : Bool) (rd rs1 rs2 : XReg)
  | max (c : CoreId) (more : Bool) (rd rs1 rs2 : XReg)
  | mul (c : CoreId) (more : Bool) (rd rs1 rs2 : XReg)
  | addi (c : CoreId) (more : Bool) (rd rs1 : XReg) (imm : BitVec 14)
  | andi (c : CoreId) (more : Bool) (rd rs1 : XReg) (imm : BitVec 14)
  | ori (c : CoreId) (more : Bool) (rd rs1 : XReg) (imm : BitVec 14)
  | xori (c : CoreId) (more : Bool) (rd rs1 : XReg) (imm : BitVec 14)
  | slli (c : CoreId) (more : Bool) (rd rs1 : XReg) (imm : BitVec 14)
  | srli (c : CoreId) (more : Bool) (rd rs1 : XReg) (imm : BitVec 14)
  | srai (c : CoreId) (more : Bool) (rd rs1 : XReg) (imm : BitVec 14)
  | slti (c : CoreId) (more : Bool) (rd rs1 : XReg) (imm : BitVec 14)
  | li (c : CoreId) (more : Bool) (rd : XReg) (imm : BitVec 19)
  | lis (c : CoreId) (more : Bool) (rd : XReg) (k : Fin 4) (imm : BitVec 16)
  | beq (c : CoreId) (more : Bool) (rs1 rs2 : XReg) (off : BitVec 14)
  | bne (c : CoreId) (more : Bool) (rs1 rs2 : XReg) (off : BitVec 14)
  | blt (c : CoreId) (more : Bool) (rs1 rs2 : XReg) (off : BitVec 14)
  | bge (c : CoreId) (more : Bool) (rs1 rs2 : XReg) (off : BitVec 14)
  | bltu (c : CoreId) (more : Bool) (rs1 rs2 : XReg) (off : BitVec 14)
  | bgeu (c : CoreId) (more : Bool) (rs1 rs2 : XReg) (off : BitVec 14)
  | jal (c : CoreId) (more : Bool) (rd : XReg) (off : BitVec 19)
  | jr (c : CoreId) (more : Bool) (rd rs1 : XReg)
  | amov (c : CoreId) (more : Bool) (ad : AReg) (rs1 : XReg)
  | aaddi (c : CoreId) (more : Bool) (ad asrc : AReg) (imm : BitVec 14)
  | xmova (c : CoreId) (more : Bool) (rd : XReg) (asrc : AReg)
  | getsv (c : CoreId) (more : Bool) (rd : XReg) (idx : BitVec 14)
  | rand (c : CoreId) (more : Bool) (rd : XReg)
  | jobStop (c : CoreId) (more : Bool)
  -- Core: row slot
  | vnop (c : CoreId) (more : Bool)
  | vadd (c : CoreId) (more : Bool) (wd ws1 ws2 : WReg) (fmt : Fin 16)
  | vsub (c : CoreId) (more : Bool) (wd ws1 ws2 : WReg) (fmt : Fin 16)
  | vmul (c : CoreId) (more : Bool) (wd ws1 ws2 : WReg) (fmt : Fin 16)
  | vfma (c : CoreId) (more : Bool) (wd ws1 ws2 ws3 : WReg) (fmt : Fin 16)
  | vmax (c : CoreId) (more : Bool) (wd ws1 ws2 : WReg) (fmt : Fin 16)
  | vmin (c : CoreId) (more : Bool) (wd ws1 ws2 : WReg) (fmt : Fin 16)
  | vand (c : CoreId) (more : Bool) (wd ws1 ws2 : WReg)
  | vor (c : CoreId) (more : Bool) (wd ws1 ws2 : WReg)
  | vxor (c : CoreId) (more : Bool) (wd ws1 ws2 : WReg)
  | vcmplt (c : CoreId) (more : Bool) (wd ws1 ws2 : WReg) (fmt : Fin 16)
  | vsel (c : CoreId) (more : Bool) (wd ws1 ws2 ws3 : WReg) (fmt : Fin 16)
  | vcvt (c : CoreId) (more : Bool) (wd ws1 : WReg) (fmt tf : Fin 16) (part : Fin 4) (sr : Bool)
  | vbcast (c : CoreId) (more : Bool) (wd : WReg) (xs : XReg) (fmt : Fin 16)
  | vred (c : CoreId) (more : Bool) (xs : XReg) (ws1 : WReg) (fmt : Fin 16) (op : RedOp)
  | vsfu (c : CoreId) (more : Bool) (wd ws1 : WReg) (fmt : Fin 16) (sel : Fin 64)
  -- Core: move slot
  | mnop (c : CoreId) (more : Bool)
  | ldr (c : CoreId) (more : Bool) (w : WReg) (adr : AReg) (off : BitVec 12)
  | str (c : CoreId) (more : Bool) (w : WReg) (adr : AReg) (off : BitVec 12)
  | lda (c : CoreId) (more : Bool) (w : WReg) (adr : AReg) (off : BitVec 12)
  | sta (c : CoreId) (more : Bool) (w : WReg) (adr : AReg) (off : BitVec 12)
  | fill (c : CoreId) (more : Bool) (x : XReg) (adr : AReg) (off cnt : BitVec 12)
  | copy (c : CoreId) (more : Bool) (x : XReg) (adr : AReg) (off cnt : BitVec 12)
  | semsig (c : CoreId) (more : Bool) (pair : Fin 64) (ctr : Fin 2) (cnt : BitVec 12) (remote : Bool) (x : XReg)
  | remoteSemsigArrival (src : CoreId)
  | semwait (c : CoreId) (more : Bool) (pair : Fin 64) (ctr : Fin 2) (cnt : BitVec 12)
  | hqpush (c : CoreId) (more : Bool) (q : Fin 128) (x : XReg)
  | remoteHqpushArrival (src : CoreId)
  | hqpop (c : CoreId) (more : Bool) (q : Fin 128) (x : XReg)
  | claimTake (c : CoreId) (more : Bool) (k : Fin 64) (cnt : BitVec 12) (x : XReg)
  | claimArm (c : CoreId) (more : Bool) (k : Fin 64) (x : XReg)
  | strmgo (c : CoreId) (more : Bool) (st : Fin 16) (prick : BitVec 12) (adr : AReg)
  | strmswap (c : CoreId) (more : Bool) (st : Fin 16)
  | strmwait (c : CoreId) (more : Bool) (st : Fin 16) (x : XReg)
  | hoopPush (c : CoreId) (more : Bool) (h : Fin 16) (w : WReg)
  | hoopConfig (c : CoreId) (more : Bool) (h : Fin 16) (adr : AReg) (cnt : BitVec 12)
  | hoopPop (c : CoreId) (more : Bool) (h : Fin 16) (w : WReg)
  | hoopPeek (c : CoreId) (more : Bool) (h : Fin 16) (w : WReg) (cnt : BitVec 12)
  | hoopDrop (c : CoreId) (more : Bool) (h : Fin 16) (cnt : BitVec 12)
  | hoopCount (c : CoreId) (more : Bool) (h : Fin 16) (x : XReg)
  | arrwait (c : CoreId) (more : Bool) (k : Fin 128) (x : XReg)
  | arrwaitSub (c : CoreId) (more : Bool) (k : Fin 128) (x : XReg)
  | arrivalReset (c : CoreId) (more : Bool) (k : Fin 128)
  | mwait (c : CoreId) (more : Bool) (x : XReg)
  -- Macros
  | matmul (c : CoreId) (adr : AReg) (off : BitVec 12) (xs : XReg)
  | tileDrain (c : CoreId)
  | macroComplete (c : CoreId)
  | attend (c : CoreId) (adr : AReg) (off : BitVec 12) (xs : XReg)
  | splitDelivery (c : CoreId)
  | splitFold (b : BayId)
  | create (c : CoreId) (adr : AReg) (off : BitVec 12) (xs : XReg)
  | yardRelease (c : CoreId) (adr : AReg) (off : BitVec 12) (xs : XReg)
  | append (c : CoreId) (adr : AReg) (off : BitVec 12) (xs : XReg)
  | trim (c : CoreId) (adr : AReg) (off : BitVec 12) (xs : XReg)
  | fork (c : CoreId) (adr : AReg) (off : BitVec 12) (xs : XReg)
  | lookup (c : CoreId) (adr : AReg) (off : BitVec 12) (xs : XReg)
  | publish (c : CoreId) (adr : AReg) (off : BitVec 12) (xs : XReg)
  | pin (c : CoreId) (adr : AReg) (off : BitVec 12) (xs : XReg)
  | unpin (c : CoreId) (adr : AReg) (off : BitVec 12) (xs : XReg)
  | prefetch (c : CoreId) (adr : AReg) (off : BitVec 12) (xs : XReg)
  | query (c : CoreId) (adr : AReg) (off : BitVec 12) (xs : XReg)
  | ptread (c : CoreId) (adr : AReg) (off : BitVec 12) (xs : XReg)
  | loftPageReturn (tag : Nat) (ok : Bool) (data : List Byte)
  | frameZeroed (slot : Bool) (n : Nat)
  | deferredRelease (c : CoreId)
  | yrdPfxKeyWrite (p : PdkId) (second : Bool) (val : Word) (ide : Option Nat)
  | yrdLoftWrite (p : PdkId) (g : Fin 16) (size : Bool) (val : Word) (ide : Option Nat)
  -- Streams and scratchpad health
  | streamRequestIssue (b : BayId)
  | streamRowDelivered (c : CoreId) (st : Fin 17)
  | streamWriteAck (c : CoreId) (st : Fin 16)
  | eccWriteback (c : CoreId) (row : CorrectedRow)
  | spadPatrol (c : CoreId) (bank : Fin 8) (ecc : EccResult)
  | spadUncorrectable (c : CoreId) (row : Fin 4096) (by_ : UeFinder)
  -- Tambour
  | graphArm (p : PdkId) (g : Fin 16) (val : Word) (ide : Option Nat)
  | graphDisarm (p : PdkId) (g : Fin 16) (ide : Option Nat)
  | frameSubmit (p : PdkId) (g : Fin 16) (val : Word) (ide : Option Nat)
  | bandTake (e : EngineId)
  | frameRecord (p : PdkId) (g : Fin 16)
  | deferredSignalDelivery (c : CoreId)
  -- Fabric
  | helloSend (pt : PortId)
  | hello (pt : PortId) (h : Hello)
  | helloTimeout (pt : PortId)
  | pauseFrame (pt : PortId)
  | dataFrame (pt : PortId) (h : FrameHdr) (t : Option TargetBlk) (payload : List Byte)
  | ackFrame (pt : PortId) (h : FrameHdr)
  | nakFrame (pt : PortId) (h : FrameHdr) (status : Nat)
  | retireFrame (pt : PortId) (h : FrameHdr)
  | collFrame (pt : PortId) (h : FrameHdr) (kind len : Nat) (payload : List Byte)
  | activate (p : PdkId) (val : Word) (ide : Option Nat)
  | retire (p : PdkId) (ide : Option Nat)
  | fabJobMemberWrite (p : PdkId) (val : Word) (ide : Option Nat)
  | fabJobKeyWrite (p : PdkId) (k : Fin 4) (val : Word) (ide : Option Nat)
  | eyeletOpen (p : PdkId) (val : Word) (ide : Option Nat)
  | eyeletClose (p : PdkId) (ide : Option Nat)
  | eyeletAbandon (p : PdkId) (e : Nat)
  | fabPostqWrite (p : PdkId) (q : Fin 16) (val : Word) (ide : Option Nat)
  | put (p : PdkId) (q : Fin 16)
  | get (p : PdkId) (q : Fin 16)
  | statSum (p : PdkId) (q : Fin 16)
  | sumF32 (p : PdkId) (q : Fin 16)
  | maxF32 (p : PdkId) (q : Fin 16)
  | collectiveFold (p : PdkId) (j : Fin 16)
  | postCompletion (p : PdkId) (q : Fin 16)
  | resendTimeout (f : FlowId)
  | notReadyRetry (f : FlowId)
  | retireResend (p : PdkId) (j : Fin 16)
  | deferredArrival (c : CoreId)
  -- Management
  | setEndpointId (tr : Transport) (eid : Byte)
  | getEndpointId (tr : Transport)
  | getEndpointUuid (tr : Transport)
  | getMctpVersionSupport (tr : Transport) (ty : Byte)
  | getMessageTypeSupport (tr : Transport)
  | getTid (tr : Transport)
  | getPldmVersion (tr : Transport) (ty : Byte)
  | getPldmTypes (tr : Transport)
  | getPldmCommands (tr : Transport) (ty : Byte)
  | setEventReceiver (tr : Transport) (eid : Byte)
  | getPdrRepositoryInfo (tr : Transport)
  | getPdr (tr : Transport) (handle : Nat)
  | getSensorReading (tr : Transport) (id : BitVec 16)
  | getStateSensorReadings (tr : Transport) (id : BitVec 16)
  | pollForPlatformEventMessage (tr : Transport)
  | mctpUnsupportedCommand (tr : Transport) (ty code : Byte)
  | queryDeviceIdentifiers (tr : Transport)
  | getFirmwareParameters (tr : Transport)
  | requestUpdate (tr : Transport) (agent : Nat)
  | passComponentTable (tr : Transport) (agent : Nat) (comp : BitVec 16)
  | updateComponent (tr : Transport) (agent : Nat) (comp : BitVec 16) (size : Nat)
  | requestFirmwareDataResponse (tr : Transport) (off : Nat) (data : List Byte)
  | transferComplete (tr : Transport) (ok : Bool)
  | verifyComplete (tr : Transport)
  | applyComplete (tr : Transport) (ok : Bool)
  | activateFirmware (tr : Transport) (agent : Nat)
  | getStatus (tr : Transport)
  | cancelUpdateComponent (tr : Transport) (agent : Nat)
  | cancelUpdate (tr : Transport) (agent : Nat)
  | getNonce (tr : Transport)
  | enrollKey (tr : Transport) (slot : Nat) (digest : List Byte) (au : Option Auth)
  | revokeKey (tr : Transport) (slot : Nat) (au : Auth)
  | logRead (tr : Transport) (seq count : Nat)
  | logClear (tr : Transport) (au : Auth)
  | selftest (tr : Transport) (mask : BitVec 16) (force : Bool) (au : Auth)
  | selftestBayStart (b : BayId)
  | selftestBayDone (b : BayId) (pass : Bool) (test : Nat)
  | calibrate (tr : Transport) (mask : BitVec 16) (force : Bool) (au : Auth)
  | quarantine (tr : Transport) (u : UnitId) (au : Auth)
  | release (tr : Transport) (u : UnitId) (au : Auth)
  | testAccess (tr : Transport) (enable : Bool) (au : Auth)
  | ctrlRestart (tr : Transport) (au : Auth)
  | watchdogExpiry
  | ctrlRestartDone (queued : List Transport)
  | repairList (tr : Transport)
  | getSfuProgram (tr : Transport) (func : BitVec 16)
  | otvedaUndefinedCommand (tr : Transport) (code : Byte)
  | sensorRefresh (readings : List (Nat × Nat))
  | viewCompare (seen : List (Nat × Nat))
  | refclkStart
  | configurationReady
  | fabricLinkUp (pt : PortId)
  | fabricLinkDown (pt : PortId)
  | powerUpAfterTripDone
  | pf0FlrComplete
  | bayPowerUpComplete (b : BayId)
  | doeDiscovery (idx : Nat)
  | otherEthertypeFrame (pt : PortId)
deriving DecidableEq, Repr

end Sys2Proof
end

