-- ==== Sys2Proof/Config.lean ====
section
/-! DEFINITION. What the spec leaves to the part or to a published standard, and the free values: opaque constants, so that
no proof can see what they are. Each is named in a row of notes/assumptions. -/

namespace Sys2Proof.Config

/-- Minor versions that HIF_VERSION reports; the spec gives none (03 HIF_VERSION; log 3, DESIGN CHOICE). -/
opaque fwMinor : Byte
/-- As `fwMinor`, of the core microcode (log 3, DESIGN CHOICE). -/
opaque ucodeMinor : Byte
/-- Highest Bolpa minor version accepted (log 3, DESIGN CHOICE). -/
opaque bolpaMinor : Byte
/-- Device Serial Number, unique per package (03 R85; log 3, DESIGN CHOICE). -/
opaque serialNumber : Word
/-- Endpoint UUID (16 R444; log 3, DESIGN CHOICE). -/
opaque endpointUuid : BitVec 128
/-- Minimum security version that the fuses hold at manufacture (16 R467; log 3, DESIGN CHOICE). -/
opaque fusedSecurityVersion : Nat
/-- Whether the manufacturing test fuse is still whole (06 R181 block 7; log 3, DESIGN CHOICE). -/
opaque testFuseWhole : Bool
/-- Free spare rows of bank k of core n as it left the factory, reduced by `freeSpares` to the range 4 to 8 (09 R289; log 3, DESIGN CHOICE). -/
opaque factorySpares : Nat → Nat → Nat
/-- Free spare rows at power-up: between 4 and 8 (09 R289). -/
def freeSpares (core bank : Nat) : Nat := 4 + factorySpares core bank % 5
/-- Step words of Otveda's published programs other than RCP (11 R324; log 8, PRESUMED). -/
opaque publishedSteps : Nat → List Word
/-- The Alias key that the fused secret, unique to the package, and measurement blocks 1 to 4 give (06 R174; log 8, PRESUMED). -/
opaque aliasKey : List Byte → BitVec 384
/-- Its public key, 96 bytes (06 R174; log 8, PRESUMED). -/
opaque aliasPublic : BitVec 384 → List Byte
/-- ECDSA P-384 signature under the Alias key over a byte string (06 R174, R180; log 8, PRESUMED). -/
opaque ecdsaSign : BitVec 384 → List Byte → List Byte
/-- Certificates of slot 0 above the Alias certificate: Otveda root, Otveda intermediate, DeviceID (06 R180; log 3, DESIGN CHOICE). -/
opaque rootCert : List Byte
/-- As `rootCert` (log 3, DESIGN CHOICE). -/
opaque intermediateCert : List Byte
/-- As `rootCert` (log 3, DESIGN CHOICE). -/
opaque deviceIdCert : List Byte
/-- The Alias certificate that the DeviceID key signs over the Alias public key (06 R174, R180; log 8, PRESUMED). -/
opaque aliasCert : List Byte → List Byte
/-- The public half, on secp384r1, of an ephemeral key drawn from the DRBG (06 R173, R174; log 8, PRESUMED). -/
opaque ecdhePublic : BitVec 384 → List Byte
/-- A key derived from a paddock root key, by its label (06 R174; log 8, PRESUMED): SP 800-108 over HMAC-SHA-384. -/
opaque derivedKey : BitVec 256 → Nat → BitVec 256
/-- AES-256-GMAC tag of a Loft page under a key: associated data and ciphertext (13 R390; log 8, PRESUMED). -/
opaque loftTag : BitVec 256 → List Byte → List Byte → List Byte
/-- AES-256-XTS of a Loft page under a key pair: first position, version, bytes (13 R390; log 8, PRESUMED). -/
opaque loftEncrypt : BitVec 512 → Nat → Nat → List Byte → List Byte
/-- Its inverse (13 R390; log 8, PRESUMED). -/
opaque loftDecrypt : BitVec 512 → Nat → Nat → List Byte → List Byte
/-- AES-256-GCM tag of a sealed save record under a key: additional data (paddock, save slot, logical bay, withdrawal counter) and what the
record holds (06 R200; log 8, PRESUMED). -/
opaque sealTag {α : Type} : BitVec 256 → Nat → Nat → Nat → Nat → α → BitVec 128
/-- Bodies of SPDM, IDE_KM, TDISP, MCTP and PLDM answers that the named standards lay out (00 R19; log 8, PRESUMED): request code and a
parameter. -/
opaque standardBody : Nat → Nat → List Byte
/-- The n-th 64 bits drawn from the DRBG (06 R177, 07 R212): free (log 9, DESIGN CHOICE). -/
opaque drbg : Nat → BitVec 64
/-- The n-th value that the spec leaves unstated (log 9, DESIGN CHOICE): free. -/
opaque freeValue : Nat → BitVec 64
/-- What a staging row holds while and after a macro uses it: not defined (08 R255; log 9, DESIGN CHOICE). -/
opaque freeRow : Nat → Nat → BitVec 4096
/-- E2M1 encoding of a NaN: the format has none (08 R242, R263; log 30, DESIGN CHOICE). -/
opaque nanE2m1 : BitVec 4
/-- Scale of an MX output block that holds a NaN or an infinity (08 R263; log 30, DESIGN CHOICE). -/
opaque scaleOfNonFinite : BitVec 8
/-- Ticks that a number of beats takes at the speed of the moment: beats follow rail and temperature (01 R36, 02 R38; log 84, DESIGN CHOICE). -/
opaque beatTicks : Nat → Nat
/-- Whether a register read made before its producer's latency sees the new value (07 R230): free (log 7, DESIGN CHOICE). The arguments are the
core's beat count and the register. -/
opaque earlySeesNew : Nat → Nat → Bool
/-- A byte that the spec calls undefined (14 R419): free (log 9, DESIGN CHOICE). -/
opaque undefByte : Nat → Byte
/-- Channel, bank and row inside a stack that identify a DRAM row (16 R454, R461): not published (log 3, DESIGN CHOICE). -/
opaque dramPlace : Nat → Nat × Nat × Nat
/-- Package frames that hold granules backed by a DRAM row (16 R445, R461): not published (log 3, DESIGN CHOICE). -/
opaque framesOfRow : Nat → List Nat
/-- Measurement digests of boot ROM, firmware, microcode and matrix (06 R181 blocks 1 to 4; log 3, DESIGN CHOICE). -/
opaque bootDigest : Nat → BitVec 384
/-- Digest of the signed compatibility matrix that a firmware image carries (04 R130, 06 R181 block 4; log 8, PRESUMED). -/
opaque matrixDigest : List Byte → BitVec 384
/-- Security version and part of a firmware component's image, read from its bytes (16 R467; log 8, PRESUMED). -/
opaque fwSecurity : List Byte → Nat
/-- Whether a firmware component's image is for PART 0x0256 and its signature verifies (16 R467; log 8, PRESUMED). -/
opaque fwSigned : List Byte → Bool
/-- Version a firmware component's image carries (16 R467, R468; log 8, PRESUMED). -/
opaque fwVersion : List Byte → Nat
/-- Whether the compatibility matrix lists a combination of firmware and microcode versions (04 R130, 16 R468; log 8, PRESUMED). -/
opaque matrixLists : Nat → Nat → Bool

end Sys2Proof.Config
end

