-- ==== Sys2Proof/Machine/State.lean ====
section
/-! DEFINITION. The state of the block as plain data: every register, queue, counter and mode the spec gives the AX256, each
with its reset value beside it (a cold reset, 03 R76), and the queue of waiting commands. -/

namespace Sys2Proof.Machine

/-- A table from numbers to values, in rising order of its keys; what an unlisted key reads as is said where it is read. -/
abbrev Tab (α : Type) := List (Nat × α)

/-- Device states (00 R18). -/
inductive Phase where
  | off | standby | init | restricted | ready
deriving DecidableEq, Repr

/-- Unit states (00 R18); the codes of RAS_BAY_STATE are 0 to 3 in this order. -/
inductive UnitSt where
  | online | draining | quarantined | offline
deriving DecidableEq, Repr

/-- Paddock states (00 R18); the codes of PDK_ID.STATE are 0 to 5 in this order. -/
inductive PdkSt where
  | empty | loading | runnable | running | suspended | teardown
deriving DecidableEq, Repr

/-- The host link (03 R70, R78). -/
inductive LinkSt where
  | down | training | up | disabled
deriving DecidableEq, Repr

/-- What began a conventional reset (03 R76, R78, R82). -/
inductive ConvKind where
  | perst | hot | disable | surprise
deriving DecidableEq, Repr

/-- How the present STANDBY was entered (03 PWR_CTRL, 02 R64). -/
inductive StandbyKind where
  | reset | requested | tripped
deriving DecidableEq, Repr

/-- A transition that PWR_CTRL.BUSY reports (03 R74, R75, 02 R64). -/
inductive Trans where
  | none | toStandby | fromStandby | fromTrip | trip
deriving DecidableEq, Repr

/-- Status of a completion that the part sends: Successful Completion, Completer Abort, Unsupported Request (03 R86, R92), or
Configuration Request Retry Status (03 R70 step 6). -/
inductive CplSt where
  | success | abort | unsupported | retry
deriving DecidableEq, Repr

/-- Error messages of PCI Express (03 R86). -/
inductive ErrMsg where
  | cor | nonfatal | fatal
deriving DecidableEq, Repr

/-- How far an orderly removal has come (03 R81): a STANDBY entered by request (step 3), and P54V removed behind PERST_N or Link Disable
(steps 4 and 5). -/
inductive Removal where
  | none | standby | unpowered
deriving DecidableEq, Repr

/-- What the block sends, in order (log 10, DESIGN CHOICE). -/
inductive Out where
  | cpl (fn : Nat) (st : CplSt) (data : List Byte)
  | errMsg (fn : Nat) (e : ErrMsg)
  | msix (fn vector : Nat) (ide : Option Nat)
  | hostRead (tag fn addr len : Nat) (ide : Option Nat)
  | hostWrite (fn addr : Nat) (ide : Option Nat) (data : List Byte)
  | memDone (tag status : Nat) (data : List Byte)
  | mgmt (tr : Transport) (status : Nat) (body : List Byte)
  | platformEvent (body : List Byte)
  | fwRequest (tr : Transport) (off len : Nat)
  | spdm (r : Responder) (code : Nat) (body : List Byte)
  | doe (body : List Byte)
  | ideKm (code : Nat) (body : List Byte)
  | tdisp (p code : Nat) (body : List Byte)
  | frame (port ty : Nat) (h : FrameHdr) (payload : List Byte)
  | hello (port : Nat) (h : Hello)
deriving DecidableEq, Repr

/-- Power, reset, link and time (02, 03). -/
structure Dev where
  phase        : Phase := .off
  aux          : Bool := false
  p54          : Bool := false
  booted       : Bool := false
  baseOn       : Bool := false
  perst        : Bool := true
  refclk       : Bool := false
  link         : LinkSt := .down
  cfgReady     : Bool := false
  compatBad    : Bool := false
  compatFail   : Bool := false
  tsc          : BitVec 64 := 0
  tscHold      : Bool := true
  everTrained  : Bool := false
  conv         : Option ConvKind := none
  ramp         : Bool := false
  needPerst    : Bool := false
  removal      : Removal := .none
  standbyKind  : StandbyKind := .reset
  trans        : Trans := .none
  pwrRefused   : Bool := false
  computeRails : Bool := false
  memRails     : Bool := false
  capWatts     : Nat := 900
  clamped      : Bool := false
  railMv       : Tab Nat := []
  baseRailMv   : Nat := 0
  tj           : Tab Nat := []
  capLimiting  : Bool := false
  subfloor     : Bool := false
  tripped      : Bool := false
  tripSeal     : Bool := false
  beatMon      : Tab Nat := []
  beatBase     : Nat := 0
  pwrEvent     : Word := 0
  flr0         : Bool := false
deriving DecidableEq, Repr

/-- One function's configuration and MSI-X state (03 R85-R87, 05 R472). -/
structure FnCfg where
  bme      : Bool := false
  d3       : Bool := false
  msixEn   : Bool := false
  fnMask   : Bool := false
  vecMask  : Tab Bool := []
  pba      : Tab Bool := []
  msixTab  : Tab (BitVec 32) := []
  cfg      : Tab (BitVec 32) := []
  cto      : Nat := 0
deriving DecidableEq, Repr

/-- What a host read issued by the part was for (03 R474). -/
inductive HostReadFor where
  | sqe (p k : Nat)
  | image
  | loft
deriving DecidableEq, Repr

/-- The host interface (03, 05). `mps` and `mrrs` are the codes of PF0's programmed Max_Payload_Size and Max_Read_Request_Size, 128 bytes
shifted left by the code, which hold for every function; `repCor` to `repUr` say which errors PF0's Device Control register reports
(03 R85, R86; their reset values are PCI Express's: log 2, PRESUMED). -/
structure Hif where
  err       : Word := 0
  latch     : Tab (BitVec 32) := []
  fns       : Tab FnCfg := []
  vfEnable  : Bool := false
  numVfs    : Nat := 0
  mps       : Nat := 0
  mrrs      : Nat := 2
  repCor    : Bool := false
  repNonfatal : Bool := false
  repFatal  : Bool := false
  repUr     : Bool := false
  reads     : Tab HostReadFor := []
  nextTag   : Nat := 0
deriving DecidableEq, Repr

/-- Entropy source and DRBG (06 R176-R179, SEC_RNG_STATUS). -/
structure Rng where
  running   : Bool := false
  fault     : Bool := false
  rctFail   : Bool := false
  aptFail   : Bool := false
  failCount : Nat := 0
  passRun   : Nat := 0
  rctVal    : Byte := 0
  rctRun    : Nat := 0
  aptRef    : Byte := 0
  aptCount  : Nat := 0
  aptPos    : Nat := 0
  gens      : Nat := 0
  draws     : Nat := 0
  fresh     : Nat := 0
deriving DecidableEq, Repr

/-- A secured SPDM session: handshake or established (06 R174, R180). -/
structure Session where
  sid         : Nat
  established : Bool
  keyEpoch    : Nat
deriving DecidableEq, Repr

/-- One IDE stream: programmed and running key sets by set, direction and sub-stream, the VF that it is bound to, its control as the host
configured it, and whether keys of it have been destroyed since it was last programmed (06 R175, R184, R186, R203). -/
structure IdeStream where
  keys   : List (Nat × Bool × Nat) := []
  active : List (Nat × Bool × Nat) := []
  vf     : Option Nat := none
  ctl    : BitVec 32 := 0
  gone   : Bool := false
deriving DecidableEq, Repr

/-- TDI states (06 R182, R186); codes 0 to 3 in this order. -/
inductive TdiSt where
  | unlocked | locked | run | error
deriving DecidableEq, Repr

/-- One TDI (06 R186). `unlockDue`: the move to CONFIG_UNLOCKED completes when the teardown completes. -/
structure Tdi where
  st        : TdiSt := .unlocked
  stream    : Option Nat := none
  unlockDue : Bool := false
deriving DecidableEq, Repr

/-- The security block (06). `records` holds each paddock's measurement record as it was last updated (R183). -/
structure Sec where
  rng        : Rng := {}
  aliasKey   : Bool := false
  doe        : List Session := []
  mctp       : List Session := []
  nextSid    : Nat := 1
  ide        : Tab IdeStream := []
  tdi        : Tab Tdi := []
  epoch      : Nat := 0
  ack        : Nat := 0
  epochReq   : Tab Nat := []
  keyRetired : Nat := 0
  records    : Tab (List Byte) := []
deriving DecidableEq, Repr

/-- Loader registers of one function (04 LDR_SRC to LDR_MEAS5 and the PDK_LOAD_* registers). -/
structure LoadRegs where
  src     : Nat := 0
  len     : Nat := 0
  code    : Nat := 0
  check   : Nat := 0
  busy    : Bool := false
  queued  : Bool := false
  done    : Bool := false
  section_ : Nat := 0
  offset  : Nat := 0
  meas    : BitVec 384 := 0
deriving DecidableEq, Repr

/-- The loader (04 R120-R129). `early`: the check of 1 to 5 that failed when the present load was taken, and its code. `staged`: the bytes
that it has read, which are the ones it checks and commits (R123). -/
structure Ldr where
  queue   : List Nat := []
  cur     : Option Nat := none
  early   : Option (Nat × Nat) := none
  regs    : Tab LoadRegs := []
  staged  : List Byte := []
  readErr : Bool := false
  readOut : Nat := 0
  passed  : Bool := false
deriving DecidableEq, Repr

/-- A PLAT_QUOTA entry (04 R103); TEN_NEEDS holds the same fields with `frameCount` its FRAMES (04 R110). -/
structure Quota where
  frameBase   : Nat := 0
  frameCount  : Nat := 0
  sequences   : Nat := 0
  pages       : Nat := 0
  loftMib     : Nat := 0
  mangerSlots : Nat := 0
  rings       : Nat := 0
  eyelets     : Nat := 0
  bays        : Nat := 0
  loftGrants  : Nat := 0
  mcastGroups : Nat := 0
deriving DecidableEq, Repr

/-- A PLAT_ROUTE entry (04 R107). -/
structure Route where
  src   : Nat
  dst   : Nat
  plane : Nat
  share : Nat
deriving DecidableEq, Repr

/-- A PLAT_SFU item (04 R108). -/
structure SfuSlot where
  slot  : Nat
  func  : Nat
  steps : List Word
deriving DecidableEq, Repr

/-- PLAT_FABRIC (04 R109). -/
structure FabCfg where
  ethertype : Nat
  device    : Nat
  portEn    : Nat
  protect   : Nat
deriving DecidableEq, Repr

/-- A committed platform image (04 R102-R109, R126). -/
structure Platform where
  quotas     : List Quota := []
  stride     : Nat := 0
  poolBase   : Nat := 0
  poolFrames : Nat := 0
  routes     : List Route := []
  sfu        : List SfuSlot := []
  fabric     : Option FabCfg := none
  meas       : BitVec 384 := 0
deriving DecidableEq, Repr

/-- A TEN_ENTRY item (04 R111). -/
structure Entry where
  ring    : Nat
  program : Nat
  start   : Nat
deriving DecidableEq, Repr

/-- A Pricking instruction (10 R298). -/
inductive PrickInsn where
  | loop (xcnt : Bool) (count : Nat) (stride : Int)
  | endl
  | xfer (len : Nat)
  | tile
  | adda (imm : Int)
deriving DecidableEq, Repr

/-- A TEN_PRICK item (10 R297). -/
structure Prick where
  dir      : Nat
  deadline : Bool
  arrival  : Nat
  bufRow   : Nat
  halfRows : Nat
  group    : Nat
  target   : Nat
  insns    : List PrickInsn
deriving DecidableEq, Repr

/-- A step of a picot chain (08 R261, R262). -/
structure PicotStep where
  kind : Nat
  sel  : Nat
  imm  : BitVec 32
deriving DecidableEq, Repr

/-- A TEN_PICOT item (08 R261). -/
structure Chain where
  outFmt : Nat
  sr     : Bool
  steps  : List PicotStep
deriving DecidableEq, Repr

/-- A TEN_BUCKET item (08 R248). -/
structure Bucket where
  program : Nat
  vary    : Nat
  order   : Nat
  db      : Bool
  size    : Nat
  dim1    : Nat
  dim2    : Nat
  tm      : Nat
  tn      : Nat
  tk      : Nat
  fmtA    : Nat
  fmtB    : Nat
  aRows   : Nat
  bRows   : Nat
  cRows   : Nat
deriving DecidableEq, Repr

/-- A TEN_STAGE item (10 R312). -/
inductive StageItem where
  | mcast (group lbay mask : Nat)
  | bind (queue lbay dstLbay dstQueue : Nat)
deriving DecidableEq, Repr

/-- A frame-graph node (14 R400, R401). -/
structure GNode where
  kind   : Nat
  engine : Nat
  op     : Nat
  outFmt : Nat
  outW   : Nat
  outH   : Nat
  param  : List Byte
deriving DecidableEq, Repr

/-- A frame-graph edge (14 R402). -/
structure GEdge where
  src     : Nat
  port    : Nat
  dst     : Nat
  mode    : Nat
  lbay    : Nat
  pos     : Nat
  sig     : Nat
  arrival : Nat
  base    : Nat
  slot    : Nat
  slots   : Nat
deriving DecidableEq, Repr

/-- A frame graph (14 R399). -/
structure Graph where
  graph   : Nat
  strict  : Bool
  skip    : Bool
  width   : Nat
  height  : Nat
  inFmt   : Nat
  vector  : Nat
  inSlots : Nat
  padval  : Nat
  inPitch : Nat
  inBase  : Nat
  inSlot  : Nat
  recBase : Nat
  nodes   : List GNode
  edges   : List GEdge
deriving DecidableEq, Repr

/-- A tenant image as committed (04 R101, R110-R119). `progs` holds the number of bundles of each TEN_CODE section. -/
structure TenImage where
  features : Nat := 0
  needs    : Quota := {}
  stride   : Nat := 0
  progs    : List Nat := []
  entries  : List Entry := []
  pricks   : List Prick := []
  buckets  : List Bucket := []
  chains   : List Chain := []
  stages   : List StageItem := []
  graphs   : List Graph := []
  sfuReq   : List (Nat × Nat) := []
  meas     : BitVec 384 := 0
  signer   : BitVec 384 := 0
deriving DecidableEq, Repr

/-- A range of frames with one owner ID (06 R192). -/
structure OwnRange where
  base  : Nat
  count : Nat
  owner : Nat
deriving DecidableEq, Repr

/-- The causes of a suspension (05 R133). -/
structure Susp where
  op   : Bool := false
  d3vf : Bool := false
  d3pf : Bool := false
  bme  : Bool := false
  trip : Bool := false
deriving DecidableEq, Repr

/-- Where a teardown stands (05 R170): stopping, drained, or none running. `flr`: caused by VF FLR or STOP_INTERFACE_REQUEST, which
leave the TDI out of ERROR (06 R186). -/
structure Teardown where
  drained : Bool := false
  flr     : Bool := false
deriving DecidableEq, Repr

/-- A Loft grant's registers (13 YRD_LOFT_BASE, YRD_LOFT_SIZE). -/
structure LoftGrant where
  base    : Nat := 0
  mib     : Nat := 0
  en      : Bool := false
  refused : Bool := false
  epoch   : Nat := 0
deriving DecidableEq, Repr

/-- One paddock (02, 03, 04, 05, 06, 10, 13). -/
structure Pdk where
  st         : PdkSt := .empty
  susp       : Susp := {}
  td         : Option Teardown := none
  img        : Option TenImage := none
  lock       : Option (Nat × Nat) := none
  goLock     : Option (Nat × Nat) := none
  saveOwned  : Bool := false
  rootKey    : Option (BitVec 256) := none
  gen        : Nat := 0
  consent    : Nat := 0
  serial     : Nat := 0
  ever       : Bool := false
  paceEn     : Bool := false
  paceN      : Nat := 0
  paceReject : Bool := false
  paceUnmet  : Bool := false
  event      : Word := 0
  accErr     : Word := 0
  win        : Nat := 0
  ringSel    : Nat := 0
  jobSel     : Nat := 0
  eyeSel     : Nat := 0
  stall      : Tab Nat := []
  beats      : Nat := 0
  held       : Nat := 0
  withdraw   : Nat := 0
  pfxKey0    : Word := 0
  pfxKey1    : Word := 0
  keyRefused : Bool := false
  spill      : Nat := 0
  loft       : Tab LoftGrant := []
  authFails  : Nat := 0
deriving DecidableEq, Repr

/-- The life of a ring's job (05 R150, R155, R164). `waiting`: not started. `running`: holds its bays. `saved`: stopped and saved.
`done`: ended, completion due. -/
inductive JobPh where
  | waiting | running | saved | done
deriving DecidableEq, Repr

/-- A completion entry (05 R151), its DETAIL and RESULT as they stood. -/
structure Cpl where
  status  : Nat := 0
  interim : Bool := false
  late    : Bool := false
  tag     : Nat := 0
  sqHead  : Nat := 0
  startTs : Nat := 0
  endTs   : Nat := 0
  detail  : Nat := 0
  result  : Nat := 0
  irq     : Bool := false
deriving DecidableEq, Repr

/-- The entry at the head of a ring and its job (05 R147-R160). `endTs` is the time of its latest bundle, `stopTs` that of its latest stop,
`faultTs` that of the fault that ends it. -/
structure Job where
  ph      : JobPh := .waiting
  irq     : Bool := false
  notify  : Bool := false
  tag     : Nat := 0
  bays    : Nat := 0
  args    : List Word := []
  bg      : Bool := false
  dl      : Nat := 0
  started : Bool := false
  lays    : List Nat := []
  slots   : List Nat := []
  startTs : Nat := 0
  endTs   : Nat := 0
  status  : Nat := 0
  detail  : Nat := 0
  result  : Nat := 0
  sqHead  : Nat := 0
  sealedCtr : Option Nat := none
  loss    : Bool := false
  endWith : Option Nat := none
  stopTs  : Nat := 0
  faultTs : Nat := 0
deriving DecidableEq, Repr

/-- One ring (05 PDK_RING_BASE to PDK_RING_STATE, R142-R154). `mute`: a host access of it has failed since it was enabled, so that its
job's completion is not written (R144). -/
structure Ring where
  base    : Nat := 0
  cq      : Nat := 0
  sqLog   : Nat := 0
  cqLog   : Nat := 0
  bg      : Bool := false
  vector  : Nat := 0
  en      : Bool := false
  defUs   : Nat := 0
  sqHead  : Nat := 0
  sqTail  : Nat := 0
  cqTail  : Nat := 0
  cqHead  : Nat := 0
  phase   : Bool := false
  stopped : Bool := false
  fault   : Bool := false
  refused : Bool := false
  dbBad   : Bool := false
  slot    : Option Nat := none
  stamps  : List (Nat × Nat) := []
  fetch   : Option Nat := none
  job     : Option Job := none
  cpls    : List Cpl := []
  mute    : Bool := false
deriving DecidableEq, Repr

/-- The scheduler (05 R158-R168). `first` is the first job in the order while it cannot start; `others` the bays that were free or
preemptible when it became so, which later jobs may still take (R160). -/
structure Sch where
  rrDl      : Nat := 0
  rrBg      : Nat := 0
  first     : Option (Nat × Nat) := none
  others    : List Nat := []
  event     : Word := 0
  eventPdk  : Word := 0
deriving DecidableEq, Repr

/-- A claim counter (08 R258). -/
structure Claim where
  value : Nat := 0
  limit : Nat := 0
deriving DecidableEq, Repr

/-- A handle pushed to another bay and not yet landed (10 R313). -/
structure HqFly where
  src    : Nat
  bay    : Nat
  queue  : Nat
  handle : BitVec 16
deriving DecidableEq, Repr

/-- A SEMSIG to another core that has not landed (10 R311). -/
structure SemFly where
  src  : Nat
  dst  : Nat
  ctr  : Nat
  cnt  : Nat
deriving DecidableEq, Repr

/-- One softmax row in progress: running maximum, running sum, output accumulator, and whether a NaN or a Loft failure was met
(11 R328-R330, 12 R354, R361). -/
structure SoftRow where
  m    : BitVec 32
  l    : BitVec 32
  o    : List (BitVec 32)
  nan  : Bool
deriving DecidableEq, Repr

/-- A finished split on its way to the split-merge unit, or an open fold (12 R354-R356, R361). `key` tells the macros of a bay apart: the
claim counter they share, or 64 + the core's position. `failed` is the status that its item failed with, 0 for none. -/
structure Split where
  key    : Nat
  entry  : Nat
  group  : Nat
  tile   : Nat
  index  : Nat
  total  : Nat
  rows   : List SoftRow
  failed : Nat
deriving DecidableEq, Repr

/-- The owner's partial of an open fold: its core's position, the next split to take, and a split delivered and not yet folded (12 R355,
R356). -/
structure Fold where
  owner : Nat
  next  : Nat
  part  : Split
  fly   : Option Split
deriving DecidableEq, Repr

/-- Self-test or calibration of a bay (16 R455-R458). -/
structure BayTest where
  calib   : Bool
  force   : Bool
  started : Bool
  release : Bool
deriving DecidableEq, Repr

/-- Why a bay is being stopped (05 R161, R164; 06 R198; 16 R456, R463). -/
inductive StopWhy where
  | preempt | suspend | powerDown | test | quarantine | trip
deriving DecidableEq, Repr

/-- One bay (05, 06, 08, 10, 12, 13, 16). `job` is the paddock and ring of the job placed on it; `withdrawn` says that a power-down or a
trip takes its cores, so that the job's state is sealed (06 R198, 02 R62). -/
structure Bay where
  powered  : Bool := true
  pendOff  : Bool := false
  pendOn   : Bool := false
  unit_    : UnitSt := .online
  holder   : Option Nat := none
  job      : Option (Nat × Nat) := none
  lbay     : Nat := 0
  sliceDone : Bool := false
  stopping : Option StopWhy := none
  withdrawn : Bool := false
  stopped  : Bool := false
  scrubbed : Bool := false
  next     : Option (Nat × Nat × Nat) := none
  prepared : Bool := false
  resident : Bool := false
  claims   : Tab Claim := []
  hq       : Tab (List (BitVec 16)) := []
  tags     : Nat := 1024
  rr       : Nat := 0
  folds    : List Fold := []
  test     : Option BayTest := none
  margin   : BitVec 64 := 0
  lossMark : Bool := false
deriving DecidableEq, Repr

/-- One Hoop (09 R274). SIZE 0 is disabled. -/
structure Hoop where
  base : Nat := 0
  size : Nat := 0
  head : Nat := 0
  tail : Nat := 0
  a    : Nat := 0
  o    : Nat := 0
deriving DecidableEq, Repr

/-- What an operation in flight does when its beats are up (07 R229, 09 R269-R275). -/
inductive Act where
  | setX (r : Nat) (v : Word)
  | setA (r : Nat) (v : Addr)
  | setW (r : Nat) (v : Row)
  | setAcc (r : Nat) (v : Row)
  | readSpad (w row : Nat)
  | writeSpad (row : Nat) (v : Row)
  | readCopy (dst : Nat) (src : Nat)
  | hoopA (h : Nat)
  | hoopO (h n : Nat)
  | satFlag
  | hqLand (queue : Nat) (handle : BitVec 16)
  | semLocal (ctr cnt : Nat)
  | sfuDone (sel : Nat)
  | drainUse
  | fillDone
deriving DecidableEq, Repr

/-- An operation in flight: beats left and its act. -/
structure Flight where
  left : Nat
  act  : Act
deriving DecidableEq, Repr

/-- A future bank stage of a program access: beats left, bank, and whether it reads (09 R270). -/
structure BankUse where
  left : Nat
  bank : Nat
  read : Bool
deriving DecidableEq, Repr

/-- An operand record of a macro descriptor (08 R239). -/
structure Operand where
  loc       : Nat := 0
  fmt       : Nat := 0
  trans     : Nat := 0
  pad       : Nat := 0
  padZp     : Nat := 0
  base      : Nat := 0
  stride    : Nat := 0
  sstride   : Nat := 0
  sbase     : Nat := 0
  stage     : Nat := 0
  stageRows : Nat := 0
deriving DecidableEq, Repr


/-- A fragment of a row on its way for a stream: tile, scratchpad row and byte offset in it, memory address, length, whether it ends its
row, read tags it gives back, contents; the request that it is part of, and whether the controller has answered that request (10 R299,
R302, R303, R305). -/
structure StrmRow where
  tile : Nat
  row  : Nat
  off  : Nat
  addr : Nat
  len  : Nat
  last : Bool
  tags : Nat
  data : List Byte
  rtag : Nat := 0
  ret  : Bool := false
deriving DecidableEq, Repr

/-- The tile sequencer's fetches, which run as stream 16 of the core (10 R304): next step whose operands are to be asked for, pieces not
yet issued, fragments under way, bytes that have arrived for each step, and what they hold, by package address. -/
structure SeqStrm where
  asked  : Nat := 0
  todo   : List (List StrmRow) := []
  fly    : List StrmRow := []
  landed : Tab Nat := []
  staged : Tab (List Host.Cell) := []
deriving DecidableEq, Repr

/-- An output tile computed and not yet drained: row tile, column tile, accumulator half, and the step that ended it. -/
structure FullTile where
  mt   : Nat
  nt   : Nat
  half : Nat
  step : Nat
deriving DecidableEq, Repr

/-- A matrix macro in flight (08 R237-R260): descriptor, effective sizes, outer tiles and the rows of the accumulator's footprint;
the tiles claimed and not yet drained, the first of them number `first` of this core's; the next step of the outer loops; the fetches;
the output tiles computed and not yet drained; and how many are drained. -/
structure MatFly where
  a        : Operand
  b        : Operand
  c        : Operand
  d        : Operand
  v0       : Operand
  v1       : Operand
  me       : Nat
  ne       : Nat
  ke       : Nat
  tm       : Nat
  tn       : Nat
  tk       : Nat
  fm       : Nat
  order    : Nat
  chain    : Option Chain
  claim    : Option Nat
  taken    : List Nat := []
  first    : Nat := 0
  pos      : Nat := 0
  seq      : SeqStrm := {}
  full     : List FullTile := []
  stopped  : Bool := false
  drained  : Nat := 0
  bucket   : Nat
  tileSrc  : Bool
  db       : Bool
  pdk      : Nat
deriving DecidableEq, Repr

/-- An attention descriptor's header (12 R340). -/
structure AttHead where
  claim  : Bool
  tsrc   : Bool
  expK   : Bool
  expV   : Bool
  mask   : Nat
  ctr    : Nat
  heads  : Nat
  groups : Nat
  window : Nat
  scale  : BitVec 32
  tq     : Nat
  span   : Nat
  koff   : Nat
  kdim   : Nat
  kgs    : Nat
  voff   : Nat
  vdim   : Nat
  vgs    : Nat
  kfmt   : Nat
  vfmt   : Nat
  edimK  : Nat
  edimV  : Nat
  uk     : Nat
  uv     : Nat
  btab   : Nat
  stage  : Nat
  stageRows : Nat
deriving DecidableEq, Repr

/-- A batch-table entry as read at issue, with its tiles, the positions that its keys are read at and the KEEP bits of its keys (12 R342,
R343, R348, R352). -/
structure AttEntry where
  seq    : Nat
  kpos0  : Nat
  klen   : Nat
  qpos   : Nat
  nq     : Nat
  qidx   : Nat
  tq     : Nat
  span   : Nat
  bucket : Nat
  poss   : List Nat
  keeps  : List Bool
deriving DecidableEq, Repr

/-- An attention macro in flight (12). `kv` holds the pages of its sequences as they stood at issue, by descriptor index × 2^20 + page
(12 R345); `awaits` the pages of the key tiles in hand; `due` a finished split not yet delivered. `seq` holds its page reads, with key tiles
counted through the macro: `base` is the number of its present item's first tile, `pos` that of the tile it is at (12 R344). -/
structure AttFly where
  h       : AttHead
  q       : Operand
  o       : Operand
  lse     : Operand
  ents    : List AttEntry
  kv      : Tab (List Byte)
  pdk     : Nat
  next    : Nat
  item    : Option Nat
  stopped : Bool
  done    : Nat
  masked  : Nat
  fail    : Nat
  awaits  : List (Nat × Nat)
  due     : Option Split
  seq     : SeqStrm := {}
  base    : Nat := 0
  pos     : Nat := 0
deriving DecidableEq, Repr

/-- A macro in flight (07 R226, R227). `yard` names the operation that the Yard holds. -/
inductive MacFly where
  | matrix (m : MatFly)
  | attention (m : AttFly)
  | yard (id : Nat)
deriving DecidableEq, Repr

/-- A macro and the bundle it was issued from. -/
structure Mac where
  bundle : Nat
  fly    : MacFly
deriving DecidableEq, Repr

/-- One stream of a core (10 R292-R296). `tiles` holds each tile's transfers as address and length; `cur` counts the tiles the core has
swapped past; `todo` the pieces not yet issued; `send` the rows of issued stores and forwards not yet read; `rel` the tick and bytes of
each release (R308); `fid` tells one fetch of a multicast group from another; `quit`: ended by a later STRMGO (R296). -/
structure Strm where
  live     : Bool := false
  started  : Bool := false
  prick    : Nat := 0
  base     : Nat := 0
  dir      : Nat := 0
  deadline : Bool := false
  arrival  : Nat := 0
  bufRow   : Nat := 0
  halfRows : Nat := 0
  group    : Nat := 0
  target   : Nat := 0
  bundle   : Nat := 0
  tiles    : List (List (Nat × Nat)) := []
  cur      : Nat := 0
  todo     : List (List StrmRow) := []
  send     : List StrmRow := []
  fly      : List StrmRow := []
  landed   : Tab Nat := []
  rel      : List (Nat × Nat) := []
  fid      : Nat := 0
  lead     : Bool := false
  quit     : Bool := false
deriving DecidableEq, Repr

/-- One core (07, 09). `gather` is the bundle being put together, `queue` the bundles waiting to issue, oldest first; `late` says that it
has taken the beat of its job's fault; `spares` holds each bank's unused spare rows by index, `patrol` each bank's next row: 0 to 511 the
visible rows, 512 + j spare j; `marked` and `corrected` name a row by its number, spare j of bank k as 4,096 + 8k + j. -/
structure Core where
  x        : Tab Word := []
  a        : Tab Addr := []
  w        : Tab Row := []
  acc      : Tab Row := []
  spad     : Tab Row := []
  sem      : Tab Nat := []
  hoops    : Tab Hoop := []
  arr      : Tab Nat := []
  pc       : Nat := 0
  program  : Nat := 0
  running  : Bool := false
  ended    : Bool := false
  fault    : Nat := 0
  semSat   : Bool := false
  intSat   : Bool := false
  beats    : Nat := 0
  xfer     : Option (Nat × Nat) := none
  gather   : List SlotOp := []
  queue    : List (List SlotOp) := []
  cause    : Option Nat := none
  ending   : Bool := false
  claimWait : Nat := 0
  claimVal : Option Word := none
  issued   : List Nat := []
  late     : Bool := false
  flight   : List Flight := []
  banks    : List BankUse := []
  mac      : Option Mac := none
  macRes   : Option (Nat × Nat × Nat) := none
  strms    : Tab Strm := []
  spares   : Tab (List Nat) := []
  ce       : Nat := 0
  ue       : Nat := 0
  marked   : List Nat := []
  corrected : Tab Nat := []
  dirty    : List Nat := []
  patrol   : Tab Nat := []
deriving DecidableEq, Repr

/-- What a save slot holds: the sixteen cores and the bay state of one logical bay, and the withdrawal counter it was sealed under
and its tag (05 R137, 06 R200). -/
structure SaveRec where
  cores  : Tab Core := []
  claims : Tab Claim := []
  hq     : Tab (List (BitVec 16)) := []
  rr     : Nat := 0
  folds  : List Fold := []
  sealedCtr : Option Nat := none
  loss   : Bool := false
  tag    : BitVec 128 := 0
deriving DecidableEq, Repr

/-- A fetch in flight at a controller and the requests merged into it, with the data and status it was accepted with (01 R29-R31).
`closed`: a write to the same bytes has been accepted since. `ep`: the rule epoch of its first request (06 R194). -/
structure Fetch where
  addr : Nat
  len  : Nat
  tags : List Nat
  data : List Byte
  status : Nat
  closed : Bool
  ep   : Nat
deriving DecidableEq, Repr

/-- A request waiting for row slots (10 R305-R308): class, dry time, and bay, core and tick by which requests of one class are ordered;
rule epoch (06 R194). Tags of 2^32 and above are of requests that the part's own engines sent, below that of PKG_MEM_ACCESS. -/
structure Waiting where
  tag   : Nat
  write : Bool
  addr  : Nat
  len   : Nat
  cls   : MemClass
  dry   : Nat
  bay   : Nat
  core  : Nat
  tick  : Nat
  ep    : Nat
  slots : Nat
deriving DecidableEq, Repr

/-- One memory controller (01, 10, 16). `recent` holds whether each of the last three class slots went to FCFS. -/
structure MemCtl where
  fetches : List Fetch := []
  queue   : List Waiting := []
  writing : List Waiting := []
  recent  : List Bool := []
  granule : Nat := 0
  pass    : Nat := 0
deriving DecidableEq, Repr

/-- A live sequence's descriptor (13 R363-R365). -/
structure Seq where
  pdk     : Nat
  maxlen  : Nat
  length  : Nat
  ns      : Nat
  tpages  : List Nat
  created : Nat
deriving DecidableEq, Repr

/-- State of a page-table entry (13 R366). -/
inductive PteSt where
  | absent | resident | loft | manger
deriving DecidableEq, Repr

/-- A page-table entry (13 R366). `slot` is the Manger slot of an open page in the Manger. -/
structure Pte where
  st      : PteSt := .absent
  pin     : Bool := false
  grant   : Nat := 0
  loc     : Nat := 0
  slot    : Nat := 0
  version : Nat := 0
deriving DecidableEq, Repr

/-- What a pool page frame serves (13 R371-R376, R382). -/
inductive FrameUse where
  | page | table | nodes | zeroing
deriving DecidableEq, Repr

/-- A pool page frame in use (13 R371-R376). -/
structure PFrame where
  pdk     : Nat
  use     : FrameUse
  lastUse : Nat
deriving DecidableEq, Repr

/-- A prefix node (13 R382). -/
structure Node where
  pdk     : Nat
  version : Nat
  ns      : Nat
  parent  : Option Nat
  page    : Nat
  ids     : List (BitVec 32)
  frame   : Nat
  created : Nat
deriving DecidableEq, Repr

/-- Where a Yard operation stands (13 R379, R380, R391): not started, waiting for a page from the Loft, a RELEASE waiting for attention
macros, or done. -/
inductive YOpSt where
  | queued | loft | release | done
deriving DecidableEq, Repr

/-- A Yard operation accepted at issue (13 R368-R370, R381). `todo` are the pages it still has to bring back, as descriptor index and
page, with `frames` drawn for them and for what it opens; `got` counts pages brought back; `out` the bytes it writes from ROW. -/
structure YOp where
  pdk    : Nat
  bay    : Nat
  op     : YardOp
  seq    : Nat
  a0     : Nat
  a1     : Nat
  row    : Nat
  n      : Nat
  data   : List Byte
  st     : YOpSt := .queued
  todo   : List (Nat × Nat) := []
  frames : List Nat := []
  got    : Nat := 0
  status : Nat := 0
  result : Nat := 0
  out    : List Byte := []
deriving DecidableEq, Repr

/-- A Loft slot being read (13 R391): the page, the frame drawn for it, and who asked: a Yard operation, or the attention macro of a
core. `dead`: its paddock's keys are gone (06 R203). -/
structure LoftFetch where
  pdk   : Nat
  seq   : Nat
  page  : Nat
  frame : Option Nat
  op    : Option Nat
  core  : Nat
  dead  : Bool
  ep    : Nat
deriving DecidableEq, Repr

/-- Pages dropped while an attention macro that named their sequence is in flight (13 R380): the sequence's handle, the entries, and the
RELEASE that waits. -/
structure Deferred where
  pdk     : Nat
  seq     : Nat
  ptes    : Tab Pte
  release : Option Nat
deriving DecidableEq, Repr

/-- The Yard (13). `gens` is keyed by paddock × 65,536 + descriptor index, `ptes` by descriptor index × 2^20 + page. `slots` holds the
paddock of each Manger slot in use, 64 or more while it is being zeroed; `manger` the slots' bytes, by slot × page size + byte. -/
structure Yard where
  seqs    : Tab Seq := []
  gens    : Tab Nat := []
  ptes    : Tab Pte := []
  frames  : Tab PFrame := []
  slots   : Tab Nat := []
  manger  : List Host.Cell := []
  nodes   : Tab Node := []
  nodePages : Tab (List Nat) := []
  ops     : Tab YOp := []
  nextOp  : Nat := 0
  fetches : Tab LoftFetch := []
  deferred : List Deferred := []
deriving DecidableEq, Repr

/-- One frame of an armed graph (14 R405-R417): number, rows submitted, stamp of submission, bands done per node, engines that took
them, whether it is a key frame, its status, whether it is to be recorded without further processing, position of its first token,
tokens emitted, timestamp of its last write. -/
structure GFrame where
  f       : Nat
  rows    : Nat
  order   : Nat
  bands   : Tab Nat := []
  engines : List Nat := []
  key     : Bool := false
  status  : Nat := 0
  closed  : Bool := false
  dropped : Bool := false
  first   : Option Nat := none
  emitted : Nat := 0
  endTs   : Option Nat := none
deriving DecidableEq, Repr

/-- A frame graph's registers and progress (14 TMB_FG_*, R404-R416): `next` is the next frame's number, `frames` the submitted and
unrecorded frames in order, `pos` the next token's position, `refOk` whether the reference image is valid, `processed` frames processed
since arming, `sinceKey` since the last key frame, `patchPos` each patch's latest position. -/
structure GraphSt where
  en      : Bool := false
  posBase : Nat := 0
  refused : Bool := false
  done    : Nat := 0
  overrun : Bool := false
  next    : Nat := 0
  frames  : List GFrame := []
  pos     : Nat := 0
  refOk   : Bool := false
  processed : Nat := 0
  sinceKey : Nat := 0
  patchPos : Tab Nat := []
deriving DecidableEq, Repr

/-- A Tambour engine (14 R396, R409): its unit state, and the paddock whose lines its buffers and coefficients hold. -/
structure Engine where
  unit_   : UnitSt := .online
  lastPdk : Option Nat := none
deriving DecidableEq, Repr

/-- A kept edge signal or arrival count: paddock, ring, logical bay, position, counter, count (14 R410, 15 R435). -/
structure Kept where
  pdk  : Nat
  ring : Option Nat
  lbay : Nat
  pos  : Nat
  ctr  : Nat
  cnt  : Nat
deriving DecidableEq, Repr

/-- The Tambour engines (14): graphs by paddock × 16 + graph, engines, kept edge signals, and the count of submissions. -/
structure Tmb where
  graphs  : Tab GraphSt := []
  engines : Tab Engine := []
  signals : List Kept := []
  order   : Nat := 0
deriving DecidableEq, Repr

/-- Port modes (15 FAB_PORT). -/
inductive PortMode where
  | none | direct | switched | faulted
deriving DecidableEq, Repr

/-- A fabric port (15 R420-R428, FAB_PORT). -/
structure Port where
  unit_    : UnitSt := .offline
  up       : Bool := false
  mode     : PortMode := .none
  peer     : Nat := 0
  peerPort : Nat := 0
  drops    : Nat := 0
  fecUe    : Nat := 0
deriving DecidableEq, Repr

/-- Job-slot states (15 FAB_JOB_CFG.STATE), codes 0 to 2. -/
inductive JobSlotSt where
  | idle | active | retired
deriving DecidableEq, Repr

/-- A fabric job slot (15 R429-R431): `keyMask` the key registers written since the slot was last idle, `ctr` the frame counter,
`epoch` the rule change of its activation, `colls` the collectives posted. -/
structure FabJob where
  jobId   : Nat := 0
  nMembers : Nat := 0
  members : Tab (Nat × Nat) := []
  st      : JobSlotSt := .idle
  refused : Bool := false
  keyMask : Nat := 0
  key     : Tab Word := []
  ctr     : Nat := 0
  epoch   : Nat := 0
  colls   : Nat := 0
deriving DecidableEq, Repr

/-- An eyelet (15 FAB_EYE_CFG, FAB_EYE_BASE); `shut` is the epoch of its latest close (15 R442). -/
structure Eyelet where
  en      : Bool := false
  cfg     : Nat := 0
  base    : Nat := 0
  refused : Bool := false
  shut    : Nat := 0
deriving DecidableEq, Repr

/-- A post queue's binding (15 FAB_POSTQ). -/
structure PostQ where
  en   : Bool := false
  hoop : Nat := 0
  pos  : Nat := 0
  lbay : Nat := 0
  ring : Nat := 0
deriving DecidableEq, Repr

/-- An open post (15 R436-R439, R441): its queue, its row's fields, the posting core's job, whether that job has ended, its transfer
number, a collective's number, bytes moved, its status once it has one, and data that wait for a core (15 R434, R441). -/
structure Post where
  pdk    : Nat
  q      : Nat
  op     : Nat
  job    : Nat
  cpl    : Nat
  lspace : Nat
  len    : Nat
  laddr  : Nat
  member : Nat
  rspace : Nat
  raddr  : Nat
  tag    : Nat
  ring   : Nat
  lbay   : Nat
  pos    : Nat
  gone   : Bool := false
  xfer   : Nat := 0
  num    : Nat := 0
  moved  : Nat := 0
  status : Option Nat := none
  endTs  : Nat := 0
  result : Option (List Byte) := none
deriving DecidableEq, Repr

/-- A frame sent and not acknowledged (15 R440): type, header, unprotected payload. -/
structure SentFrame where
  ty      : Nat
  hdr     : FrameHdr
  payload : List Byte
deriving DecidableEq, Repr

/-- A flow in both directions (15 R440): next SEQ to send and to accept, frames not acknowledged, resends of the oldest, ports moved on,
and whether the receiver answered NOT_READY (15 R434). -/
structure Flow where
  nextSend : Nat := 1
  nextRecv : Nat := 1
  unacked  : List SentFrame := []
  resends  : Nat := 0
  shift    : Nat := 0
  notReady : Bool := false
deriving DecidableEq, Repr

/-- A PUT that a receiver has accepted and that is not complete (15 R433, R442): its sender, the eyelet and its settings, the extent,
the epoch of acceptance and the bytes written. -/
structure RxXfer where
  pdk    : Nat
  job    : Nat
  rank   : Nat
  xfer   : Nat
  eye    : Nat
  cfg    : Nat
  raddr  : Nat
  len    : Nat
  epoch  : Nat
  got    : Nat
deriving DecidableEq, Repr

/-- A collective at rank 0 of a job slot (15 R441): its number, kind and length as first posted, each rank's records, the ranks whose
records are whole, and whether two members differ. -/
structure Coll where
  pdk     : Nat
  job     : Nat
  num     : Nat
  kind    : Nat
  len     : Nat
  recs    : Tab (List Byte) := []
  whole   : List Nat := []
  bad     : Bool := false
deriving DecidableEq, Repr

/-- A RETIRE frame not acknowledged (15 R431): paddock, slot, rank, its job, header and protected payload, and how often it was sent
again. -/
structure Closing where
  pdk     : Nat
  job     : Nat
  rank    : Nat
  hdr     : FrameHdr
  payload : List Byte
  again   : Nat
deriving DecidableEq, Repr

/-- The fabric (15): ports; job slots by paddock × 16 + slot; eyelets by paddock × 4,096 + eyelet; post queues by paddock × 16 + queue;
flows by (paddock × 16 + slot) × 64 + rank; kept arrival increments; the next transfer number. -/
structure Fab where
  ports   : Tab Port := []
  jobs    : Tab FabJob := []
  eyes    : Tab Eyelet := []
  postqs  : Tab PostQ := []
  posts   : List Post := []
  flows   : Tab Flow := []
  rx      : List RxXfer := []
  colls   : List Coll := []
  kept    : List Kept := []
  nextXfer : Nat := 0
  closing : List Closing := []
deriving DecidableEq, Repr

/-- An error-log record (16 R453). -/
structure LogRec where
  seq      : Nat
  boot     : Nat
  ts       : Nat
  kind     : Nat
  index    : Nat
  status   : Nat
  severity : Nat
  event    : Nat
  paddock  : Nat
  detail   : List Nat
deriving DecidableEq, Repr

/-- A nonce issued on a transport (16 R447). -/
structure Nonce where
  value  : BitVec 64
  issued : Nat
  used   : Bool
deriving DecidableEq, Repr

/-- A SELFTEST or CALIBRATE request still running: transport, bays named, bays not yet finished, results (16 R455-R458). -/
structure TestReq where
  tr      : Transport
  calib   : Bool
  left    : List Nat
  results : Tab Nat
deriving DecidableEq, Repr

/-- Phases of a PLDM Type 5 update (16 R466-R468). -/
inductive FwPh where
  | idle | learn | ready | download | verify | apply
deriving DecidableEq, Repr

/-- Firmware update and banks (16 R466-R468): per component, the active bank's version, and the other bank's state. -/
structure Fw where
  ph       : FwPh := .idle
  agent    : Option Nat := none
  comp     : Nat := 0
  size     : Nat := 0
  buf      : List Byte := []
  spare    : Tab (List Byte) := []
  spareOk  : Tab Bool := []
  due      : Tab Bool := []
  active   : Tab (List Byte) := []
  minSec   : Nat := 0
deriving DecidableEq, Repr

/-- The Myirari controller (16). -/
structure Mgt where
  eid       : Byte := 0
  receiver  : Option Byte := none
  events    : List LogRec := []
  mboxLen   : Nat := 0
  mboxBusy  : Bool := false
  mboxDone  : Bool := false
  mboxRlen  : Nat := 0
  mboxBuf   : Tab Byte := []
  nonces    : Tab Nonce := []
  keys      : Tab (List Byte) := []
  log       : List LogRec := []
  logSeq    : Nat := 1
  boot      : Nat := 0
  restart   : Bool := false
  watchdog  : Bool := false
  timer     : Nat := 0
  osc       : Bool := true
  testOn    : Bool := false
  sensors   : Tab Nat := []
  view      : Tab UnitSt := []
  diff      : Tab Nat := []
  tests     : List TestReq := []
  fw        : Fw := {}
deriving DecidableEq, Repr

/-- Package-memory and unit health (16 R460-R463). -/
structure Ras where
  event     : Word := 0
  stackSt   : Tab UnitSt := []
  coreSt    : Tab UnitSt := []
  poison    : List Nat := []
  dead      : List Nat := []
  pending   : List Nat := []
  badRows   : List Nat := []
  rowHits   : Tab (List Nat) := []
  poisonRow : Tab Nat := []
  rowStack  : Tab Nat := []
  repairs   : List (Nat × Nat × Nat) := []
deriving DecidableEq, Repr

/-- Why a command stops as a fault of the model. No command of this model raises one; the type is kept for addresses the spec says do
not exist, for which the spec always names a status code (01 R28). Safe. -/
inductive Fault where
  /-- An address outside the device for which no rule names a status. Raised by no command; safe. -/
  | noSuchAddress
deriving DecidableEq, Repr

/-- Why a command is refused. -/
inductive Refusal where
  /-- The command has no meaning yet; raised only by an arm of `exec`. Safe. -/
  | notModelled (mnemonic : String)
  /-- The bundle is an undefined encoding, which the loader refuses and no program holds (07 R210). Raised by the slot operations
  and the macro bundles; safe. -/
  | undefinedEncoding
deriving DecidableEq, Repr

/-- The whole device. `pending` is the queue of waiting commands, first in, first out. -/
structure State where
  pending : List Instr := []
  out     : List Out := []
  dev     : Dev := {}
  hif     : Hif := {}
  sec     : Sec := {}
  ldr     : Ldr := {}
  plat    : Option Platform := none
  own     : List OwnRange := []
  pdks    : Tab Pdk := []
  rings   : Tab Ring := []
  sch     : Sch := {}
  bays    : Tab Bay := []
  cores   : Tab Core := []
  saves   : Tab SaveRec := []
  semFly  : List SemFly := []
  hqFly   : List HqFly := []
  mem     : List Host.Cell := []
  mcs     : Tab MemCtl := []
  memTag  : Nat := 0
  yard    : Yard := {}
  tmb     : Tmb := {}
  fab     : Fab := {}
  mgt     : Mgt := {}
  ras     : Ras := {}
  free    : Nat := 0
deriving DecidableEq, Repr

/-- The machine right after a cold reset: OFF, every field at the value beside its declaration (03 R76, logs 1 and 2). -/
def State.reset : State := {}

end Sys2Proof.Machine
end

