-- ==== Sys2Proof/Machine/Tab.lean ====
section
/-! DEFINITION. Tables and package memory as sorted lists of pairs: reading one entry, writing one entry, and the byte order of
multi-byte values (00 R7). -/

namespace Sys2Proof.Machine

/-- The entry of a table at `k`, `d` where none is listed. -/
def tget {α : Type} (d : α) : Tab α → Nat → α
  | [], _ => d
  | (k', v) :: t, k => if k = k' then v else tget d t k

/-- The table with `v` at `k`, in rising order of keys. -/
def tset {α : Type} : Tab α → Nat → α → Tab α
  | [], k, v => [(k, v)]
  | (k', v') :: t, k, v =>
    if k < k' then (k, v) :: (k', v') :: t
    else if k = k' then (k, v) :: t
    else (k', v') :: tset t k v

/-- The table with `f` applied at `k`. -/
def tmod {α : Type} (d : α) (t : Tab α) (k : Nat) (f : α → α) : Tab α := tset t k (f (tget d t k))

/-- Whether an entry is listed at `k`. -/
def thas {α : Type} : Tab α → Nat → Bool
  | [], _ => false
  | (k', _) :: t, k => k = k' || thas t k

/-- The table without the entry at `k`. -/
def tdel {α : Type} (t : Tab α) (k : Nat) : Tab α := t.filter (fun e => e.1 != k)

/-- The entry at `k`, if one is listed. -/
def tfind {α : Type} : Tab α → Nat → Option α
  | [], _ => none
  | (k', v) :: t, k => if k = k' then some v else tfind t k

/-- What a byte of package memory reads as (log 4, DEDUCED: an unlisted byte reads zero, as the zeroing of 03 R70 step 7 leaves it). -/
def readByte (m : List Host.Cell) (a : Nat) : Byte := tget 0 m a

/-- Package memory with one byte written, in canonical form: rising addresses, no listed zero. -/
def writeByte (m : List Host.Cell) (a : Nat) (v : Byte) : List Host.Cell :=
  let m' := tdel m a
  if v = 0 then m' else tset m' a v

/-- `n` bytes from `a` upwards. -/
def readBytes (m : List Host.Cell) (a : Nat) : Nat → List Byte
  | 0 => []
  | n + 1 => readByte m a :: readBytes m (a + 1) n

/-- The bytes of a list written from `a` upwards. -/
def writeBytes (m : List Host.Cell) (a : Nat) : List Byte → List Host.Cell
  | [] => m
  | b :: bs => writeBytes (writeByte m a b) (a + 1) bs

/-- Every byte from `lo` up to but not including `hi` zeroed. -/
def zeroRange (m : List Host.Cell) (lo hi : Nat) : List Host.Cell := m.filter (fun c => c.1 < lo || hi ≤ c.1)

/-- The canonical form of a byte memory: addresses strictly rising and no listed zero. -/
def Memory.wf : List Host.Cell → Bool
  | [] => true
  | [c] => c.2 != 0
  | c :: d :: t => c.2 != 0 && decide (c.1 < d.1) && Memory.wf (d :: t)

/-- A little-endian number of `n` bytes at `a` (00 R7). -/
def readNat (m : List Host.Cell) (a n : Nat) : Nat := leNat (readBytes m a n)

/-- A row from its 512 bytes. -/
def rowOf (bs : List Byte) : Row := BitVec.ofNat 4096 (leNat bs)

/-- The 512 bytes of a row. -/
def rowBytes (r : Row) : List Byte := leBytes 512 r.toNat

/-- The number in bytes `off` to `off + n - 1` of a list of bytes, little-endian; bytes past the end read zero. -/
def fieldAt (bs : List Byte) (off n : Nat) : Nat := leNat ((bs.drop off).take n)

/-- Whether bytes `off` to `off + n - 1` are all zero. -/
def zeroAt (bs : List Byte) (off n : Nat) : Bool := ((bs.drop off).take n).all (· == 0)

end Sys2Proof.Machine
end

