-- ==== Sys2Proof/Machine/Crypto.lean ====
section
/-! DEFINITION. The published algorithms that the spec names, computed as their standards define them (log 8, PRESUMED): SHA-384 (04 R115), ECDSA on
P-384 (04 R114, R116; 16 R447), AES-256-GCM (15 R424) and SipHash-2-4 (13 R384). -/

namespace Sys2Proof.Machine.Crypto

/-- The number that a list of bytes spells, the first byte the most significant. -/
def beNat (bs : List Byte) : Nat := bs.foldl (fun a b => a * 256 + b.toNat) 0

/-- The `n` bytes of a number, the most significant first. -/
def beBytes (n v : Nat) : List Byte := (leBytes n v).reverse

/-- Pieces of `k` bytes. -/
def chunks (k : Nat) (bs : List Byte) : List (List Byte) := (List.range (ceilDiv bs.length k)).map (fun i => (bs.drop (k * i)).take k)

/-! ### SHA-384 (FIPS 180-4) -/

/-- The primes below 410, which are the first 80, ascending. -/
def primes80 : List Nat := ((List.range 408).map (· + 2)).filter (fun n => (List.range 19).all (fun d => n < (d + 2) * (d + 2) || n % (d + 2) ≠ 0))

/-- The largest number of `b` bits whose `k`-th power is at most `n`. -/
def rootBits (k n : Nat) : Nat → Nat
  | 0 => 0
  | b + 1 =>
    -- the root of n with b bits dropped, then one bit more
    let r := 2 * rootBits k (n / 2 ^ k) b
    if (r + 1) ^ k ≤ n then r + 1 else r

/-- The first 64 fractional bits of the `k`-th root of a prime, whose whole part has at most five bits. -/
def rootFrac (k p : Nat) : Word := BitVec.ofNat 64 (rootBits k (p * 2 ^ (64 * k)) 69)

/-- Round constants: from the cube roots of the first 80 primes. -/
def shaK : List Word := primes80.map (rootFrac 3)

/-- The working variables as the two sequences that the standard's a and e run through: the last four of each, the newest first. The initial
ones are from the square roots of the ninth to the sixteenth prime. -/
def shaIv : List (Word × Word) :=
  let w (i : Nat) : Word := rootFrac 2 (primes80.getD (8 + i) 0)
  (List.range 4).map (fun i => (w i, w (i + 4)))

/-- A word with its rotations by some distances added bit by bit. -/
def rotSum (w : Word) (ds : List Nat) : Word := ds.foldl (fun t d => t ^^^ w.rotateRight d) 0

/-- The words of a block, the newest first, and `n` more. -/
def shaWords : Nat → List Word → List Word
  | 0, ws => ws
  | n + 1, ws =>
    let back (k : Nat) : Word := ws.getD (k - 1) 0
    let low := rotSum (back 15) [1, 8] ^^^ back 15 >>> 7
    let high := rotSum (back 2) [19, 61] ^^^ back 2 >>> 6
    shaWords n ((back 16 + back 7 + low + high) :: ws)

/-- One step of both sequences with the round constant and the word of the round added. -/
def shaStep (v : List (Word × Word)) (kw : Word) : List (Word × Word) :=
  let (a, e) := v.getD 0 (0, 0)
  let (b, f) := v.getD 1 (0, 0)
  let (c, g) := v.getD 2 (0, 0)
  let (d, h) := v.getD 3 (0, 0)
  let choice := g ^^^ (e &&& (f ^^^ g))
  let most := (a &&& b) ||| (c &&& (a ||| b))
  let t := kw + h + choice + rotSum e [14, 18, 41]
  (t + most + rotSum a [28, 34, 39], d + t) :: v.take 3

/-- One block of 128 bytes. -/
def shaBlock (v : List (Word × Word)) (b : List Byte) : List (Word × Word) :=
  let ws := (shaWords 64 ((chunks 8 b).reverse.map (fun c => BitVec.ofNat 64 (beNat c)))).reverse
  List.zipWith (fun x y => (x.1 + y.1, x.2 + y.2)) v ((List.zipWith (· + ·) shaK ws).foldl shaStep v)

/-- The message padded to whole blocks. -/
def shaPad (m : List Byte) : List Byte :=
  m ++ [0x80] ++ List.replicate ((128 - (m.length + 17) % 128) % 128) 0 ++ beBytes 16 (8 * m.length)

/-- The 48 bytes of the digest, in the order of the standard. -/
def sha384Bytes (m : List Byte) : List Byte :=
  let v := (chunks 128 (shaPad m)).foldl shaBlock shaIv
  ((v.map (·.1) ++ v.map (·.2)).take 6).flatMap (fun w => beBytes 8 w.toNat)

/-- SHA-384 as a value whose bytes, the least significant first, are the digest's bytes in their order (00 R7). -/
def sha384 (m : List Byte) : BitVec 384 := BitVec.ofNat 384 (leNat (sha384Bytes m))

/-! ### ECDSA on P-384 (FIPS 186-5) -/

/-- The field's prime. -/
def p384 : Nat := 2 ^ 384 - 2 ^ 128 - 2 ^ 96 + 2 ^ 32 - 1
/-- The group's order. -/
def n384 : Nat := 0xffffffffffffffffffffffffffffffffffffffffffffffffc7634d81f4372ddf581a0db248b0a77aecec196accc52973
/-- Coefficient b of the curve y² = x³ − 3x + b. -/
def b384 : Nat := 0xb3312fa7e23ee7e4988e056be3f82d19181d9c6efe8141120314088f5013875ac656398d8a2ed19d2a85c8edd3ec2aef
/-- The base point. -/
def g384 : Nat × Nat :=
  (0xaa87ca22be8b05378eb1c71ef320ad746e1d3b628ba79b9859f741e082542a385502f25dbf55296c3a545e3872760ab7,
   0x3617de4a96262c6f5d9e98bf9292dc29f8f41dbd289a147ce9da3113b5f0b8c00a60b1ce1d7e819d7a431d7c90ea0e5f)

/-- `b ^ e` modulo `m`, over `k` bits of `e` from bit `k - 1` down. -/
def powMod (m b e : Nat) : Nat → Nat
  | 0 => 1 % m
  | k + 1 =>
    let r := powMod m b (e / 2) k
    if e % 2 = 1 then r * r % m * b % m else r * r % m

/-- The inverse modulo a prime of at most 384 bits. -/
def invMod (m a : Nat) : Nat := powMod m a (m - 2) 384

/-- The sum of two points of the curve; `none` is the point at infinity. -/
def addPt : Option (Nat × Nat) → Option (Nat × Nat) → Option (Nat × Nat)
  | none, q => q
  | p, none => p
  | some (x1, y1), some (x2, y2) =>
    if x1 = x2 && (y1 + y2) % p384 = 0 then none
    else
      let l := if x1 = x2 then (3 * x1 * x1 + p384 - 3) * invMod p384 (2 * y1) % p384
        else (y2 + p384 - y1) * invMod p384 (x2 + p384 - x1) % p384
      let x := (l * l + 2 * p384 - x1 - x2) % p384
      some (x, (l * (x1 + p384 - x) + p384 - y1) % p384)

/-- `k` times a point, over the low `n` bits of `k`. -/
def mulPt (q : Option (Nat × Nat)) (k : Nat) : Nat → Option (Nat × Nat)
  | 0 => none
  | n + 1 =>
    let r := mulPt q (k / 2) n
    let r2 := addPt r r
    if k % 2 = 1 then addPt r2 q else r2

/-- Whether a signature, r then s, verifies over a message under a public key, X then Y, each a 48-byte little-endian integer
(04 R114). -/
def ecdsaVerify (key sig msg : List Byte) : Bool :=
  let x := fieldAt key 0 48
  let y := fieldAt key 48 48
  let r := fieldAt sig 0 48
  let s := fieldAt sig 48 48
  key.length = 96 && sig.length = 96 && x < p384 && y < p384 && (y * y) % p384 = (x * x % p384 * x + (p384 - 3) * x + b384) % p384
    && 1 ≤ r && r < n384 && 1 ≤ s && s < n384 &&
    let w := invMod n384 s
    let e := beNat (sha384Bytes msg)
    match addPt (mulPt (some g384) (e * w % n384) 384) (mulPt (some (x, y)) (r * w % n384) 384) with
    | some q => q.1 % n384 = r
    | none => false

/-! ### AES-256 (FIPS 197) and GCM (NIST SP 800-38D) -/

/-- A byte times x in the field of AES. -/
def xtime (a : Byte) : Byte := if bitAt a.toNat 7 then (a <<< 1) ^^^ 0x1B else a <<< 1

/-- The product of two bytes in the field of AES, over the low `n` bits of the second. -/
def mulByte (a b : Byte) : Nat → Byte
  | 0 => 0
  | n + 1 => (if bitAt b.toNat n then (List.range n).foldl (fun x _ => xtime x) a else 0) ^^^ mulByte a b n

/-- The S-box: the inverse in the field, then the affine map. -/
def sbox (a : Byte) : Byte :=
  let sq (x : Byte) : Byte := mulByte x x 8
  let a2 := sq a
  let a3 := mulByte a2 a 8
  let a12 := sq (sq a3)
  let a15 := mulByte a12 a3 8
  let a240 := sq (sq (sq (sq a15)))
  let i := mulByte (mulByte a240 a12 8) a2 8
  i ^^^ i.rotateLeft 1 ^^^ i.rotateLeft 2 ^^^ i.rotateLeft 3 ^^^ i.rotateLeft 4 ^^^ 0x63

/-- Two lists of bytes added. -/
def xorBytes (a b : List Byte) : List Byte := (a.zip b).map (fun e => e.1 ^^^ e.2)

/-- The key schedule of AES-256, extended by `n` words of four bytes. -/
def aesKeys : Nat → List (List Byte) → List (List Byte)
  | 0, w => w
  | n + 1, w =>
    let i := w.length
    let t := w.getD (i - 1) []
    let t := if i % 8 = 0 then
        xorBytes ((t.drop 1 ++ t.take 1).map sbox) [(List.range (i / 8 - 1)).foldl (fun x _ => xtime x) 1, 0, 0, 0]
      else if i % 8 = 4 then t.map sbox else t
    aesKeys n (w ++ [xorBytes (w.getD (i - 8) []) t])

/-- The sixteen bytes with their rows shifted. -/
def shiftRows (b : List Byte) : List Byte := (List.range 16).map (fun i => b.getD ((i + 4 * (i % 4)) % 16) 0)

/-- One column mixed. -/
def mixColumn (c : List Byte) : List Byte :=
  (List.range 4).map (fun i => xtime (c.getD i 0) ^^^ (xtime (c.getD ((i + 1) % 4) 0) ^^^ c.getD ((i + 1) % 4) 0)
    ^^^ c.getD ((i + 2) % 4) 0 ^^^ c.getD ((i + 3) % 4) 0)

/-- A block of 16 bytes encrypted under a key schedule of 60 words. -/
def aesBlock (ks : List (List Byte)) (b : List Byte) : List Byte :=
  let rk (r : Nat) : List Byte := ((ks.drop (4 * r)).take 4).flatten
  let sub (x : List Byte) : List Byte := shiftRows (x.map sbox)
  let b := (List.range 13).foldl (fun x r => xorBytes (((chunks 4 (sub x)).map mixColumn).flatten) (rk (r + 1))) (xorBytes b (rk 0))
  xorBytes (sub b) (rk 14)

/-- The key schedule of a 32-byte key. -/
def aesSchedule (key : List Byte) : List (List Byte) := aesKeys 52 (chunks 4 key)

/-- The product of GHASH, over bit `127 - n` of the first factor and those after it. -/
def ghashMul (x : Nat) : Nat → Nat → Nat → Nat
  | 0, _, z => z
  | n + 1, v, z => ghashMul x n (if v % 2 = 1 then (v / 2) ^^^ (0xE1 * 2 ^ 120) else v / 2) (if bitAt x n then z ^^^ v else z)

/-- GHASH of data already in whole blocks. -/
def ghash (h : Nat) (d : List Byte) : Nat := (chunks 16 d).foldl (fun y b => ghashMul (y ^^^ beNat b) 128 h 0) 0

/-- Zero bytes up to a whole block. -/
def padBlock (d : List Byte) : List Byte := d ++ List.replicate ((16 - d.length % 16) % 16) 0

/-- The key stream from counter block `c` on applied to `d`. -/
def ctrCrypt (ks : List (List Byte)) (nonce : List Byte) (c : Nat) (d : List Byte) : List Byte :=
  ((chunks 16 d).zipIdx.map (fun e => xorBytes e.1 (aesBlock ks (nonce ++ beBytes 4 (c + e.2))))).flatten

/-- Encryption or decryption of a payload under a 32-byte key and a 12-byte nonce. -/
def gcmCrypt (key nonce d : List Byte) : List Byte := ctrCrypt (aesSchedule key) nonce 2 d

/-- The tag over additional data and the ciphertext of a plaintext payload. -/
def gcmTag (key nonce aad plain : List Byte) : List Byte :=
  let ks := aesSchedule key
  let ct := ctrCrypt ks nonce 2 plain
  let h := beNat (aesBlock ks (List.replicate 16 0))
  let s := ghash h (padBlock aad ++ padBlock ct ++ beBytes 8 (8 * aad.length) ++ beBytes 8 (8 * ct.length))
  xorBytes (beBytes 16 s) (aesBlock ks (nonce ++ beBytes 4 1))

/-! ### SipHash-2-4 (13 R384) -/

/-- One SipRound on the four words. -/
def sipRound (v : Word × Word × Word × Word) : Word × Word × Word × Word :=
  let (v0, v1, v2, v3) := v
  let v0 := v0 + v1
  let v1 := v1.rotateLeft 13 ^^^ v0
  let v0 := v0.rotateLeft 32
  let v2 := v2 + v3
  let v3 := v3.rotateLeft 16 ^^^ v2
  let v0 := v0 + v3
  let v3 := v3.rotateLeft 21 ^^^ v0
  let v2 := v2 + v1
  let v1 := v1.rotateLeft 17 ^^^ v2
  (v0, v1, v2.rotateLeft 32, v3)

/-- SipHash-2-4 under the keys k0 and k1. -/
def sipHash (k0 k1 : Word) (d : List Byte) : BitVec 64 :=
  let words := (List.range (d.length / 8 + 1)).map (fun i =>
    BitVec.ofNat 64 (fieldAt d (8 * i) 8 + (if i = d.length / 8 then d.length % 256 * 2 ^ 56 else 0)))
  let v := words.foldl (fun (v : Word × Word × Word × Word) m =>
    let w := sipRound (sipRound (v.1, v.2.1, v.2.2.1, v.2.2.2 ^^^ m))
    (w.1 ^^^ m, w.2))
    (k0 ^^^ 0x736f6d6570736575, k1 ^^^ 0x646f72616e646f6d, k0 ^^^ 0x6c7967656e657261, k1 ^^^ 0x7465646279746573)
  let w := sipRound (sipRound (sipRound (sipRound (v.1, v.2.1, v.2.2.1 ^^^ 0xff, v.2.2.2))))
  w.1 ^^^ w.2.1 ^^^ w.2.2.1 ^^^ w.2.2.2

end Sys2Proof.Machine.Crypto
end

