-- ==== Sys2Proof/Machine/Numerics.lean ====
section
/-! DEFINITION. Number formats and exact arithmetic: values as sign and dyadic magnitude, one rounding at the end (07 R217, R220,
R470; 08 R241-R243; 11 R320, R477). -/

namespace Sys2Proof.Machine

/-- A floating-point value before rounding: NaN, an infinity, or sign, significand and exponent of two. -/
inductive FV where
  | nan
  | inf (neg : Bool)
  | fin (neg : Bool) (m : Nat) (e : Int)
deriving DecidableEq, Repr

/-- A binary format: exponent and fraction widths, bias, whether it has infinities and NaNs as IEEE 754 does, and the largest finite
magnitude's encoding. -/
structure FFmt where
  eb   : Nat
  mb   : Nat
  bias : Int
  ieee : Bool
  top  : Nat
deriving DecidableEq, Repr

/-- IEEE 754 binary32. -/
def f32 : FFmt := { eb := 8, mb := 23, bias := 127, ieee := true, top := 0x7F7FFFFF }
/-- BF16. -/
def bf16 : FFmt := { eb := 8, mb := 7, bias := 127, ieee := true, top := 0x7F7F }
/-- FP8 E4M3: no infinity, largest 448, NaN 0x7F (07 R220). -/
def e4m3 : FFmt := { eb := 4, mb := 3, bias := 7, ieee := false, top := 0x7E }
/-- FP8 E5M2: largest finite 57,344. -/
def e5m2 : FFmt := { eb := 5, mb := 2, bias := 15, ieee := true, top := 0x7B }
/-- FP4 E2M1: no infinity and no NaN, largest 6 (08 R246). -/
def e2m1 : FFmt := { eb := 2, mb := 1, bias := 1, ieee := false, top := 0x7 }

/-- Width of a format in bits. -/
def FFmt.width (f : FFmt) : Nat := 1 + f.eb + f.mb

/-- Exponent of the least place of the subnormals. -/
def FFmt.qmin (f : FFmt) : Int := 1 - f.bias - (f.mb : Int)

/-- The canonical NaN of a format (07 R220): 0x7FC0_0000 in FP32, 0x7FC0 in BF16, 0x7F in the FP8 formats. -/
def FFmt.nanBits (f : FFmt) : Nat :=
  if f.width = 8 then 0x7F else (2 ^ f.eb - 1) * 2 ^ f.mb + 2 ^ (f.mb - 1)

/-- The value that a bit pattern of a format stands for. -/
def FFmt.decode (f : FFmt) (v : Nat) : FV :=
  let neg := bitAt v (f.eb + f.mb)
  let ex := bits v (f.eb + f.mb - 1) f.mb
  let fr := v % 2 ^ f.mb
  if f.ieee && ex = 2 ^ f.eb - 1 then (if fr = 0 then .inf neg else .nan)
  else if !f.ieee && f.eb = 4 && v % 128 = 127 then .nan
  else if ex = 0 then .fin neg fr f.qmin
  else .fin neg (2 ^ f.mb + fr) (f.qmin + (ex : Int) - 1)

/-- Division by a power of two with rounding to nearest, ties to even. -/
def rneShift (m sh : Nat) : Nat :=
  let q := m / 2 ^ sh
  let r := m % 2 ^ sh
  if sh = 0 then q
  else if 2 * r > 2 ^ sh || (2 * r = 2 ^ sh && q % 2 = 1) then q + 1 else q

/-- The exponent of the last kept place for a magnitude `m * 2^e` in a format. -/
def FFmt.quantum (f : FFmt) (m : Nat) (e : Int) : Int := max ((Nat.log2 m : Int) + e - (f.mb : Int)) f.qmin

/-- The bits of a rounded magnitude `k * 2^q`, as an unsigned encoding, not yet limited. -/
def FFmt.pack (f : FFmt) (k : Nat) (q : Int) : Nat := (q - f.qmin).toNat * 2 ^ f.mb + k

/-- The magnitude's encoding rounded to nearest even. -/
def FFmt.roundMag (f : FFmt) (m : Nat) (e : Int) : Nat :=
  let q := f.quantum m e
  let k := if q ≤ e then m * 2 ^ (e - q).toNat else rneShift m (q - e).toNat
  f.pack k q

/-- The magnitude's encoding rounded stochastically with 16 random bits (07 R470). -/
def FFmt.stochMag (f : FFmt) (m : Nat) (e : Int) (r : Nat) : Nat :=
  let q := f.quantum m e
  if q ≤ e then f.pack (m * 2 ^ (e - q).toNat) q
  else
    let sh := (q - e).toNat
    let d := (m % 2 ^ sh) * 65536 / 2 ^ sh
    f.pack (m / 2 ^ sh + b2n (r < d)) q

/-- The sign placed on a magnitude's encoding. -/
def FFmt.signed (f : FFmt) (neg : Bool) (v : Nat) : Nat := b2n neg * 2 ^ (f.eb + f.mb) + v

/-- Rounding to nearest even; overflow gives infinity. For FP32 and BF16 arithmetic (07 R220). -/
def FFmt.round (f : FFmt) : FV → Nat
  | .nan => f.nanBits
  | .inf neg => f.signed neg ((2 ^ f.eb - 1) * 2 ^ f.mb)
  | .fin neg m e =>
    if m = 0 then f.signed neg 0
    else
      let v := f.roundMag m e
      f.signed neg (if v > f.top then (2 ^ f.eb - 1) * 2 ^ f.mb else v)

/-- Rounding to nearest even, or stochastically with the bits given, with saturation to the largest finite value and NaN to 0x7F: the
FP8 conversions of VCVT (07 R220, R470). E2M1 has no NaN: its encoding is free (08 R242; log 30, DESIGN CHOICE). -/
def FFmt.saturate (f : FFmt) (sr : Option Nat) : FV → Nat
  | .nan => if f.eb = 2 then Config.nanE2m1.toNat else f.nanBits
  | .inf neg => f.signed neg f.top
  | .fin neg m e =>
    if m = 0 then f.signed neg 0
    else
      let v := match sr with
        | none => f.roundMag m e
        | some r => f.stochMag m e r
      f.signed neg (min v f.top)

/-- BF16 by stochastic rounding; overflow gives infinity (07 R220, R470). -/
def FFmt.roundSr (f : FFmt) (r : Nat) : FV → Nat
  | .fin neg m e =>
    if m = 0 then f.signed neg 0
    else
      let v := f.stochMag m e r
      f.signed neg (if v > f.top then (2 ^ f.eb - 1) * 2 ^ f.mb else v)
  | v => f.round v

namespace FV

/-- Sign flipped. -/
def neg : FV → FV
  | .nan => .nan
  | .inf s => .inf (!s)
  | .fin s m e => .fin (!s) m e

/-- Magnitude. -/
def abs : FV → FV
  | .nan => .nan
  | .inf _ => .inf false
  | .fin _ m e => .fin false m e

/-- Signed significand. -/
def sig (s : Bool) (m : Nat) : Int := if s then -(m : Int) else (m : Int)

/-- Exact product. -/
def mul : FV → FV → FV
  | .nan, _ => .nan
  | _, .nan => .nan
  | .inf s, .inf t => .inf (s != t)
  | .inf s, .fin t m _ => if m = 0 then .nan else .inf (s != t)
  | .fin s m _, .inf t => if m = 0 then .nan else .inf (s != t)
  | .fin s m e, .fin t n d => .fin (s != t) (m * n) (e + d)

/-- Exact sum; a sum of opposite values is +0, of two negative zeros −0, as IEEE 754 rounds to nearest. -/
def add : FV → FV → FV
  | .nan, _ => .nan
  | _, .nan => .nan
  | .inf s, .inf t => if s = t then .inf s else .nan
  | .inf s, .fin _ _ _ => .inf s
  | .fin _ _ _, .inf t => .inf t
  | .fin s m e, .fin t n d =>
    let q := min e d
    let v := sig s m * 2 ^ (e - q).toNat + sig t n * 2 ^ (d - q).toNat
    if v = 0 then .fin (s && t) 0 q else .fin (v < 0) v.natAbs q

/-- Difference. -/
def sub (a b : FV) : FV := add a (neg b)

/-- `a < b` as numbers; NaN compares false. -/
def lt : FV → FV → Bool
  | .nan, _ => false
  | _, .nan => false
  | .inf s, .inf t => s && !t
  | .inf s, .fin _ _ _ => s
  | .fin _ _ _, .inf t => !t
  | .fin s m e, .fin t n d =>
    let q := min e d
    sig s m * 2 ^ (e - q).toNat < sig t n * 2 ^ (d - q).toNat

/-- Whether a zero is negative. -/
def negZero : FV → Bool
  | .fin s m _ => s && m = 0
  | _ => false

/-- The larger value, −0 below +0, NaN if either is NaN (07 R220, 11 R322). -/
def max (a b : FV) : FV :=
  if a = .nan || b = .nan then .nan
  else if lt a b || (!lt b a && negZero a) then b else a

/-- The smaller value, −0 below +0, NaN if either is NaN (07 R220, 11 R322). -/
def min (a b : FV) : FV :=
  if a = .nan || b = .nan then .nan
  else if lt b a || (!lt a b && negZero b) then b else a

/-- An integer as a value. -/
def ofInt (i : Int) : FV := .fin (i < 0) i.natAbs 0

/-- Rounded to the nearest integer, ties to even; `none` for NaN and `lim` with its sign for an infinity (07 R220). -/
def toInt (lim : Nat) : FV → Option Int
  | .nan => none
  | .inf s => some (sig s lim)
  | .fin s m e => some (sig s (if 0 ≤ e then m * 2 ^ e.toNat else rneShift m (-e).toNat))

end FV

/-- FP32 addition, one rounding. -/
def fadd (a b : BitVec 32) : BitVec 32 := BitVec.ofNat 32 (f32.round ((f32.decode a.toNat).add (f32.decode b.toNat)))
/-- FP32 subtraction, one rounding. -/
def fsub (a b : BitVec 32) : BitVec 32 := BitVec.ofNat 32 (f32.round ((f32.decode a.toNat).sub (f32.decode b.toNat)))
/-- FP32 multiplication, one rounding. -/
def fmul (a b : BitVec 32) : BitVec 32 := BitVec.ofNat 32 (f32.round ((f32.decode a.toNat).mul (f32.decode b.toNat)))
/-- FP32 fused multiply-add, one rounding. -/
def ffma (a b c : BitVec 32) : BitVec 32 :=
  BitVec.ofNat 32 (f32.round (((f32.decode a.toNat).mul (f32.decode b.toNat)).add (f32.decode c.toNat)))
/-- FP32 maximum (07 R220). -/
def fmax (a b : BitVec 32) : BitVec 32 := BitVec.ofNat 32 (f32.round ((f32.decode a.toNat).max (f32.decode b.toNat)))
/-- FP32 minimum (07 R220). -/
def fmin (a b : BitVec 32) : BitVec 32 := BitVec.ofNat 32 (f32.round ((f32.decode a.toNat).min (f32.decode b.toNat)))

/-- Integer square root by `fuel` steps of bisection between `lo` and `hi`. -/
def isqrtIn (n : Nat) : Nat → Nat → Nat → Nat
  | 0, lo, _ => lo
  | fuel + 1, lo, hi =>
    let mid := (lo + hi + 1) / 2
    if mid * mid ≤ n then isqrtIn n fuel mid hi else isqrtIn n fuel lo (mid - 1)

/-- Working precision of the built-in functions, in bits (log 31, DEDUCED). -/
def workBits : Nat := 320

/-- `2^(f / 2^k)` scaled by `2^workBits`, for the top `n` bits of the fraction taken one at a time; `root` is the running square root
of two. -/
def exp2Frac : Nat → Nat → Nat → Nat → Nat
  | 0, _, _, acc => acc
  | n + 1, f, root, acc =>
    let r := isqrtIn (root * 2 ^ workBits) (workBits + 3) 0 (2 ^ (workBits + 1))
    let acc' := if bitAt f n then acc * r / 2 ^ workBits else acc
    exp2Frac n f r acc'

/-- The built-in exp2 of an FP32 value, correctly rounded with the special values of 11 R325 (11 R477). The working precision exceeds
what any FP32 input needs (log 31, DEDUCED). -/
def fexp2 (x : BitVec 32) : BitVec 32 :=
  match f32.decode x.toNat with
  | .nan => BitVec.ofNat 32 f32.nanBits
  | .inf s => if s then 0 else BitVec.ofNat 32 0x7F800000
  | .fin s m e =>
    if m = 0 then BitVec.ofNat 32 0x3F800000
    else
      let v := FV.sig s m
      -- integer part and a 160-bit fraction, rounded toward minus infinity
      let n : Int := if 0 ≤ e then v * 2 ^ e.toNat else v / 2 ^ (-e).toNat
      if n > 200 then BitVec.ofNat 32 0x7F800000
      else if n < -200 then 0
      else
        let fr : Nat := if 0 ≤ e then 0 else ((v * 2 ^ 160 / 2 ^ (-e).toNat) - n * 2 ^ 160).toNat
        let k := exp2Frac 160 fr (2 * 2 ^ workBits) (2 ^ workBits)
        BitVec.ofNat 32 (f32.round (.fin false k (n - (workBits : Int))))

/-- Bits of log2 of `y / 2^workBits`, a number from 1 up to 2, by repeated squaring. -/
def log2Bits : Nat → Nat → Nat → Nat
  | 0, _, acc => acc
  | n + 1, y, acc =>
    let y2 := y * y / 2 ^ workBits
    if y2 ≥ 2 ^ (workBits + 1) then log2Bits n (y2 / 2) (2 * acc + 1) else log2Bits n y2 (2 * acc)

/-- The built-in log2 of an FP32 value, correctly rounded with the special values of 11 R325 (11 R477; log 31, DEDUCED). -/
def flog2 (x : BitVec 32) : BitVec 32 :=
  match f32.decode x.toNat with
  | .nan => BitVec.ofNat 32 f32.nanBits
  | .inf s => if s then BitVec.ofNat 32 f32.nanBits else BitVec.ofNat 32 0x7F800000
  | .fin s m e =>
    if m = 0 then BitVec.ofNat 32 0xFF800000
    else if s then BitVec.ofNat 32 f32.nanBits
    else
      let len := Nat.log2 m
      let n : Int := (len : Int) + e
      let fr := log2Bits 150 (m * 2 ^ workBits / 2 ^ len) 0
      let v : Int := n * 2 ^ 150 + (fr : Int)
      BitVec.ofNat 32 (f32.round (.fin (v < 0) v.natAbs (-150)))

/-- A pairwise tree over a list in ascending order: neighbours first, then neighbours of those (07 R220). -/
def pairUp {α : Type} (f : α → α → α) : List α → List α
  | a :: b :: t => f a b :: pairUp f t
  | t => t

/-- The pairwise tree's result, by `fuel` levels. -/
def treeFold {α : Type} (f : α → α → α) (d : α) : Nat → List α → α
  | 0, l => l.headD d
  | n + 1, l => if l.length ≤ 1 then l.headD d else treeFold f d n (pairUp f l)

/-- FP32 sum as a pairwise tree in ascending order (07 R220, 11 R328). -/
def treeSum (l : List (BitVec 32)) : BitVec 32 := treeFold fadd 0 l.length l

/-- A signed value of the low `w` bits. -/
def sext (w v : Nat) : Int := if bitAt v (w - 1) then (v % 2 ^ w : Int) - 2 ^ w else (v % 2 ^ w : Int)

/-- A signed integer limited to `w` bits. -/
def clampInt (w : Nat) (i : Int) : Int :=
  if i > 2 ^ (w - 1) - 1 then 2 ^ (w - 1) - 1 else if i < -(2 ^ (w - 1)) then -(2 ^ (w - 1)) else i

/-- The low `w` bits of a signed integer. -/
def unsignedOf (w : Nat) (i : Int) : Nat := (i % 2 ^ w).toNat

/-- The lanes of a row, `w` bits each, ascending. -/
def lanes (w : Nat) (r : Row) : List Nat := (List.range (4096 / w)).map (fun i => (r.toNat / 2 ^ (i * w)) % 2 ^ w)

/-- A number from lanes of `w` bits, ascending. -/
def packLanes (w : Nat) : List Nat → Nat
  | [] => 0
  | v :: t => v % 2 ^ w + 2 ^ w * packLanes w t

/-- A row from lanes of `w` bits. -/
def ofLanes (w : Nat) (l : List Nat) : Row := BitVec.ofNat 4096 (packLanes w l)

end Sys2Proof.Machine
end

