-- ==== Sys2Proof/Machine/Status.lean ====
section
/-! DEFINITION. The completion status codes (00 R16), and the codes of the fixed registers (03 R89). -/

namespace Sys2Proof.Machine.Status

/-- Completed as requested. -/
abbrev ok : Nat := 0x00
/-- A zero count or size; nothing done. -/
abbrev okZero : Nat := 0x01
/-- Shape or tile exceeds a capacity. -/
abbrev shapeIllegal : Nat := 0x10
/-- Address or size not aligned as required. -/
abbrev alignFault : Nat := 0x11
/-- Access leaves its allowed region. -/
abbrev accessSpan : Nat := 0x12
/-- Access starts outside any allowed region. -/
abbrev accessDenied : Nat := 0x13
/-- Two scratchpad accesses to one bank in one beat. -/
abbrev bankConflict : Nat := 0x14
/-- No page free and none spillable. -/
abbrev yardFull : Nat := 0x20
/-- Growth past a sequence's declared maximum. -/
abbrev seqRange : Nat := 0x21
/-- A Loft page failed authentication. -/
abbrev loftAuth : Nat := 0x22
/-- The random-bit generator is stopped. -/
abbrev entropyFault : Nat := 0x30
/-- Data arrived under a destroyed key. -/
abbrev keyRetired : Nat := 0x31
/-- The image needs a newer firmware or microcode. -/
abbrev versionUnsupported : Nat := 0x40
/-- The image is malformed or its signature fails. -/
abbrev imageInvalid : Nat := 0x41
/-- The image asks for more than its quota. -/
abbrev resourceShort : Nat := 0x42
/-- Work stopped by preemption; state saved. -/
abbrev preempted : Nat := 0x50
/-- Cores taken back by the operator. -/
abbrev resourceWithdrawn : Nat := 0x51
/-- Frame shorter than configured. -/
abbrev frameShort : Nat := 0x52
/-- Frame longer than configured. -/
abbrev frameLong : Nat := 0x53
/-- A memory row was mapped out during the work. -/
abbrev rowRetired : Nat := 0x60
/-- The unit doing the work was quarantined. -/
abbrev quarantined : Nat := 0x70
/-- Device fault not covered by another code. -/
abbrev internal : Nat := 0x7F

/-- The codes that the AX256 returns (00 R16). -/
def all : List Nat :=
  [ok, okZero, shapeIllegal, alignFault, accessSpan, accessDenied, bankConflict, yardFull, seqRange, loftAuth, entropyFault,
   keyRetired, versionUnsupported, imageInvalid, resourceShort, preempted, resourceWithdrawn, frameShort, frameLong, rowRetired,
   quarantined, internal]

/-- How software must read a code (00 R17): a code not listed is read as INTERNAL. -/
def read (code : Nat) : Nat := if all.contains code then code else internal

end Sys2Proof.Machine.Status
end

