-- ==== Sys2Proof/Machine/Ops.lean ====
section
/-! DEFINITION. The named operations over the state that the meanings share: reading and changing one part, sending a message, raising
an event, logging, epochs, the access checks of package memory, scrubbing and paddock state. -/

namespace Sys2Proof.Machine

/-- Whether a rule change of an epoch is acknowledged (06 R197). -/
def epochDone (ack e : Nat) : Bool := (ack + 2 ^ 32 - e % 2 ^ 32) % 2 ^ 32 < 2 ^ 31

/-- The three outcomes of a command. -/
abbrev Res := Host.Outcome State Fault Refusal

namespace State

/-- Paddock by index (number less one). -/
def pdk (s : State) (p : Nat) : Pdk := tget {} s.pdks p
/-- A paddock changed. -/
def modPdk (s : State) (p : Nat) (f : Pdk → Pdk) : State := { s with pdks := tmod {} s.pdks p f }
/-- Ring k of paddock p. -/
def ring (s : State) (p k : Nat) : Ring := tget {} s.rings (p * 256 + k)
/-- A ring changed. -/
def modRing (s : State) (p k : Nat) (f : Ring → Ring) : State := { s with rings := tmod {} s.rings (p * 256 + k) f }
/-- Bay b. -/
def bay (s : State) (b : Nat) : Bay := tget {} s.bays b
/-- A bay changed. -/
def modBay (s : State) (b : Nat) (f : Bay → Bay) : State := { s with bays := tmod {} s.bays b f }
/-- Core n. -/
def core (s : State) (n : Nat) : Core := tget {} s.cores n
/-- A core changed. -/
def modCore (s : State) (n : Nat) (f : Core → Core) : State := { s with cores := tmod {} s.cores n f }
/-- Function fn's configuration. -/
def fnCfg (s : State) (fn : Nat) : FnCfg := tget {} s.hif.fns fn
/-- A function's configuration changed. -/
def modFn (s : State) (fn : Nat) (f : FnCfg → FnCfg) : State := { s with hif := { s.hif with fns := tmod {} s.hif.fns fn f } }
/-- The TDI of paddock p. -/
def tdi (s : State) (p : Nat) : Tdi := tget {} s.sec.tdi p
/-- A TDI changed. -/
def modTdi (s : State) (p : Nat) (f : Tdi → Tdi) : State := { s with sec := { s.sec with tdi := tmod {} s.sec.tdi p f } }
/-- The loader registers of function fn. -/
def load (s : State) (fn : Nat) : LoadRegs := tget {} s.ldr.regs fn
/-- Loader registers changed. -/
def modLoad (s : State) (fn : Nat) (f : LoadRegs → LoadRegs) : State :=
  { s with ldr := { s.ldr with regs := tmod {} s.ldr.regs fn f } }
/-- Graph g of paddock p. -/
def graph (s : State) (p g : Nat) : GraphSt := tget {} s.tmb.graphs (p * 16 + g)
/-- A graph changed. -/
def modGraph (s : State) (p g : Nat) (f : GraphSt → GraphSt) : State :=
  { s with tmb := { s.tmb with graphs := tmod {} s.tmb.graphs (p * 16 + g) f } }
/-- Fabric job slot j of paddock p. -/
def fabJob (s : State) (p j : Nat) : FabJob := tget {} s.fab.jobs (p * 16 + j)
/-- A fabric job slot changed. -/
def modFabJob (s : State) (p j : Nat) (f : FabJob → FabJob) : State :=
  { s with fab := { s.fab with jobs := tmod {} s.fab.jobs (p * 16 + j) f } }
/-- Eyelet e of paddock p. -/
def eyelet (s : State) (p e : Nat) : Eyelet := tget {} s.fab.eyes (p * 4096 + e)
/-- An eyelet changed. -/
def modEyelet (s : State) (p e : Nat) (f : Eyelet → Eyelet) : State :=
  { s with fab := { s.fab with eyes := tmod {} s.fab.eyes (p * 4096 + e) f } }
/-- Fabric port pt. -/
def port (s : State) (pt : Nat) : Port := tget {} s.fab.ports pt
/-- A port changed. -/
def modPort (s : State) (pt : Nat) (f : Port → Port) : State :=
  { s with fab := { s.fab with ports := tmod {} s.fab.ports pt f } }
/-- Memory controller st. -/
def mc (s : State) (st : Nat) : MemCtl := tget {} s.mcs st
/-- A memory controller changed. -/
def modMc (s : State) (st : Nat) (f : MemCtl → MemCtl) : State := { s with mcs := tmod {} s.mcs st f }
/-- Tambour engine e. -/
def engine (s : State) (e : Nat) : Engine := tget {} s.tmb.engines e

/-! ### Messages and events -/

/-- A message sent (log 10, DESIGN CHOICE). -/
def send (s : State) (o : Out) : State := { s with out := s.out ++ [o] }

end State

/-- Whether a function is held from sending MSI-X messages (05 R472). -/
def FnCfg.msixHeld (f : FnCfg) : Bool := !f.msixEn || f.fnMask || !f.bme || f.d3

/-- Whether a vector is held (05 R472). A vector's Mask bit is 1 until it is written, as PCI Express has it (log 2, PRESUMED). -/
def FnCfg.vecHeld (f : FnCfg) (v : Nat) : Bool := f.msixHeld || tget true f.vecMask v

namespace State

/-- Requests that the part issues for a function travel on the bound stream with T = 1 while its TDI is in RUN (06 R189). -/
def ideOf (s : State) (fn : Nat) : Option Nat :=
  if fn ≠ 0 ∧ (s.tdi (fn - 1)).st = .run then (s.tdi (fn - 1)).stream else none

/-- A vector's pending bit set (05 R472). -/
def setPba (s : State) (fn v : Nat) : State := s.modFn fn (fun f => { f with pba := tset f.pba v true })

/-- An event on a vector: its message is sent, or its pending bit is set while the vector is held (05 R472). -/
def msix (s : State) (fn v : Nat) : State :=
  if (s.fnCfg fn).vecHeld v then s.setPba fn v
  else s.send (.msix fn v (s.ideOf fn))

/-- Vectors of a function whose pending bit is set and that are no longer held, ascending (05 R472). -/
def releasable (s : State) (fn : Nat) : List Nat :=
  ((s.fnCfg fn).pba.filter (fun e => e.2 && !(s.fnCfg fn).vecHeld e.1)).map (·.1)

/-- Whether a completion that its function keeps is to be written before a vector's message (05 R472). -/
def keepsCpl (s : State) (fn v : Nat) : Bool :=
  fn ≠ 0 && s.rings.any (fun e => e.1 / 256 = fn - 1 && e.2.vector = v && e.2.cpls.any (·.irq))

/-- One message for each pending vector that is no longer held, in ascending order; not before the completions that its function keeps for
it (05 R472). -/
def msixFlush (s : State) (fn : Nat) : State :=
  let vs := (s.releasable fn).filter (fun v => !s.keepsCpl fn v)
  let s := s.modFn fn (fun f => { f with pba := f.pba.filter (fun e => !vs.contains e.1) })
  vs.foldl (fun s v => s.send (.msix fn v (s.ideOf fn))) s

/-- An event bit of PWR_EVENT; vector 1 is sent when it goes from 0 to 1 (05 R157). -/
def pwrEv (s : State) (bit : Nat) : State :=
  if bitAt s.dev.pwrEvent.toNat bit then s
  else ({ s with dev := { s.dev with pwrEvent := s.dev.pwrEvent ||| BitVec.ofNat 64 (2 ^ bit) } } : State).msix 0 1

/-- An event bit of SCH_EVENT for paddock p; vector 2 is sent when it goes from 0 to 1 (05 R157, SCH_EVENT_PDK). -/
def schEv (s : State) (bit p : Nat) : State :=
  let s : State := { s with sch := { s.sch with eventPdk := s.sch.eventPdk ||| BitVec.ofNat 64 (2 ^ p) } }
  if bitAt s.sch.event.toNat bit then s
  else ({ s with sch := { s.sch with event := s.sch.event ||| BitVec.ofNat 64 (2 ^ bit) } } : State).msix 0 2

/-- An event bit of PDK_EVENT; vector 0 of the VF is sent when it goes from 0 to 1 (05 PDK_EVENT; log 12, DEDUCED). -/
def pdkEv (s : State) (p bit : Nat) : State :=
  if bitAt (s.pdk p).event.toNat bit then s
  else (s.modPdk p (fun d => { d with event := d.event ||| BitVec.ofNat 64 (2 ^ bit) })).msix (p + 1) 0

/-- An event bit of RAS_EVENT; vector 3 + bit is sent when it goes from 0 to 1 (16 R452, RAS_EVENT; log 12, DEDUCED). -/
def rasEv (s : State) (bit : Nat) : State :=
  if bitAt s.ras.event.toNat bit then s
  else ({ s with ras := { s.ras with event := s.ras.event ||| BitVec.ofNat 64 (2 ^ bit) } } : State).msix 0 (3 + bit)

end State

/-- The 64 bytes of an error-log record (16 R453). -/
def LogRec.bytes (r : LogRec) : List Byte :=
  leBytes 4 r.seq ++ leBytes 4 r.boot ++ leBytes 8 r.ts ++ leBytes 1 r.kind ++ leBytes 1 r.index ++ leBytes 1 r.status
    ++ leBytes 1 r.severity ++ leBytes 2 r.event ++ leBytes 1 r.paddock ++ leBytes 1 0
    ++ ((r.detail.map (leBytes 4)).flatten ++ leBytes 40 0).take 40

namespace State

/-- A record sent as a PlatformEventMessage to the receiver, or held where none is set (16 R452). -/
def platformEvent (s : State) (r : LogRec) : State :=
  match s.mgt.receiver with
  | some _ => s.send (.platformEvent r.bytes)
  | none => { s with mgt := { s.mgt with events := s.mgt.events ++ [r] } }

/-- A record appended to the error log, replacing the oldest where it is full; at severity 1 or above also sent as a
PlatformEventMessage, with vector 3 (16 R452-R454). -/
def logRec (s : State) (kind index status severity event paddock : Nat) (detail : List Nat) : State :=
  let r : LogRec := { seq := s.mgt.logSeq, boot := s.mgt.boot, ts := s.dev.tsc.toNat, kind := kind, index := index,
                      status := status, severity := severity, event := event, paddock := paddock, detail := detail }
  let l := s.mgt.log ++ [r]
  let s : State := { s with mgt := { s.mgt with log := if l.length > 32768 then l.drop 1 else l,
                                                logSeq := (s.mgt.logSeq + 1) % 2 ^ 32 } }
  if severity = 0 then s else (s.platformEvent r).rasEv 0

/-- The next rule epoch, taken as the request of a function or of none (06 R194, R197). -/
def newEpoch (s : State) (fn : Option Nat) : State :=
  let e := (s.sec.epoch + 1) % 2 ^ 32
  { s with sec := { s.sec with epoch := e, epochReq := match fn with
                                                      | some f => tset s.sec.epochReq f e
                                                      | none => s.sec.epochReq } }

/-- The `n` values of one generate request of the DRBG: free values, and the request counts toward the next reseed (06 R177; log 9, DESIGN
CHOICE). -/
def drawMany (s : State) (n : Nat) : List (BitVec 64) × State :=
  ((List.range n).map (fun i => Config.drbg (s.sec.rng.draws + i)),
   { s with sec := { s.sec with rng := { s.sec.rng with draws := s.sec.rng.draws + n, gens := s.sec.rng.gens + 1 } } })

/-- A number of 64 × `n` bits from one generate request (06 R174, R177; log 9, DESIGN CHOICE). -/
def drawWide (s : State) (n : Nat) : Nat × State := ((s.drawMany n).1.foldl (fun a v => a * 2 ^ 64 + v.toNat) 0, (s.drawMany n).2)

/-- One value of one generate request (06 R177; log 9, DESIGN CHOICE). -/
def draw (s : State) : BitVec 64 × State :=
  (Config.drbg s.sec.rng.draws,
   { s with sec := { s.sec with rng := { s.sec.rng with draws := s.sec.rng.draws + 1, gens := s.sec.rng.gens + 1 } } })

/-- Whether the DRBG serves `n` generate requests: it runs, and none of them would be the 65,537th since the last seed (06 R177, R178). -/
def drbgServes (s : State) (n : Nat) : Bool := s.sec.rng.running && s.sec.rng.gens + n ≤ 65536

/-- Whether the DRBG serves a request (06 R177, R178). -/
def drbgReady (s : State) : Bool := s.drbgServes 1

/-- A free value: one that the spec does not state (log 9, DESIGN CHOICE). -/
def openVal (s : State) : BitVec 64 × State := (Config.freeValue s.free, { s with free := s.free + 1 })

/-! ### Package memory (01 R26-R31, 06 R192, 16 R460-R463) -/

/-- Owner ID of a frame (06 R192). -/
def ownerOf (s : State) (frame : Nat) : Nat :=
  match s.own.find? (fun r => r.base ≤ frame && frame < r.base + r.count) with
  | some r => r.owner
  | none => 0

end State

/-- One past the last populated package address (01 R26, R28). -/
def memTop : Nat := 0x1800000000
/-- A frame (01 R26). -/
def frameSize : Nat := 0x200000

/-- Numbers from the one of `a`'s unit to the one of the last byte of an extent of `len` bytes. -/
def unitsOf (size a len : Nat) : List Nat :=
  (List.range ((a + max len 1 - 1) / size - a / size + 1)).map (· + a / size)

namespace State

/-- Whether a stack is quarantined. -/
def stackBad (s : State) (st : Nat) : Bool := tget .online s.ras.stackSt st = .quarantined

/-- Whether an extent touches a granule of a quarantined stack (01 R27, 16 R463). -/
def quarTouch (s : State) (a len : Nat) : Bool := ((unitsOf 4096 a len).take 6).any (fun g => s.stackBad (g % 6))

/-- The check of an access over its full extent: range (01 R28), owner among those the requester may reach (06 R192, 03 R95), quarantined
stacks (16 R463). `none` allows it. The order of the three is the model's (log 13, DEDUCED). -/
def checkOwners (s : State) (may : Nat → Bool) (a len : Nat) : Option Nat :=
  if a ≥ memTop then some Status.accessDenied
  else if a + len > memTop then some Status.accessSpan
  else if !may (s.ownerOf (a / frameSize)) then some Status.accessDenied
  else if (unitsOf frameSize a len).any (fun f => !may (s.ownerOf f)) then some Status.accessSpan
  else if s.quarTouch a len then some Status.quarantined
  else none

/-- The check of an access by a requester of one owner ID. -/
def checkOwner (s : State) (owner a len : Nat) : Option Nat := s.checkOwners (fun o => o = owner) a len

/-- Whether an extent touches a granule that is poisoned, for now or for good (16 R460, R461). -/
def poisonTouch (s : State) (a len : Nat) : Bool :=
  (unitsOf 4096 a len).any (fun g => s.ras.poison.contains g || s.ras.dead.contains g)

/-- The bytes of an extent. -/
def memRead (s : State) (a len : Nat) : List Byte := readBytes s.mem a len

end State

/-- Bytes written from `a` upwards, except into granules whose row is unrepairable, where a write completes without effect
(16 R461). -/
def storeBytes (dead : List Nat) (m : List Host.Cell) (a : Nat) : List Byte → List Host.Cell
  | [] => m
  | b :: bs => storeBytes dead (if dead.contains (a / 4096) then m else writeByte m a b) (a + 1) bs

namespace State

/-- Fetches in flight that touch the bytes from `lo` up to but not including `hi` take in no read accepted after a write of these bytes
(01 R31). -/
def closeFetches (s : State) (lo hi : Nat) : Tab MemCtl :=
  s.mcs.map (fun e => (e.1, { e.2 with fetches := e.2.fetches.map (fun f =>
    if f.addr < hi && lo < f.addr + f.len then { f with closed := true } else f) }))

/-- A write that was allowed: its bytes stand, no later read joins an earlier fetch of them (01 R31), and a granule it covers whole loses
its poison (16 R460). -/
def memWrite (s : State) (a : Nat) (bs : List Byte) : State :=
  { s with
    mem := storeBytes s.ras.dead s.mem a bs
    mcs := s.closeFetches a (a + bs.length)
    ras := { s.ras with poison := s.ras.poison.filter (fun g => !(a ≤ g * 4096 && g * 4096 + 4096 ≤ a + bs.length)) } }

/-- What identifies a DRAM row in the log: stack, channel, bank, row (16 R454, R461). -/
def rowDetail (st row : Nat) : List Nat := let (c, b, r) := Config.dramPlace row
  [st, c, b, r]

/-- A DRAM row of a stack put on the pending list, once (16 R460). -/
def queueRow (s : State) (st row : Nat) : State :=
  { s with ras := { s.ras with pending := if s.ras.pending.contains row then s.ras.pending else s.ras.pending ++ [row]
                               rowStack := tset s.ras.rowStack row st } }

/-- A read met an uncorrectable error in a granule backed by a DRAM row: poisoned, the row queued for repair and logged (16 R460,
event 0x0020). -/
def poisonGranule (s : State) (g row : Nat) : State :=
  let s : State := { s with ras := { s.ras with poison := if s.ras.poison.contains g then s.ras.poison else s.ras.poison ++ [g]
                                                poisonRow := tset s.ras.poisonRow g row } }
  (s.queueRow (g % 6) row).logRec 3 (g % 6) Status.rowRetired 2 0x0020 0 (rowDetail (g % 6) row)

/-- The bytes from `lo` up to but not including `hi` zeroed, as a write of them (01 R31). -/
def zeroMem (s : State) (lo hi : Nat) : State := { s with mem := zeroRange s.mem lo hi, mcs := s.closeFetches lo hi }

/-- Every byte of frames `base` to `base + count - 1` zeroed (05 R170 step 6). -/
def zeroFrames (s : State) (base count : Nat) : State :=
  let s := s.zeroMem (base * frameSize) ((base + count) * frameSize)
  { s with
           ras := { s.ras with poison := s.ras.poison.filter (fun g => g / 512 < base || base + count ≤ g / 512) } }

/-- Bytes that a code of Max_Payload_Size or Max_Read_Request_Size stands for: 128 to 4,096 (03 R85, R86; the codes are PCI Express's:
log 50, PRESUMED). -/
def tlpBytes (code : Nat) : Nat := 128 * 2 ^ min code 5

/-- Bytes of a memory write that the part may send at once: the programmed Max_Payload_Size, and no more than the 512 bytes it supports
(03 R85, R86). -/
def payloadBytes (s : State) : Nat := min 512 (tlpBytes s.hif.mps)

/-- An extent cut into TLPs of at most `size` bytes, each as address and length. -/
def tlps (size addr len : Nat) : List (Nat × Nat) :=
  (List.range (ceilDiv len size)).map (fun i => (addr + i * size, min size (len - i * size)))

/-- A host read issued under one tag: an MRd for each part of at most the programmed Max_Read_Request_Size (03 R86, R474). -/
def hostRead (s : State) (fn addr len : Nat) (what : HostReadFor) : State :=
  let t := s.hif.nextTag
  let s : State := { s with hif := { s.hif with reads := tset s.hif.reads t what, nextTag := t + 1 } }
  (tlps (tlpBytes s.hif.mrrs) addr len).foldl (fun s e => s.send (.hostRead t fn e.1 e.2 (s.ideOf fn))) s

/-- A host write issued: an MWr for each part of at most the programmed Max_Payload_Size (03 R86). -/
def hostWrite (s : State) (fn addr : Nat) (data : List Byte) : State :=
  (tlps s.payloadBytes addr data.length).foldl (fun s e =>
    s.send (.hostWrite fn e.1 (s.ideOf fn) ((data.drop (e.1 - addr)).take e.2))) s

/-- An error of a function reported to the host where PF0's Device Control allows it (03 R86). Which error sends which message is PCI
Express's: an unsupported or aborted request that is answered with a completion is a correctable error, one that is not answered a
nonfatal one (log 50, PRESUMED). No event of the model is a fatal error. -/
def errMsg (s : State) (fn : Nat) (posted ur : Bool) : State :=
  if ur && !s.hif.repUr then s
  else if posted then (if s.hif.repNonfatal then s.send (.errMsg fn .nonfatal) else s)
  else if s.hif.repCor then s.send (.errMsg fn .cor) else s

/-! ### Refused host accesses (03 R92, R97) -/

end State

/-- HIF_ERR or PDK_ACCESS_ERR after one more refusal (03 R97). -/
def errRecord (old : Word) (code bar off : Nat) : Word :=
  BitVec.ofNat 64 (code + b2n (old.toNat % 256 ≠ 0) * 256 + bar * 512 + off % 2 ^ 32 * 2 ^ 32)

namespace State

/-- A refused access recorded for its function (03 R92). -/
def refuse (s : State) (fn code bar off : Nat) : State :=
  if fn = 0 then { s with hif := { s.hif with err := errRecord s.hif.err code 0 off } }
  else s.modPdk (fn - 1) (fun d => { d with accErr := errRecord d.accErr code bar off })

/-- Whether a request to VF n's BARs must be turned away because its TDI is in RUN and the request is not on the bound stream with
T = 1 (06 R189). -/
def ideBad (s : State) (fn : Nat) (ide : Option Nat) : Bool :=
  fn ≠ 0 && (s.tdi (fn - 1)).st = .run && (ide ≠ (s.tdi (fn - 1)).stream || ide = none)

/-- A request to VF n not on its bound stream: refused as an unsupported request and recorded (06 R189). -/
def ideRefuse (s : State) (fn bar off : Nat) : State := s.refuse fn Status.accessDenied bar off

/-- Whether a request names an IDE stream whose receiving keys have been destroyed and not been programmed again (06 R175, R203). -/
def keyGone (s : State) (ide : Option Nat) : Bool :=
  match ide with
  | none => false
  | some k =>
    let x := tget ({} : IdeStream) s.sec.ide k
    x.gone && !x.active.any (fun e => e.2.1)

/-- An item dropped under a destroyed key is counted; the count holds at 2^32 - 1 (06 R203). -/
def countRetired (s : State) : State := { s with sec := { s.sec with keyRetired := satAdd (2 ^ 32 - 1) s.sec.keyRetired 1 } }

/-- A register write of VF n: dropped and counted under a destroyed stream key, refused where its stream is wrong, otherwise `f` (06 R189,
R203). -/
def vfWrite (s : State) (p off : Nat) (ide : Option Nat) (f : State → State) : State :=
  if s.keyGone ide then s.countRetired
  else if s.ideBad (p + 1) ide then (s.ideRefuse (p + 1) 0 off).errMsg (p + 1) true true
  else f s

/-! ### Cores, bays and paddocks -/

/-- Unused spare rows of bank k of core n by index, ascending: as the factory left them, those from 8 less their number on (09 R285, R289;
log 3, DESIGN CHOICE). -/
def spareRows (s : State) (n k : Nat) : List Nat :=
  match tfind (s.core n).spares k with
  | some v => v
  | none => (List.range (Config.freeSpares n k)).map (· + (8 - Config.freeSpares n k))

/-- How many they are (09 R289, BAY_SPAD_RAS.FREE). -/
def spare (s : State) (n k : Nat) : Nat := (s.spareRows n k).length

/-- Bank of a row number, a visible row's or a spare's. -/
def bankOf (r : Nat) : Nat := if r < 4096 then r % 8 else (r - 4096) / 8

/-- A row retired: a spare of its bank stands in for it, the lowest unused one, or where the row is an unused spare itself it goes out of
service. The count of corrected checks and the mark of the row that is gone go with it; the spare brings its own (09 R286, R287, R289;
log 3, DESIGN CHOICE for which spare). -/
def retireRow (s : State) (n r : Nat) : State :=
  let k := bankOf r
  let rows := s.spareRows n k
  let sp := 4096 + 8 * k + rows.headD 8
  if r < 4096 then
    s.modCore n (fun c => { c with
      spares := tset c.spares k (rows.drop 1)
      marked := (c.marked.filter (· != r)).map (fun x => if x = sp then r else x)
      corrected := if thas c.corrected sp then tset (tdel c.corrected sp) r (tget 0 c.corrected sp) else tdel c.corrected r })
  else
    s.modCore n (fun c => { c with
      spares := tset c.spares k (rows.filter (· != (r - 4096) % 8))
      marked := c.marked.filter (· != r)
      corrected := tdel c.corrected r })

/-- Map out a core's marked rows whose bank has a free spare (09 R286); each is logged as retired (16 R454 event 0x0010). -/
def mapOut (s : State) (n : Nat) : State :=
  (s.core n).marked.foldl (fun s r =>
    if s.spare n (bankOf r) = 0 then s
    else
      let s := (s.retireRow n r).logRec 2 n 0 1 0x0010 0 [bankOf r, r]
      if s.spare n (bankOf r) = 0 then s.logRec 2 n 0 2 0x0011 0 [bankOf r] else s) s

end State

/-- A core after a scrub: everything zero but the health of its scratchpad (05 R166, 09 R286-R291), and what the pace gate counts of the
last 64 ticks (02 R50). -/
def Core.scrubbed (c : Core) : Core :=
  { spares := c.spares, ce := c.ce, ue := c.ue, marked := c.marked, corrected := c.corrected, patrol := c.patrol, issued := c.issued }

/-- A bay's shared units after a scrub (05 R166): handle queues, claim counters, read tags, stream engine and split-merge state. -/
def Bay.scrubbedUnits (b : Bay) : Bay :=
  { b with claims := [], hq := [], tags := 1024, rr := 0, folds := [], resident := false, lossMark := false,
           prepared := false }

/-- The cores of a bay (01 R25). -/
def coresOf (b : Nat) : List Nat := (List.range 16).map (· + 16 * b)

namespace State

/-- A core scrubbed, its marked rows mapped out first (05 R166, 09 R291). -/
def scrubCore (s : State) (n : Nat) : State := (s.mapOut n).modCore n Core.scrubbed

/-- A bay scrubbed: every core and its shared units (05 R166). -/
def scrubBay (s : State) (b : Nat) : State :=
  let s := (coresOf b).foldl scrubCore s
  let s := s.modBay b Bay.scrubbedUnits
  { s with semFly := s.semFly.filter (fun f => f.src / 16 ≠ b ∧ f.dst / 16 ≠ b)
           hqFly := s.hqFly.filter (fun f => f.src / 16 ≠ b ∧ f.bay ≠ b) }

/-- Every bay scrubbed (03 R70 step 7, R74). -/
def scrubAll (s : State) : State := (List.range 16).foldl scrubBay s

/-- Bays that a paddock holds (05 SCH_PDK.BAYS_HELD). -/
def baysOf (s : State) (p : Nat) : List Nat := (List.range 16).filter (fun b => (s.bay b).holder = some p)

/-- A paddock moved to a state: SCH_EVENT.STATE, and the SUSPENDED and RESUMED events (05 R133, PDK_EVENT, SCH_EVENT). -/
def setPdkSt (s : State) (p : Nat) (st : PdkSt) : State :=
  let old := (s.pdk p).st
  if old = st then s
  else
    let s := (s.modPdk p (fun d => { d with st := st })).schEv 0 p
    if st = .suspended then s.pdkEv p 2 else if old = .suspended then s.pdkEv p 3 else s

/-- RUNNING while it holds a bay, RUNNABLE while it does not (05 R133). -/
def settlePdk (s : State) (p : Nat) : State :=
  if (s.pdk p).st = .runnable ∨ (s.pdk p).st = .running then
    s.setPdkSt p (if (s.baysOf p).isEmpty then .runnable else .running)
  else s

end State

/-- Whether some cause of suspension stands (05 R133). -/
def Susp.any (u : Susp) : Bool := u.op || u.d3vf || u.d3pf || u.bme || u.trip

/-- A unit of the data path's view (16 RAS_BAY_STATE, RAS_UNIT_STATE). -/
def State.unitSt (s : State) : UnitId → UnitSt
  | .bay b => (s.bay b.val).unit_
  | .port p => (s.port p.val).unit_
  | .engine e => (s.engine e.val).unit_
  | .stack t => tget .online s.ras.stackSt t.val
  | .core c => tget .online s.ras.coreSt c.val

/-- A unit's kind and number in an error-log record (16 R453). -/
def unitKind : UnitId → Nat × Nat
  | .bay b => (1, b.val)
  | .port p => (4, p.val)
  | .engine e => (5, e.val)
  | .stack t => (3, t.val)
  | .core c => (2, c.val)

/-- A unit's code in the tables of views: bays 0 to 15, ports 16 to 23, engines 24 to 27, stacks 28 to 33, cores 64 to 319. -/
def unitKey : UnitId → Nat
  | .bay b => b.val
  | .port p => 16 + p.val
  | .engine e => 24 + e.val
  | .stack t => 28 + t.val
  | .core c => 64 + c.val

namespace State

/-- A unit's state set in the data path's view; vector 4 where it changes (16 R452). -/
def setUnit (s : State) (u : UnitId) (st : UnitSt) : State :=
  if s.unitSt u = st then s
  else
    (match u with
     | .bay b => s.modBay b.val (fun x => { x with unit_ := st })
     | .port p => s.modPort p.val (fun x => { x with unit_ := st })
     | .engine e => { s with tmb := { s.tmb with engines := tmod {} s.tmb.engines e.val (fun x => { x with unit_ := st }) } }
     | .stack t => { s with ras := { s.ras with stackSt := tset s.ras.stackSt t.val st } }
     | .core c => { s with ras := { s.ras with coreSt := tset s.ras.coreSt c.val st } } : State).rasEv 1

/-- A unit's state as set by the controller's own command: the management view is the data path's again (16 R462, log 14, DESIGN CHOICE). -/
def setUnitBoth (s : State) (u : UnitId) (st : UnitSt) : State :=
  let s := s.setUnit u st
  { s with mgt := { s.mgt with view := tdel s.mgt.view (unitKey u) } }

/-- Paddocks whose state satisfies a test. -/
def pdksWhere (s : State) (f : Pdk → Bool) : List Nat := (List.range 64).filter (fun p => f (s.pdk p))

/-! ### Rails and versions that several chapters use (02 R56, R473; 04 R130) -/

/-- The rail of a compute die in mV; 0 while it has none. -/
def rail (s : State) (d : Nat) : Nat := tget 0 s.dev.railMv d

/-- The base die's rail after the compute dies' rails have changed: the lowest of the powered dies', 0.72 V while none is powered, nothing
without base power (02 R473). The ceiling of 2,560 acts at the next RAIL_UPDATE (log 49, DEDUCED). -/
def settleBase (s : State) : State :=
  { s with dev := { s.dev with baseRailMv :=
      if !s.dev.baseOn then 0
      else if !s.dev.computeRails then 720
      else (List.range 4).foldl (fun m d => min m (s.rail d)) (s.rail 0) } }

/-- The rails of the compute dies as a ramp leaves them: the spec gives each no value but its range of 0.72 V to 0.84 V, so each is a free
value in that range (02 R56; log 67, DESIGN CHOICE). -/
def rampRails (s : State) : State :=
  ({ s with dev := { s.dev with railMv := (List.range 4).map (fun d => (d, 720 + (Config.freeValue (s.free + d)).toNat % 121)) }
            free := s.free + 4 } : State).settleBase

/-- Version of a firmware component that runs: 1 the controller's firmware, 2 the core microcode; major in bits [15:8], minor in [7:0]
(03 HIF_VERSION, 16 R468). -/
def runVersion (s : State) (comp : Nat) : Nat :=
  match tget [] s.mgt.fw.active comp with
  | [] => 256 + (if comp = 1 then Config.fwMinor.toNat else Config.ucodeMinor.toNat)
  | img => Config.fwVersion img % 65536

/-- Whether the signed compatibility matrix does not list the combination that runs (04 R130). -/
def untested (s : State) : Bool := !Config.matrixLists (s.runVersion 1) (s.runVersion 2)

/-- VF p + 1 is enabled: VF Enable is set and NumVFs counts it (03 R88). -/
def vfOn (s : State) (p : Nat) : Bool := s.hif.vfEnable && p < s.hif.numVfs

/-- Bay windows, rings and device tables are held for paddock numbers 1 to 64 (03 R88). -/
def allPdks : List Nat := List.range 64

end State

end Sys2Proof.Machine
end

