-- ==== Sys2Proof/Machine/Flags.lean ====
section
/-! DEFINITION. The sticky flags INT_SAT and SEM_SAT and the saturating results that set them (07 R205, R220, R225; 09 R282). -/

namespace Sys2Proof.Machine

/-- A signed result limited to `w` bits, as an unsigned lane, and whether it was limited (07 R220). -/
def satLane (w : Nat) (i : Int) : Nat × Bool :=
  let c := clampInt w i
  (unsignedOf w c, c ≠ i)

/-- A semaphore counter after a SEMSIG: it stops at 65,535, and whether it did (07 R225). -/
def semAdd (v cnt : Nat) : Nat × Bool := (min (v + cnt) 65535, v + cnt > 65535)

/-- An arrival counter after `n` rows: it stops at 2^32 - 1 (09 R282). -/
def arrAdd (v n : Nat) : Nat := min (v + n) (2 ^ 32 - 1)

/-- SEM_SAT in bit 0 and INT_SAT in bit 1 (07 R207). -/
def Core.flags (c : Core) : Word := BitVec.ofNat 64 (b2n c.semSat + 2 * b2n c.intSat)

/-- A SEMSIG lands on a counter of a core (07 R225, 10 R311). Key: pair + 64 × counter. -/
def Core.semLand (c : Core) (ctr cnt : Nat) : Core :=
  let r := semAdd (tget 0 c.sem ctr) cnt
  { c with sem := tset c.sem ctr r.1, semSat := c.semSat || r.2 }

end Sys2Proof.Machine
end

