-- ==== Sys2Proof/Machine/Operands.lean ====
section
/-! DEFINITION. Operand forms of the core: registers as a bundle reads them, lane formats and the row slot's arithmetic (07 R205,
R216-R220, R229, R230, R470; 11 R317-R322, R336, R337, R477). -/

namespace Sys2Proof.Machine

namespace Core

/-- The newest write to a scalar register still in flight. -/
def pendX (c : Core) (r : Nat) : Option Word :=
  c.flight.foldl (fun o f => match f.act with
    | .setX q v => if q = r then some v else o
    | _ => o) none

/-- The newest write to an address register still in flight. -/
def pendA (c : Core) (r : Nat) : Option Addr :=
  c.flight.foldl (fun o f => match f.act with
    | .setA q v => if q = r then some v else o
    | _ => o) none

/-- A scratchpad row as it stands (09 R266). -/
def rowAt (c : Core) (r : Nat) : Row := tget 0 c.spad r

/-- The newest write to a row register still in flight; a row still to be read stands for what its scratchpad row holds (log 7, DESIGN CHOICE). -/
def pendW (c : Core) (r : Nat) : Option Row :=
  c.flight.foldl (fun o f => match f.act with
    | .setW q v => if q = r then some v else o
    | .readSpad q row => if q = r then some (c.rowAt row) else o
    | _ => o) none

/-- The newest write to an accumulator row still in flight. -/
def pendAcc (c : Core) (r : Nat) : Option Row :=
  c.flight.foldl (fun o f => match f.act with
    | .setAcc q v => if q = r then some v else o
    | _ => o) none

/-- A value read fewer than L beats after its producer: old or new (07 R230; log 7, DESIGN CHOICE). -/
def early {α : Type} (c : Core) (key : Nat) (old : α) (new : Option α) : α :=
  match new with
  | some v => if Config.earlySeesNew c.beats key then v else old
  | none => old

/-- A scalar register as read at issue; x0 reads zero (07 R205). -/
def rdX (c : Core) (r : Nat) : Word := if r = 0 then 0 else c.early r (tget 0 c.x r) (c.pendX r)
/-- An address register as read at issue. -/
def rdA (c : Core) (r : Nat) : Addr := c.early (32 + r) (tget 0 c.a r) (c.pendA r)
/-- A row register as read at issue. -/
def rdW (c : Core) (r : Nat) : Row := c.early (64 + r) (tget 0 c.w r) (c.pendW r)
/-- An accumulator row as read at issue. -/
def rdAcc (c : Core) (r : Nat) : Row := c.early (128 + r) (tget 0 c.acc r) (c.pendAcc r)

/-- A write to a scalar register landing; a write to x0 is discarded (07 R205). -/
def wrX (c : Core) (r : Nat) (v : Word) : Core := if r = 0 then c else { c with x := tset c.x r v }

end Core

/-- Lane width of a row format (07 R217). -/
def laneWidth (fmt : Nat) : Nat :=
  if fmt = 0 ∨ fmt = 2 then 32 else if fmt = 1 then 16 else 8

/-- The float format of a row format, for FMT 0, 1, 4 and 5. -/
def laneFmt (fmt : Nat) : Option FFmt :=
  match fmt with
  | 0 => some f32
  | 1 => some bf16
  | 4 => some e4m3
  | 5 => some e5m2
  | _ => none

/-- A lane's value: a float's, or a signed integer's. -/
def laneVal (fmt v : Nat) : FV :=
  match laneFmt fmt with
  | some f => f.decode v
  | none => FV.ofInt (sext (laneWidth fmt) v)

/-- A float result of FMT 0 or 1: FP32 to nearest even, then BF16 where the lane is BF16 (07 R220). -/
def packFloat (fmt : Nat) (v : FV) : Nat :=
  let r := f32.round v
  if fmt = 1 then bf16.round (f32.decode r) else r

/-- One lane of an operation of two or three row sources, and whether it saturated (07 R218, R220). -/
def laneOp (op : LaneOp) (fmt a b c : Nat) : Nat × Bool :=
  let w := laneWidth fmt
  let fl (v : FV) : Nat × Bool := (packFloat fmt v, false)
  let int (i : Int) : Nat × Bool := if w = 8 then satLane 8 i else (unsignedOf w i, false)
  let x := laneVal fmt a
  let y := laneVal fmt b
  let z := laneVal fmt c
  let i := sext w a
  let j := sext w b
  let isF := (laneFmt fmt).isSome
  match op with
  | .add => if isF then fl (x.add y) else int (i + j)
  | .sub => if isF then fl (x.sub y) else int (i - j)
  | .mul => if isF then fl (x.mul y) else int (i * j)
  | .fma => if isF then fl ((x.mul y).add z) else int (i * j + sext w c)
  | .max => if isF then fl (x.max y) else int (max i j)
  | .min => if isF then fl (x.min y) else int (min i j)
  | .and => (Nat.land a b, false)
  | .or => (Nat.lor a b, false)
  | .xor => (Nat.xor a b, false)
  | .cmplt => (if (if isF then x.lt y else decide (i < j)) then 2 ^ w - 1 else 0, false)
  | .sel => (if c ≠ 0 then a else b, false)

/-- A row operation lane by lane, and whether some lane saturated. -/
def rowOp (op : LaneOp) (fmt : Nat) (a b c : Row) : Row × Bool :=
  match op with
  | .and => (a &&& b, false)
  | .or => (a ||| b, false)
  | .xor => (a ^^^ b, false)
  | _ =>
    let w := laneWidth fmt
    let rs := ((lanes w a).zip ((lanes w b).zip (lanes w c))).map (fun t => laneOp op fmt t.1 t.2.1 t.2.2)
    (ofLanes w (rs.map (·.1)), rs.any (·.2))

/-- Beats until the result of a row operation is visible (07 R218). -/
def LaneOp.latency : LaneOp → Nat
  | .add | .sub | .max | .min | .cmplt => 2
  | .mul => 3
  | .fma => 4
  | .and | .or | .xor | .sel => 1

/-- One lane converted (07 R220, R470): result and whether an integer target saturated. `sr`: the lane's 16 random bits. -/
def convLane (src tgt : Nat) (sr : Option Nat) (v : Nat) : Nat × Bool :=
  let x := laneVal src v
  match tgt with
  | 0 => (f32.round x, false)
  | 1 => (match sr with
      | some r => bf16.roundSr r x
      | none => bf16.round x, false)
  | 4 => (e4m3.saturate sr x, false)
  | 5 => (e5m2.saturate sr x, false)
  | t =>
    let w := laneWidth t
    match x.toInt (2 ^ 64) with
    | none => (0, false)
    | some i => satLane w i

/-- Random bits of lane i from a list of 64-bit draws, 16 bits a lane (07 R470). -/
def laneBits (ds : List Nat) (i : Nat) : Nat := (ds.getD (i / 4) 0 / 2 ^ (16 * (i % 4))) % 65536

/-- Number of source lanes that a VCVT converts (07 R219). -/
def cvtLanes (tgt : Nat) : Nat := 4096 / laneWidth tgt

/-- VCVT (07 R219, R220): `srcs` are the source rows in order; `ds` the draws of a stochastic conversion. -/
def cvt (src tgt part : Nat) (srcs : List Row) (ds : Option (List Nat)) : Row × Bool :=
  let all := (srcs.map (lanes (laneWidth src))).flatten
  let n := cvtLanes tgt
  let rs := (((all.drop (part * n)).take n).zipIdx).map (fun e => convLane src tgt (ds.map (fun l => laneBits l e.2)) e.1)
  (ofLanes (laneWidth tgt) (rs.map (·.1)), rs.any (·.2))

/-- VRED (07 R220; log 23, DEDUCED for the widening of BF16): FP lanes give FP32, integers are sign-extended. -/
def reduce (op : RedOp) (fmt : Nat) (a : Row) : Word :=
  let w := laneWidth fmt
  let ls := lanes w a
  match laneFmt fmt with
  | some f =>
    let vs := ls.map (fun v => BitVec.ofNat 32 (f32.round (f.decode v)))
    let r := match op with
      | .sum => treeSum vs
      | .max => treeFold fmax 0 vs.length vs
      | .min => treeFold fmin 0 vs.length vs
    BitVec.ofNat 64 r.toNat
  | none =>
    let vs := ls.map (sext w)
    let r : Int := match op with
      | .sum => sext 32 (unsignedOf 32 (vs.foldl (· + ·) 0))
      | .max => vs.foldl max (vs.headD 0)
      | .min => vs.foldl min (vs.headD 0)
    BitVec.ofInt 64 r

/-! ### The special-function unit (11) -/

/-- A subnormal flushed to zero of the same sign (11 R337, R477). -/
def flush (x : BitVec 32) : BitVec 32 := if bits x.toNat 30 23 = 0 then x &&& 0x80000000 else x

/-- exp2 of a paddock's mode (11 R477). -/
def sfExp2 (ax64 : Bool) (x : BitVec 32) : BitVec 32 := if ax64 then flush (fexp2 (flush x)) else fexp2 x
/-- log2 of a paddock's mode (11 R477). -/
def sfLog2 (ax64 : Bool) (x : BitVec 32) : BitVec 32 := if ax64 then flush (flog2 (flush x)) else flog2 x

/-- The canonical quiet NaN of FP32 (07 R220, 11 R320). -/
def qnan : BitVec 32 := 0x7FC00000

/-- Whether an FP32 value is NaN. -/
def isNan (x : BitVec 32) : Bool := bits x.toNat 30 23 = 255 && x.toNat % 2 ^ 23 ≠ 0

/-- A NaN made canonical. -/
def canon (x : BitVec 32) : BitVec 32 := if isNan x then qnan else x

/-- One step of a micro-program on the lane registers t0 to t7 (11 R320-R322, R337). Its inputs, immediate and result are flushed in
AX64 compatibility mode. -/
def sfStep (ax64 : Bool) (t : List (BitVec 32)) (s : Word) : List (BitVec 32) :=
  let n := s.toNat
  let fl (x : BitVec 32) : BitVec 32 := if ax64 then flush x else x
  let d := bits n 10 8
  let rd (i : Nat) : BitVec 32 := fl (t.getD i 0)
  let a0 := rd (bits n 14 12)
  let a1 := if bitAt n 24 then a0 &&& 0x7FFFFFFF else a0
  let a := if bitAt n 25 then a1 ^^^ 0x80000000 else a1
  let b := rd (bits n 18 16)
  let c := rd (bits n 22 20)
  let im := fl (BitVec.ofNat 32 (bits n 63 32))
  let r : BitVec 32 := match bits n 7 0 with
    | 0x01 => im
    | 0x02 => fadd a b
    | 0x03 => fmul a b
    | 0x04 => ffma a b c
    | 0x05 => ffma a im b
    | 0x06 => fmax a b
    | 0x07 => fmin a b
    | 0x08 => sfExp2 ax64 a
    | 0x09 => sfLog2 ax64 a
    | 0x0A => if (f32.decode a.toNat).lt (f32.decode b.toNat) then c else t.getD d 0
    | 0x0B => if bits a.toNat 30 23 = 255 then c else b
    | 0x0C => if isNan a then qnan else (a &&& 0x7FFFFFFF) ||| (b &&& 0x80000000)
    | _ => t.getD d 0
  t.set d (canon (fl r))

/-- A special function of one value: a built-in or the program of a slot (11 R320, R477). -/
inductive SfSel where
  | exp2
  | log2
  | prog (steps : List Word)

/-- The result of a selector (11 R318-R322). A NaN result is canonical also where no step has written t0. -/
def sfEval (ax64 : Bool) (f : SfSel) (x : BitVec 32) : BitVec 32 :=
  match f with
  | .exp2 => sfExp2 ax64 x
  | .log2 => sfLog2 ax64 x
  | .prog steps => canon ((steps.foldl (sfStep ax64) (x :: List.replicate 7 0)).headD 0)

/-- The published RCP program (11 R324, worked through). -/
def rcpSteps : List Word :=
  [0x3F80000000000301, 0x0000000001000109, 0x0000000002001108, 0x0000000003310204, 0x0000000000121204, 0x000000000012210B,
   0x000000000000100C]

namespace State

/-- The function that a selector names: 0 exp2, 1 log2, 2 to 33 slots 0 to 31 of the platform image (07 R218, 04 R108). -/
def sfSel (s : State) (sel : Nat) : SfSel :=
  if sel = 0 then .exp2 else if sel = 1 then .log2
  else .prog (match s.plat with
    | some pl => ((pl.sfu.find? (fun e => e.slot = sel - 2)).map (·.steps)).getD []
    | none => [])

/-- Latency of a VSFU (07 R218). -/
def sfLatency (s : State) (sel : Nat) : Nat :=
  match s.sfSel sel with
  | .prog st => 10 + 2 * st.length
  | _ => 10

/-- Whether a paddock runs in AX64 compatibility mode (11 R336). -/
def ax64 (s : State) (p : Nat) : Bool := match (s.pdk p).img with
  | some i => bitAt i.features 0
  | none => false

end State

/-- VSFU over a row's 128 FP32 lanes (11 R317, R320). -/
def sfRow (ax64 : Bool) (f : SfSel) (a : Row) : Row :=
  ofLanes 32 ((lanes 32 a).map (fun v => (sfEval ax64 f (BitVec.ofNat 32 v)).toNat))

end Sys2Proof.Machine
end

