-- ==== Sys2Proof/Machine/Memory.lean ====
section
/-! DEFINITION. The memory controllers: pieces, the order in which requests are accepted and answered, the read combiner, row slots and
classes (01 R27-R31, 10 R305-R308, R310), and the checks that every writer of package memory shares (04 R113). -/

namespace Sys2Proof.Machine

/-- The pieces of an extent, split at granule boundaries: address and length (01 R27, 10 R305). -/
def memPieces : Nat → Nat → Nat → List (Nat × Nat)
  | 0, _, _ => []
  | n + 1, a, len => if len = 0 then [] else let k := min len (4096 - a % 4096); (a, k) :: memPieces n (a + k) (len - k)

/-- The pieces of `len` bytes from `a`. -/
def piecesOf (a len : Nat) : List (Nat × Nat) := memPieces (len / 4096 + 2) a len

/-- First tag of the requests that the part's own engines send (the model's own names of requests). -/
def ownTags : Nat := 2 ^ 32

/-- A request of no core: it comes after those of cores that arrive in the same beat (10 R307; log 74, DESIGN CHOICE). -/
def Waiting.plain : Waiting :=
  { tag := ownTags, write := false, addr := 0, len := 0, cls := .fcfs, dry := 0, bay := 16, core := 256, tick := 0, ep := 0, slots := 0 }

namespace State

/-- Whether a frame is locked: an image frame of the committed load, or of a load whose GO has been accepted (04 R113). -/
def frameLocked (s : State) (p f : Nat) : Bool :=
  let within (x : Option (Nat × Nat)) : Bool := x.elim false (fun e => e.1 ≤ f && f < e.1 + e.2)
  within (s.pdk p).lock || within (s.pdk p).goLock

/-- Whether a write by a paddock reaches a frame that a load has locked, and how (04 R113). -/
def lockFault (s : State) (p a len : Nat) : Option Nat :=
  if s.frameLocked p (a / frameSize) then some Status.accessDenied
  else if (unitsOf frameSize a len).any (s.frameLocked p) then some Status.accessSpan else none

/-- A piece accepted by its controller at the present tick and epoch: a read joins an identical fetch that no write has closed, or fetches
what the bytes hold now; a write changes the bytes in order of acceptance and closes the fetches it meets. A piece of n bytes costs
⌈n ÷ 512⌉ + 2 row slots (01 R29-R31, 06 R194, 10 R305, R310). -/
def acceptPiece (s : State) (w : Waiting) (data : List Byte) : State :=
  let st := w.addr / 4096 % 6
  let same (f : Fetch) : Bool := f.addr = w.addr && f.len = w.len && !f.closed
  if !w.write && (s.mc st).fetches.any same then
    s.modMc st (fun m => { m with fetches := m.fetches.map (fun f => if same f then { f with tags := f.tags ++ [w.tag] } else f) })
  else
    let w : Waiting := { w with tick := s.dev.tsc.toNat, ep := s.sec.epoch, slots := ceilDiv w.len 512 + 2 }
    let s := s.modMc st (fun m => { m with queue := m.queue ++ [w] })
    if w.write then s.memWrite w.addr data
    else
      let x : Fetch := { addr := w.addr, len := w.len, tags := [w.tag], data := s.memRead w.addr w.len, closed := false, ep := w.ep,
                         status := if s.poisonTouch w.addr w.len then Status.rowRetired else Status.ok }
      s.modMc st (fun m => { m with fetches := m.fetches ++ [x] })

/-- The next tag of the part's own requests. -/
def newTag (s : State) : Nat × State := (ownTags + s.memTag, { s with memTag := s.memTag + 1 })

/-- Bytes that an engine other than a stream reads or writes: Yard and Loft pages, Tambour package edges, the loader, BAR2 and the fabric.
Its pieces join the FCFS class of their controllers (10 R306); what it reads it takes from the bytes as they stand at acceptance. -/
def traffic (s : State) (write : Bool) (a : Nat) (data : List Byte) (len : Nat) : State :=
  (piecesOf a len).foldl (fun s e =>
    let (t, s) := s.newTag
    s.acceptPiece { Waiting.plain with tag := t, write := write, addr := e.1, len := e.2 } ((data.drop (e.1 - a)).take e.2)) s

/-- Bytes written by such an engine. -/
def writeFrom (s : State) (a : Nat) (data : List Byte) : State := s.traffic true a data data.length

/-- Granules of a save record: 37,952 KiB (05 R137). -/
def saveGranules : Nat := 9488

/-- The traffic of a save or restore of the record that begins at frame f: before both classes at every controller (05 R165, R167; 10
R306). One entry of a controller stands for all its granules of the record. -/
def saveTraffic (s : State) (write : Bool) (f : Nat) : State :=
  (List.range 6).foldl (fun s st =>
    let g0 := f * 512
    let k := ((List.range 6).filter (fun i => (g0 + i) % 6 = st && i < saveGranules % 6)).length + saveGranules / 6
    let (t, s) := s.newTag
    let w : Waiting := { Waiting.plain with tag := t, write := write, cls := .save, addr := f * frameSize, len := k * 4096,
                                            tick := s.dev.tsc.toNat, ep := s.sec.epoch, slots := k * 10 }
    s.modMc st (fun m => { m with queue := m.queue ++ [w] })) s

/-! ### Row slots -/

/-- Whether a request comes before another of the FCFS order: earlier arrival; of requests that arrive in one beat the one of the lowest bay,
then of the lowest core (10 R307). Requests of one tick count as of one beat (log 74, DESIGN CHOICE). -/
def arrivedBefore (x y : Waiting) : Bool :=
  x.tick < y.tick || (x.tick = y.tick && (x.bay < y.bay || (x.bay = y.bay && x.core < y.core)))

/-- Whether a request comes before another of its class: deadline requests by dry time, then as FCFS (10 R307). -/
def before (x y : Waiting) : Bool :=
  if x.cls = .deadline && x.dry ≠ y.dry then x.dry < y.dry else arrivedBefore x y

/-- The first of a list in the order of its class; of two equal ones the earlier in the list. -/
def firstWaiting : List Waiting → Option Waiting
  | [] => none
  | w :: t => some (t.foldl (fun a b => if before b a then b else a) w)

/-- The request that a controller's next row slot goes to (10 R306, R307). -/
def nextSlot (m : MemCtl) : Option Waiting :=
  let of (c : MemClass) : Option Waiting := firstWaiting (m.queue.filter (fun w => w.cls = c))
  match of .save with
  | some w => some w
  | none =>
    match of .fcfs with
    | some w => if !m.recent.contains true then some w else (match of .deadline with
        | some d => some d
        | none => some w)
    | none => of .deadline

/-- One row slot granted; a request whose last slot this was leaves the queue (10 R305-R307, 01 R31). -/
def grantSlot (s : State) (st : Nat) : State :=
  s.modMc st (fun m =>
    match nextSlot m with
    | none => m
    | some w =>
      let i := m.queue.idxOf w
      { m with queue := if w.slots ≤ 1 then m.queue.eraseIdx i else m.queue.set i { w with slots := w.slots - 1 }
               writing := if w.slots ≤ 1 && w.write then m.writing ++ [w] else m.writing
               recent := if w.cls = .save then m.recent else (m.recent ++ [decide (w.cls = .fcfs)]).drop (m.recent.length - 2) })

/-- Whether an access was accepted under an epoch before e (06 R195). -/
def earlier (e ep : Nat) : Bool := let d := (e + 2 ^ 32 - ep % 2 ^ 32) % 2 ^ 32; 1 ≤ d && d < 2 ^ 31

/-- Whether a request of package memory that was accepted under an epoch before e has not completed (06 R195). -/
def memOpen (s : State) (e : Nat) : Bool :=
  s.mcs.any (fun m => m.2.queue.any (fun w => earlier e w.ep) || m.2.writing.any (fun w => earlier e w.ep)
    || m.2.fetches.any (fun f => earlier e f.ep))

end State

end Sys2Proof.Machine
end

