-- ==== Sys2Proof/Machine/Sched.lean ====
section
/-! DEFINITION. Rings, jobs, the scheduler, the bay switch and suspension (05 R133-R169), as operations and as the meanings of the
scheduler's commands. -/

namespace Sys2Proof.Machine

namespace State

/-- The BAYS need of a paddock's committed image (04 R110). -/
def needBays (s : State) (p : Nat) : Nat := match (s.pdk p).img with
  | some i => i.needs.bays
  | none => 0

/-- Frames that a paddock owns when its save area is its own too: FRAME_BASE and FRAME_COUNT (04 R103). -/
def quota (s : State) (p : Nat) : Quota := match s.plat with
  | some pl => pl.quotas.getD p {}
  | none => {}

/-! ### Measurement records (06 R182, R183) -/

end State

/-- Code of a TDI state (06 R182). -/
def tdiCode : TdiSt → Nat
  | .unlocked => 0
  | .locked => 1
  | .run => 2
  | .error => 3

/-- Code of a paddock state (03 PDK_ID). -/
def pdkCode : PdkSt → Nat
  | .empty => 0
  | .loading => 1
  | .runnable => 2
  | .running => 3
  | .suspended => 4
  | .teardown => 5

/-- Bytes 0x00 to 0x1C of a PLAT_QUOTA entry (04 R103). -/
def Quota.bytes (q : Quota) : List Byte :=
  leBytes 4 q.frameBase ++ leBytes 4 q.frameCount ++ leBytes 4 q.sequences ++ leBytes 4 q.pages ++ leBytes 4 q.loftMib
    ++ leBytes 2 q.mangerSlots ++ leBytes 2 q.rings ++ leBytes 2 q.eyelets ++ leBytes 1 q.bays ++ leBytes 1 q.loftGrants
    ++ leBytes 1 q.mcastGroups

namespace State

/-- PDK_CONSENT (06 R190). -/
def consentReg (s : State) (p : Nat) : Nat := (s.pdk p).consent + (s.pdk p).serial * 2 ^ 16 + b2n (s.pdk p).ever * 2 ^ 32

/-- The 160 bytes of a paddock record as the paddock stands (06 R182). -/
def recordNow (s : State) (p : Nat) : List Byte :=
  let d := s.pdk p
  let (m, g) : BitVec 384 × BitVec 384 := match d.img with
    | some i => (i.meas, i.signer)
    | none => (0, 0)
  leBytes 1 (p + 1) ++ leBytes 1 (pdkCode d.st) ++ leBytes 1 (tdiCode (s.tdi p).st) ++ leBytes 1 0 ++ leBytes 4 d.gen
    ++ leBytes 48 m.toNat ++ leBytes 48 g.toNat ++ leBytes 8 (s.consentReg p) ++ (s.quota p).bytes ++ leBytes 3 0 ++ leBytes 16 0

/-- A paddock's record as it was last updated; before the first update it names the paddock and is zero otherwise (06 R182, R183). -/
def record (s : State) (p : Nat) : List Byte :=
  match tfind s.sec.records p with
  | some r => r
  | none => leBytes 1 (p + 1) ++ leBytes 159 0

/-- A paddock's record updated: at tenant commit, at a change of consent or of the TDI's state, and at the end of teardown (06 R183). Other
changes do not update it, so that its STATE is the one at the last update (log 71, DEDUCED). -/
def updRecord (s : State) (p : Nat) : State := { s with sec := { s.sec with records := tset s.sec.records p (s.recordNow p) } }

/-- A TDI's state changed, with the paddock's record (06 R183, R186). -/
def setTdi (s : State) (p : Nat) (f : Tdi → Tdi) : State := (s.modTdi p f).updRecord p

/-- Whether a function may read and write host memory: Bus Master Enable set and not in D3hot (03 R87). -/
def canMaster (s : State) (fn : Nat) : Bool := (s.fnCfg fn).bme && !(s.fnCfg fn).d3

/-- The next SQ entry is fetched: the ring enabled and idle, an entry ready, the paddock RUNNABLE or RUNNING (05 R134, R143, R146,
R152, R154). One entry is fetched at a time (log 15, DESIGN CHOICE). -/
def fetchNext (s : State) (p k : Nat) : State :=
  let r := s.ring p k
  if r.en && r.job.isNone && r.fetch.isNone && r.cpls.isEmpty && r.sqHead ≠ r.sqTail
      && ((s.pdk p).st = .runnable || (s.pdk p).st = .running) && s.canMaster (p + 1) then
    let t := s.hif.nextTag
    let s := s.hostRead (p + 1) (r.base + 64 * r.sqHead) 64 (.sqe p k)
    s.modRing p k (fun r => { r with fetch := some t, sqHead := (r.sqHead + 1) % 2 ^ r.sqLog })
  else s

/-- Rings of a paddock, by number. -/
def ringsOf (s : State) (p : Nat) : List Nat := (s.rings.filter (fun e => e.1 / 256 = p)).map (fun e => e.1 % 256)

/-- Every ring of a paddock fetches where it may. -/
def fetchAll (s : State) (p : Nat) : State := (s.ringsOf p).foldl (fun s k => s.fetchNext p k) s

/-- A host read or write of a ring failed: EN cleared, FAULT set, RING_FAULT raised, and no completion of the job that runs is written
(05 R142, R144). -/
def ringFault (s : State) (p k : Nat) : State :=
  (s.modRing p k (fun r =>
    let live := r.job.elim false (fun j => j.ph = .running || j.ph = .saved)
    { r with en := false, fault := true, mute := true, fetch := none, cpls := [], stopped := !live,
             job := if live then r.job else none, slot := if live then r.slot else none })).pdkEv p 4

end State

/-- The 32 bytes of a completion entry (05 R151). -/
def Cpl.bytes (c : Cpl) (phase : Bool) (ring : Nat) : List Byte :=
  leBytes 1 c.status ++ leBytes 1 (b2n phase + 2 * b2n c.interim + 4 * b2n c.late) ++ leBytes 2 c.tag ++ leBytes 2 c.sqHead
    ++ leBytes 1 ring ++ leBytes 1 0 ++ leBytes 8 c.startTs ++ leBytes 8 c.endTs ++ leBytes 4 c.detail ++ leBytes 4 c.result

namespace State

/-- A completion falls due. One that its function cannot write now is kept, and the event on its vector sets the pending bit (05 R472). -/
def pushCpl (s : State) (p k : Nat) (c : Cpl) : State :=
  let s := if c.irq && !s.canMaster (p + 1) then s.setPba (p + 1) (s.ring p k).vector else s
  s.modRing p k (fun r => { r with cpls := r.cpls ++ [c] })

/-- The ring's oldest due completion is written, if its function may write and the CQ has room; then its vector is sent if the entry
asked for it (05 R153, R154; log 16, DEDUCED). `ok`: the host write did not fail (05 R144). `kept`: it was kept while its function was held,
and its message is the one for the pending vector (05 R472). -/
def writeCpl (s : State) (p k : Nat) (ok kept : Bool) : State :=
  let r := s.ring p k
  match r.cpls with
  | [] => s
  | c :: rest =>
    if !s.canMaster (p + 1) then s
    else if (r.cqTail + 1) % 2 ^ r.cqLog = r.cqHead then s
    else if !ok then s.ringFault p k
    else
      let s := s.hostWrite (p + 1) (r.cq + 32 * r.cqTail) (c.bytes r.phase k)
      let t := (r.cqTail + 1) % 2 ^ r.cqLog
      let s := s.modRing p k (fun r =>
        { r with cqTail := t, phase := if t = 0 then !r.phase else r.phase, cpls := rest,
                 job := if c.interim then r.job else none,
                 stopped := if c.interim then r.stopped else !r.en,
                 slot := if c.interim || r.en then r.slot else none })
      let s := if !c.irq then s
        else if kept || (s.fnCfg (p + 1)).pba.contains (r.vector, true) then (s.setPba (p + 1) r.vector).msixFlush (p + 1)
        else s.msix (p + 1) r.vector
      s.fetchNext p k

/-- Completions of a ring written while they can be, at most `n`. -/
def writeCpls (s : State) (p k : Nat) : Nat → State
  | 0 => s
  | n + 1 => (s.writeCpl p k true true).writeCpls p k n

/-- What a function kept while it was held: the completion entries first, then one message for each pending vector (05 R472). -/
def releaseFn (s : State) (fn : Nat) : State :=
  let s := if fn = 0 then s
    else (s.ringsOf (fn - 1)).foldl (fun s k => s.writeCpls (fn - 1) k (s.ring (fn - 1) k).cpls.length) s
  s.msixFlush fn

/-- An entry that runs nothing completes with a status (05 R149). Its END_TS and RESULT are not stated (log 9, DESIGN CHOICE). -/
def completeEntry (s : State) (p k status tag : Nat) (irq : Bool) (sqHead : Nat) (dl : Option Nat) : State :=
  let (e, s) := s.openVal
  let (x, s) := s.openVal
  (s.modRing p k (fun r => { r with job := none })).pushCpl p k
    { status := status, tag := tag, irq := irq, sqHead := sqHead, endTs := e.toNat, result := x.toNat % 2 ^ 32,
      late := dl.elim false (fun d => d < e.toNat) }

/-- The doorbell timestamp of the ring's oldest ready entry, and the stamps without it (05 R146). -/
def popStamp : List (Nat × Nat) → Nat × List (Nat × Nat)
  | [] => (0, [])
  | (n, ts) :: t => if n ≤ 1 then (ts, t) else (ts, (n - 1, ts) :: t)

/-- A fetched submission entry is decoded: completed without running, or made a job that waits for its bays (05 R147-R149, R158;
log 17, DEDUCED: a malformed entry first, then NOP, zero bays, too many bays; log 75, DEDUCED: HAS_DL = 1 with DEADLINE_US = 0 is malformed
on a background ring too). -/
def takeEntry (s : State) (p k : Nat) (d : List Byte) : State :=
  let r := s.ring p k
  match r.fetch with
  | none => s
  | some _ =>
    let (ts, stamps) := popStamp r.stamps
    let s := s.modRing p k (fun r => { r with fetch := none, stamps := stamps })
    if (s.pdk p).st = .teardown || (s.pdk p).st = .empty then s
    else if !r.en then s.modRing p k (fun r => { r with stopped := true })
    else
      let kind := fieldAt d 0 1
      let fl := fieldAt d 1 1
      let tag := fieldAt d 2 2
      let bays := fieldAt d 4 1
      let us := fieldAt d 8 4
      let irq := bitAt fl 0
      let hasDl := bitAt fl 1
      let dlv := if r.bg then none else some (ts + (if hasDl then us else r.defUs) * 1000)
      if (kind ≠ 1 && kind ≠ 2) || fl ≥ 8 || !zeroAt d 5 3 || !zeroAt d 12 4 || (hasDl && us = 0) then
        s.completeEntry p k Status.imageInvalid tag irq r.sqHead dlv
      else if kind = 2 then s.completeEntry p k Status.ok tag irq r.sqHead dlv
      else if bays = 0 then s.completeEntry p k Status.okZero tag irq r.sqHead dlv
      else if bays > s.needBays p then s.completeEntry p k Status.resourceShort tag irq r.sqHead dlv
      else
        s.modRing p k (fun r =>
          let j : Job := { irq := irq, notify := bitAt fl 2, tag := tag, bays := bays, bg := r.bg, dl := dlv.getD 0,
                           sqHead := r.sqHead,
                           args := (List.range 6).map (fun i => BitVec.ofNat 64 (fieldAt d (16 + 8 * i) 8)) }
          { r with job := some j })

/-! ### Placing jobs (05 R136, R137, R159-R163) -/

/-- The job of a ring changed. -/
def modJob (s : State) (p k : Nat) (f : Job → Job) : State := s.modRing p k (fun r => { r with job := r.job.map f })

/-- Save slots of a paddock that started jobs hold (05 R137). -/
def usedSlots (s : State) (p : Nat) : List Nat :=
  ((s.ringsOf p).map (fun k => match (s.ring p k).job with
    | some j => j.slots
    | none => [])).flatten

/-- Free save slots of a paddock, ascending (05 R137). -/
def freeSlots (s : State) (p : Nat) : List Nat := (List.range (s.needBays p)).filter (fun j => !(s.usedSlots p).contains j)

/-- Bays reserved for a job. -/
def reserved (s : State) (p k : Nat) : List Nat :=
  (List.range 16).filter (fun b => match (s.bay b).next with
    | some (p', k', _) => p' = p && k' = k
    | none => false)

/-- BAYS of the paddock's other jobs that have not started and that bays are held for: with the started jobs' they stay within its need
(05 R136). -/
def promised (s : State) (p k : Nat) : Nat :=
  ((s.ringsOf p).map (fun q => match (s.ring p q).job with
    | some j => if q ≠ k && j.ph = .waiting && !(s.reserved p q).isEmpty then j.bays else 0
    | none => 0)).foldl (· + ·) 0

/-- Whether a ring's job competes for bays: waiting or saved, its paddock RUNNABLE or RUNNING, save slots enough, no completion held
(05 R136, R137, R143, R154, R159). -/
def eligible (s : State) (p k : Nat) : Bool :=
  let r := s.ring p k
  ((s.pdk p).st = .runnable || (s.pdk p).st = .running) &&
  match r.job with
  | some j => (j.ph = .waiting && r.en && r.cpls.isEmpty && j.bays + s.promised p k ≤ (s.freeSlots p).length) || j.ph = .saved
  | none => false

/-- Whether a bay is in service for the scheduler (05 R163, 06 R198). -/
def inService (s : State) (b : Nat) : Bool :=
  let x := s.bay b
  x.unit_ = .online && x.powered && !x.pendOff && s.dev.phase = .ready

/-- Whether a bay's paddock is being torn down: the bay stays its own until step 5 (05 R170). -/
def tearing (s : State) (b : Nat) : Bool := (s.bay b).holder.elim false (fun p => (s.pdk p).st = .teardown)

/-- Whether a bay holds no job and may be taken (05 R161). -/
def takeable (s : State) (b : Nat) : Bool :=
  let x := s.bay b
  s.inService b && x.job.isNone && x.stopping.isNone && !s.tearing b

/-- The job that runs on a bay. -/
def jobOn (s : State) (b : Nat) : Option Job :=
  match (s.bay b).job with
  | some (p, k) => (s.ring p k).job
  | none => none

/-- Whether a waiting job may take a bay from the job that runs on it, once its slice is over (05 R161). -/
def mayPreempt (s : State) (j : Job) (b : Nat) : Bool :=
  s.inService b && (s.bay b).stopping.isNone &&
  match s.jobOn b with
  | some r => r.ph = .running && (r.bg || (!j.bg && j.dl < r.dl))
  | none => false

/-- Whether a bay reserved for logical bay i of a job is ready for it: held by its paddock, idle, and prepared by a bay switch, or for
a job that has not started, idle and held since the paddock's earlier work (05 R148, R162, R168). -/
def bayReady (s : State) (p : Nat) (j : Job) (b : Nat) : Bool :=
  let x := s.bay b
  s.inService b && x.holder = some p && x.job.isNone && x.stopping.isNone && (x.prepared || (j.ph = .waiting && j.slots.isEmpty))

/-- The core state at job start (05 R148, 07 R206): START and the program, the arguments in x16 to x21, x22. -/
def startCore (e : Entry) (args : List Word) (x22 : Bool) (c : Core) : Core :=
  let x := (List.range 6).foldl (fun t i => tset t (16 + i) (args.getD i 0)) c.x
  { c with x := tset x 22 (if x22 then 1 else 0), pc := e.start, program := e.program, running := true, ended := false,
           ending := false, fault := 0, beats := 0, xfer := none, gather := [], queue := [], cause := none, claimWait := 0,
           claimVal := none, late := false, mac := none, macRes := none }

/-- A job whose bays are all ready starts on them, or goes on where it was saved (05 R148, R160; 07 R206). -/
def startJob (s : State) (p k : Nat) : State :=
  let r := s.ring p k
  match r.job, (s.pdk p).img with
  | some j, some img =>
    let bs := s.reserved p k
    if bs.length = j.bays && bs.all (s.bayReady p j) && s.eligible p k then
      let e := (img.entries.find? (fun e => e.ring = k)).getD { ring := k, program := 0, start := 0 }
      let fresh := j.ph = .waiting
      let lost := bs.any (fun b => (s.bay b).lossMark)
      let s := bs.foldl (fun s b =>
        let i := match (s.bay b).next with
          | some (_, _, i) => i
          | none => 0
        let x22 := (s.bay b).resident
        let s := (coresOf b).foldl (fun s n => s.modCore n (fun c =>
          if fresh then startCore e j.args x22 c else { c with running := !c.ended, late := false })) s
        s.modBay b (fun x => { x with job := some (p, k), lbay := i, next := none, prepared := false, resident := false,
                                      sliceDone := false, lossMark := false })) s
      let slots := if fresh then (s.freeSlots p).take j.bays else j.slots
      (s.modJob p k (fun j => { j with
        ph := .running, slots := slots, sealedCtr := none,
        endWith := if lost then some Status.rowRetired else j.endWith, lays := (List.range j.bays).map (fun i =>
          (bs.find? (fun b => (s.bay b).lbay = i)).getD 0) })).settlePdk p
    else s
  | _, _ => s

/-- Whether a reason for stopping withdraws the job's cores (05 R155, 06 R199). -/
def withdraws : StopWhy → Bool
  | .powerDown => true
  | .trip => true
  | _ => false

/-- Whether a reason for stopping takes the bay out of service. -/
def leavesService : StopWhy → Bool
  | .powerDown => true
  | .test => true
  | .quarantine => true
  | _ => false

/-- The reason that a stopping bay keeps when a further one comes: one that takes it out of service stands over the others. -/
def joinWhy (old : Option StopWhy) (why : StopWhy) : StopWhy :=
  match old with
  | none => why
  | some w => if leavesService why then why else w

/-- A bay's job is to stop: the bay takes the reason, and the other bays of the same job stop with it, since a job runs only while it
holds all its bays (05 R160, R164; log 77, DEDUCED). A withdrawal seals the whole job (02 R62, 06 R198). -/
def stopBay (s : State) (b : Nat) (why : StopWhy) : State :=
  match (s.bay b).job with
  | none => s.modBay b (fun x => { x with stopping := some (joinWhy x.stopping why), stopped := true, next := none, prepared := false })
  | some jb =>
    (List.range 16).foldl (fun s c =>
      if (s.bay c).job = some jb then
        s.modBay c (fun x => { x with stopping := some (joinWhy x.stopping (if c = b then why else .preempt))
                                      withdrawn := x.withdrawn || withdraws why })
      else s) s

/-- Nearest deadline and tie, or the background turn: the ring slot order of R159 from a pointer. -/
def fromPointer (ptr slot : Nat) : Nat := (slot + 256 - ptr % 256) % 256

/-- The candidate that comes first in the order of R159, and whether a tie was decided by the pointer. A job that bays are held for
keeps its turn (log 18, DEDUCED). -/
def firstOf (s : State) (cs : List (Nat × Nat)) : Option (Nat × Nat × Bool) :=
  let job (c : Nat × Nat) : Job := ((s.ring c.1 c.2).job).getD {}
  let slot (c : Nat × Nat) : Nat := ((s.ring c.1 c.2).slot).getD 0
  let held (c : Nat × Nat) : Bool := !(s.reserved c.1 c.2).isEmpty
  let dls := cs.filter (fun c => !(job c).bg)
  let pool := if dls.isEmpty then cs else
    let m := dls.foldl (fun m c => min m (job c).dl) ((dls.head?.map (fun c => (job c).dl)).getD 0)
    dls.filter (fun c => (job c).dl = m)
  let ptr := if dls.isEmpty then s.sch.rrBg else s.sch.rrDl
  match pool.find? held with
  | some c => some (c.1, c.2, false)
  | none =>
    match pool with
    | [] => none
    | c :: t =>
      let w := t.foldl (fun w c => if fromPointer ptr (slot c) < fromPointer ptr (slot w) then c else w) c
      some (w.1, w.2, !t.isEmpty || dls.isEmpty)

/-- Bays given to a job in the model's order (log 19, DESIGN CHOICE): idle ones of its own paddock, other free or idle ones, those whose job may be
preempted now, those whose job's slice still runs. -/
def pickBays (s : State) (p : Nat) (j : Job) (taken : List Nat) : List Nat :=
  let all := (List.range 16).filter (fun b => !taken.contains b)
  let free := all.filter s.takeable
  let own := free.filter (fun b => (s.bay b).holder = some p)
  let rest := free.filter (fun b => (s.bay b).holder ≠ some p)
  let pre := all.filter (s.mayPreempt j)
  own ++ rest ++ pre.filter (fun b => (s.bay b).sliceDone) ++ pre.filter (fun b => !(s.bay b).sliceDone)

/-- A bay's reservation dropped. -/
def unreserve (s : State) (b : Nat) : State := s.modBay b (fun x => { x with next := none, prepared := false })

/-- The round-robin pointer moves past the ring that won a tie, or took the background turn (05 R159). -/
def turn (s : State) (p k : Nat) (j : Job) : State :=
  let next := (((s.ring p k).slot).getD 0 + 1) % 256
  if j.bg then { s with sch := { s.sch with rrBg := next } } else { s with sch := { s.sch with rrDl := next } }

/-- One job of the order gets its bays, as far as it can, and starts when it has them all (05 R159-R161). `taken` are bays of earlier jobs;
`lim` the bays that a later job may take. A bay held for it whose job is still in its slice gives way to one that has become free. Logical
bays: those already held keep theirs, the others take the free ones in ascending order. -/
def placeOne (s : State) (p k : Nat) (j : Job) (taken : List Nat) (lim : Option (List Nat)) : State × List Nat :=
  let keep := (s.reserved p k).filter (fun b => !taken.contains b && ((s.bay b).job.isNone || (s.bay b).stopping.isSome))
  let s := ((s.reserved p k).filter (fun b => !keep.contains b)).foldl unreserve s
  let more := (s.pickBays p j taken).filter (fun b => !keep.contains b && lim.elim true (·.contains b))
  let bs := (keep ++ more).take j.bays
  let used := keep.filterMap (fun b => (s.bay b).next.map (fun e => e.2.2))
  let open_ := (List.range j.bays).filter (fun i => !used.contains i)
  let s := ((bs.filter (fun b => !keep.contains b)).zip open_).foldl (fun s e =>
    s.modBay e.1 (fun x => { x with next := some (p, k, e.2), prepared := false })) s
  let s := bs.foldl (fun s b => if (s.bay b).sliceDone && (s.mayPreempt j b) then s.stopBay b .preempt else s) s
  (s.startJob p k, bs)

/-- The first job of the order cannot start: each bay that becomes free or preemptible from now on is held for it. What later jobs may take
is what was free or preemptible when it became so, and still is (05 R160). -/
def holdFor (s : State) (p k : Nat) (j : Job) : State × List Nat :=
  let now (b : Nat) : Bool := s.takeable b || (s.mayPreempt j b && (s.bay b).sliceDone)
  let l := (if s.sch.first = some (p, k) then s.sch.others else List.range 16).filter now
  ({ s with sch := { s.sch with first := some (p, k), others := l } }, l)

/-- The scheduler's decision over candidates in order (05 R159-R161). `lim` is none while every earlier job has started. A later job is
looked at only when the one before it has all its bays. -/
def place (s : State) : Nat → List (Nat × Nat) → List Nat → Option (List Nat) → State
  | 0, _, _, _ => s
  | n + 1, cs, taken, lim =>
    let cs := cs.filter (fun c => s.eligible c.1 c.2)
    match s.firstOf cs with
    | none => if lim.isNone then { s with sch := { s.sch with first := none, others := [] } } else s
    | some (p, k, tied) =>
      match (s.ring p k).job with
      | none => s
      | some j =>
        let (s, bs) := (if tied then s.turn p k j else s).placeOne p k j taken lim
        let (s, lim) : State × Option (List Nat) := match lim with
          | some l => ({ s with sch := { s.sch with others := s.sch.others.filter (fun b => !bs.contains b) } }, some l)
          | none => if (s.ring p k).job.elim false (fun j => j.ph = .running) then (s, none)
                    else let r := s.holdFor p k j; (r.1, some r.2)
        if bs.length = j.bays then s.place n (cs.filter (· ≠ (p, k))) (taken ++ bs) lim else s

/-- Every eligible job of the device, as paddock and ring. -/
def candidates (s : State) : List (Nat × Nat) :=
  (s.rings.map (fun e => (e.1 / 256, e.1 % 256))).filter (fun c => s.eligible c.1 c.2)

/-- Reservations that no longer stand, of jobs that no longer compete or for bays out of service, are dropped. -/
def dropHolds (s : State) : State :=
  (List.range 16).foldl (fun s b => match (s.bay b).next with
    | some (p, k, _) => if s.eligible p k && s.inService b then s else s.unreserve b
    | none => s) s

/-! ### Stopping and saving (05 R155, R164, R165, 06 R198-R200) -/

/-- First package frame of a paddock's save slot j, by which its record is held: slot j uses frames F − 19(j + 1) to F − 19j − 1 of the
paddock (05 R137). -/
def slotFrame (s : State) (p j : Nat) : Nat := (s.quota p).frameBase + (s.quota p).frameCount - 19 * (j + 1)

/-- The key that a paddock's save records are sealed under (06 R174, R200). -/
def sealKey (s : State) (p : Nat) : BitVec 256 := Config.derivedKey ((s.pdk p).rootKey.getD 0) 0

/-- The tag of a save record of a job's logical bay i in slot j (06 R200). -/
def recordTag (s : State) (p j i : Nat) (r : SaveRec) : BitVec 128 :=
  Config.sealTag (s.sealKey p) (p + 1) j i (r.sealedCtr.getD 0) { r with tag := 0 }

/-- Whether every bay of a job has been saved: none still holds it. -/
def jobLeft (s : State) (p k : Nat) : Bool := (List.range 16).any (fun b => (s.bay b).job = some (p, k))

/-- The interim completion of a job that was stopped and saved (05 R155): RESOURCE_WITHDRAWN where a power-down or trip took its
cores, PREEMPTED where the entry asked to be notified. Its END_TS is the time of the stop; its RESULT is not stated (05 R151; log 9, DESIGN
CHOICE). -/
def interim (s : State) (p k : Nat) (withdrawn : Bool) : State :=
  match (s.ring p k).job with
  | none => s
  | some j =>
    if (withdrawn || j.notify) && !(s.ring p k).mute then
      let (x, s) := s.openVal
      s.pushCpl p k { status := if withdrawn then Status.resourceWithdrawn else Status.preempted, interim := true, tag := j.tag, irq := j.irq,
                      sqHead := j.sqHead, startTs := j.startTs, endTs := j.stopTs, late := !j.bg && j.dl < j.stopTs,
                      result := x.toNat % 2 ^ 32 }
    else s

/-- The save record of a stopped bay written into the job's slot for its logical bay; sealed under the paddock's next withdrawal
counter where the cores are withdrawn, one counter for all bays of the job (05 R137, R165; 06 R198, R200; log 22, DESIGN CHOICE). -/
def saveBay (s : State) (b : Nat) : State :=
  match (s.bay b).job, (s.bay b).stopping with
  | some (p, k), some why =>
    match (s.ring p k).job with
    | none => s
    | some j =>
      let taken := withdraws why || (s.bay b).withdrawn
      let ctr := match j.sealedCtr with
        | some c => c
        | none => (s.pdk p).withdraw + 1
      let s := if taken then s.modPdk p (fun d => { d with withdraw := max d.withdraw ctr }) else s
      let x := s.bay b
      let slot := j.slots.getD x.lbay 0
      let r : SaveRec := { cores := (coresOf b).map (fun n => (n % 16, s.core n)), claims := x.claims, hq := x.hq, rr := x.rr,
                           folds := x.folds, sealedCtr := if taken then some ctr else none, loss := x.lossMark }
      let r : SaveRec := if taken then { r with tag := s.recordTag p slot x.lbay r } else r
      let s : State := { s with saves := tset s.saves (s.slotFrame p slot) r }
      let s := (s.saveTraffic true (s.slotFrame p slot)).modBay b (fun x => { x with job := none, withdrawn := false })
      let s := s.modJob p k (fun j => { j with sealedCtr := if taken then some ctr else j.sealedCtr })
      let s := if taken then s.pdkEv p 5 else s
      if s.jobLeft p k then s
      else
        let s := s.modJob p k (fun j => { j with ph := .saved, lays := [] })
        let w := (s.ring p k).job.elim false (fun j => j.sealedCtr.isSome)
        let s := if w then s.schEv 2 p else s
        s.interim p k w
  | _, _ => s

/-- A save record's cores placed on a bay's cores (05 R165 step 4). The health of each scratchpad stays with the core. -/
def restoreCores (s : State) (b : Nat) (r : SaveRec) : State :=
  let s := (coresOf b).foldl (fun s n => s.modCore n (fun c =>
    let v := tget ({} : Core) r.cores (n % 16)
    { v with spares := c.spares, ce := c.ce, ue := c.ue, marked := c.marked, corrected := c.corrected, patrol := c.patrol,
             issued := c.issued, dirty := [], running := false })) s
  s.modBay b (fun x => { x with claims := r.claims, hq := r.hq, rr := r.rr, folds := r.folds })

/-- The low 32 bits of x16 of core 0 of a job's logical bay 0, on its bay or in its save record (05 R151). -/
def jobResult (s : State) (p k : Nat) (j : Job) : Nat :=
  let c : Core := match (List.range 16).find? (fun b => (s.bay b).job = some (p, k) && (s.bay b).lbay = 0) with
    | some b => s.core (16 * b)
    | none => match j.slots with
      | sl :: _ => tget {} (tget ({} : SaveRec) s.saves (s.slotFrame p sl)).cores 0
      | [] => {}
  (tget 0 c.x 16).toNat % 2 ^ 32

/-- A job's final completion falls due (05 R151); a ring stopped by a failed host access writes none (05 R144). Its open posts have lost
their posting core (15 R436). -/
def finishJob (s : State) (p k : Nat) (j : Job) : State :=
  let ps := s.fab.posts.map (fun x => if x.pdk = p && x.ring = k then { x with gone := true } else x)
  let s : State := { s with fab := { s.fab with posts := ps } }
  if (s.ring p k).mute then s.modRing p k (fun r => { r with job := none, stopped := !r.en, slot := if r.en then r.slot else none })
  else (s.modRing p k (fun r => { r with job := some { j with ph := .done } })).pushCpl p k
    { status := j.status, tag := j.tag, irq := j.irq, sqHead := j.sqHead, startTs := j.startTs,
      endTs := j.endTs, late := !j.bg && j.dl < j.endTs, detail := j.detail, result := j.result }

/-- A saved job ends with a status before it goes on: a sealed record that fails its check (06 R200), a loss marked in the record
(09 R287). -/
def endSaved (s : State) (p k status : Nat) : State :=
  let s := (s.reserved p k).foldl unreserve s
  match (s.ring p k).job with
  | some j => s.finishJob p k { j with status := status, result := s.jobResult p k j }
  | none => s

/-- A bay leaves its paddock (05 R133, R134). -/
def freeBay (s : State) (b : Nat) : State :=
  let h := (s.bay b).holder
  let s := s.modBay b (fun x => { x with holder := none, job := none, stopping := none, withdrawn := false, stopped := false,
                                         resident := false })
  match h with
  | some p => s.settlePdk p
  | none => s

/-- A stopped bay saved, scrubbed and released by its paddock (05 R165 steps 2 and 3); a bay on its way out of service waits for the
next command of its kind, and a bay of a paddock in TEARDOWN for step 5 of the teardown (05 R170, R172). -/
def evacuate (s : State) (b : Nat) : State :=
  let x := s.bay b
  if x.stopping.isSome && x.stopped && !s.tearing b then
    let why := x.stopping
    let s := ((s.saveBay b).scrubBay b).freeBay b
    let s := s.modBay b (fun x => { x with scrubbed := true })
    if why = some .quarantine then s.setUnit (.bay (Fin.ofNat 16 b)) .quarantined else s
  else s

/-- The incoming job's state placed on a scrubbed bay (05 R165 steps 3 to 5), with the checks of a sealed record (06 R200) and of a
marked loss (09 R287). A bay that the job's paddock holds already and that the job starts on is not scrubbed (05 R168). A paddock that
holds its need already, or that may not run, takes no further bay (05 R134, R136). -/
def bringIn (s : State) (b : Nat) : State :=
  match (s.bay b).next with
  | none => s
  | some (p, k, i) =>
    if (s.bay b).prepared || !s.takeable b then s
    else if !s.eligible p k then s.unreserve b
    else if (s.bay b).holder ≠ some p && s.needBays p ≤ (s.baysOf p).length then s
    else match (s.ring p k).job with
    | none => s
    | some j =>
      let old := (s.bay b).holder
      if old = some p && j.ph = .waiting then s.startJob p k
      else
      let loss := (s.bay b).lossMark && old = some p
      let s := if (s.bay b).scrubbed then s else s.scrubBay b
      let s := s.modBay b (fun x => { x with holder := some p, scrubbed := false, lossMark := loss })
      let s := match old with
        | some q => if q = p then s else s.settlePdk q
        | none => s
      let s := s.settlePdk p
      if j.ph = .saved then
        let slot := j.slots.getD i 0
        let r : SaveRec := tget {} s.saves (s.slotFrame p slot)
        let s := s.saveTraffic false (s.slotFrame p slot)
        let good := match r.sealedCtr with
          | some c => r.tag = s.recordTag p slot i r && j.sealedCtr = some c
          | none => true
        if !good then ({ s with saves := tdel s.saves (s.slotFrame p slot) } : State).endSaved p k Status.internal
        else if r.loss then s.endSaved p k Status.rowRetired
        else ((s.restoreCores b r).modBay b (fun x => { x with prepared := true })).startJob p k
      else (s.modBay b (fun x => { x with prepared := true })).startJob p k

/-! ### Suspension (05 R133-R135) -/

/-- Every bay of a paddock stops for a suspension, its idle bays at once, and no bay is held for its jobs any more (05 R134). -/
def suspendBays (s : State) (p : Nat) (why : StopWhy) : State :=
  let s := (List.range 16).foldl (fun s b => if (s.bay b).next.elim false (fun e => e.1 = p) then s.unreserve b else s) s
  (s.baysOf p).foldl (fun s b => s.stopBay b why) s

/-- A cause of suspension begins: a RUNNABLE or RUNNING paddock becomes SUSPENDED; one already SUSPENDED gains the cause, and what it is
still stopping is sealed where the cause withdraws its cores (02 R62; 05 R133-R135; log 20, DEDUCED for the other states). -/
def suspendFor (s : State) (p : Nat) (f : Susp → Susp) (why : StopWhy) : State :=
  match (s.pdk p).st with
  | .runnable | .running =>
    ((s.modPdk p (fun d => { d with susp := f d.susp })).suspendBays p why).setPdkSt p .suspended
  | .suspended =>
    let s := s.modPdk p (fun d => { d with susp := f d.susp })
    if withdraws why then s.suspendBays p why else s
  | _ => s

/-- A cause of suspension ends; with the last one the paddock becomes RUNNABLE and its recorded doorbells are acted on (05 R133,
R134). -/
def resumeFor (s : State) (p : Nat) (f : Susp → Susp) : State :=
  if (s.pdk p).st = .suspended then
    let s := s.modPdk p (fun d => { d with susp := f d.susp })
    if (s.pdk p).susp.any then s else ((s.setPdkSt p .runnable).settlePdk p).fetchAll p
  else s

end State

/-! ### The commands -/

/-- SUSPEND (05 R133-R135). -/
def execSuspend (p : PdkId) (s : State) : Res := .next (s.suspendFor p.val (fun u => { u with op := true }) .suspend)

/-- RESUME (05 R133-R135). -/
def execResume (p : PdkId) (s : State) : Res := .next (s.resumeFor p.val (fun u => { u with op := false }))

/-- The value that a write of RING_CFG sets in a ring's fields (05 PDK_RING_CFG). -/
def ringCfg (r : Ring) (v : Nat) : Ring :=
  { r with sqLog := bits v 4 0, cqLog := bits v 12 8, bg := bitAt v 16, vector := bits v 28 24, defUs := bits v 63 32 }

namespace State

/-- Lowest free ring slot of a paddock's block (05 R142). -/
def ringSlot (s : State) (p : Nat) : Option Nat :=
  let base := ((List.range p).map (fun q => (s.quota q).rings)).foldl (· + ·) 0
  let used := (s.rings.filter (fun e => e.1 / 256 = p)).filterMap (fun e => e.2.slot)
  ((List.range (s.quota p).rings).map (· + base)).find? (fun x => !used.contains x)

/-- Whether an enable of ring k with these fields is accepted (05 R141). -/
def enableOk (s : State) (p k : Nat) (r : Ring) : Bool :=
  match (s.pdk p).img with
  | none => false
  | some img =>
    ((s.pdk p).st = .runnable || (s.pdk p).st = .running) && img.entries.any (fun e => e.ring = k)
      && ((s.ringsOf p).filter (fun q => q ≠ k && (s.ring p q).en)).length + 1 ≤ img.needs.rings
      && 4 ≤ r.sqLog && r.sqLog ≤ 16 && 4 ≤ r.cqLog && r.cqLog ≤ 16 && 1 ≤ r.vector && r.vector ≤ 27
      && r.base % 4096 = 0 && r.cq % 4096 = 0 && (r.bg || 1 ≤ r.defUs)

/-- A write of RING_CFG with EN = 1 to the selected ring (05 R140-R142). A ring that is still finishing its last job is not enabled
again, nor one for which no slot of the block is free yet (log 21, DESIGN CHOICE). -/
def ringEnable (s : State) (p v : Nat) : State :=
  let k := (s.pdk p).ringSel
  let r := s.ring p k
  if r.en then s
  else
    let r' := ringCfg r v
    match s.ringSlot p, s.enableOk p k r' && r.job.isNone && r.cpls.isEmpty && r.fetch.isNone with
    | some sl, true =>
      s.modRing p k (fun _ => { r' with en := true, slot := some (r.slot.getD sl), sqHead := 0, sqTail := 0, cqTail := 0, cqHead := 0,
                                        phase := true, stopped := false, stamps := [], mute := false })
    | _, _ => s.modRing p k (fun _ => { r' with refused := true })

/-- A write of RING_CFG with EN = 0 to the selected ring (05 R141-R143). -/
def ringDisable (s : State) (p v : Nat) : State :=
  let k := (s.pdk p).ringSel
  let r := s.ring p k
  if !r.en then s.modRing p k (fun r => ringCfg r v)
  else
    let live := match r.job with
      | some j => j.ph ≠ .waiting
      | none => !r.cpls.isEmpty
    s.modRing p k (fun r => { r with en := false, fetch := none, job := if live then r.job else none,
                                                 stopped := !live, slot := if live then r.slot else none })

end State

/-- RING_ENABLE (05 R136, R140-R142). -/
def execRingEnable (p : PdkId) (val : Word) (ide : Option Nat) (s : State) : Res :=
  .next (s.vfWrite p.val 0x110 ide (fun s => s.ringEnable p.val val.toNat))

/-- RING_DISABLE (05 R142, R143). -/
def execRingDisable (p : PdkId) (val : Word) (ide : Option Nat) (s : State) : Res :=
  .next (s.vfWrite p.val 0x110 ide (fun s => s.ringDisable p.val val.toNat))

namespace State

/-- A write of SQ_TAIL (05 R134, R145, R146, R172). During TEARDOWN it is ignored and leaves DB_BAD as it is (log 76, DEDUCED). -/
def sqTailWrite (s : State) (p k v : Nat) : State :=
  let r := s.ring p k
  if (s.pdk p).st = .teardown then s
  else if !r.en || v ≥ 2 ^ r.sqLog then s.modRing p k (fun r => { r with dbBad := true })
  else
    let n := 2 ^ r.sqLog
    let had := (r.sqTail + n - r.sqHead) % n
    let now := (v + n - r.sqHead) % n
    if now ≤ had then s
    else (s.modRing p k (fun r => { r with sqTail := v, stamps := r.stamps ++ [(now - had, s.dev.tsc.toNat)] })).fetchNext p k

/-- A write of CQ_HEAD (05 R145, R154, R172). -/
def cqHeadWrite (s : State) (p k v : Nat) : State :=
  let r := s.ring p k
  let n := 2 ^ r.cqLog
  if (s.pdk p).st = .teardown then s
  else if !r.en || v ≥ n || (v + n - r.cqHead) % n > (r.cqTail + n - r.cqHead) % n then
    s.modRing p k (fun r => { r with dbBad := true })
  else s.modRing p k (fun r => { r with cqHead := v })

end State

/-- SQ_TAIL_DOORBELL (05 R134, R145, R146, R172). -/
def execSqTailDoorbell (p : PdkId) (k : Fin 256) (val : BitVec 16) (ide : Option Nat) (s : State) : Res :=
  .next (s.vfWrite p.val (0x100000 + k.val * 0x1000) ide (fun s => s.sqTailWrite p.val k.val val.toNat))

/-- CQ_HEAD_DOORBELL (05 R145, R154, R172). -/
def execCqHeadDoorbell (p : PdkId) (k : Fin 256) (val : BitVec 16) (ide : Option Nat) (s : State) : Res :=
  .next (s.vfWrite p.val (0x100008 + k.val * 0x1000) ide (fun s => s.cqHeadWrite p.val k.val val.toNat))

/-- SQ_ENTRY (05 R146-R149, R158). -/
def execSqEntry (p : PdkId) (k : Fin 256) (data : List Byte) (s : State) : Res :=
  .next (match (s.ring p.val k.val).fetch with
    | none => s
    | some t => ({ s with hif := { s.hif with reads := tdel s.hif.reads t } } : State).takeEntry p.val k.val data)

/-- BAY_SWITCH (05 R165-R167; 06 R198, R200): the stopped job is saved, the bay scrubbed, and the incoming job brought in. -/
def execBaySwitch (b : BayId) (s : State) : Res := .next ((s.evacuate b.val).bringIn b.val)

/-- SCHEDULE_DECISION (05 R136, R137, R148, R159-R163). -/
def execScheduleDecision (s : State) : Res :=
  let s := s.dropHolds
  .next (s.place (s.candidates.length + 1) s.candidates [] none)

/-- SLICE_EXPIRY (05 R161): the minimum slice of the job on a bay is over. -/
def execSliceExpiry (b : BayId) (s : State) : Res :=
  .next (if (s.bay b.val).job.isSome then s.modBay b.val (fun x => { x with sliceDone := true }) else s)

/-- COMPLETION_WRITE (05 R143, R144, R151-R155, R472). -/
def execCompletionWrite (p : PdkId) (k : Fin 256) (ok : Bool) (s : State) : Res := .next (s.writeCpl p.val k.val ok false)

end Sys2Proof.Machine
end

