-- ==== Sys2Proof/Machine/CoreOps.lean ====
section
/-! DEFINITION. What a core's beat does to operations in flight, how a core faults, and how a job's work comes to rest (07 R229-R236,
09 R268-R273). -/

namespace Sys2Proof.Machine

/-- A whole row written; a pending ECC write-back of it is dropped (09 R266, R284). -/
def Core.setRow (c : Core) (r : Nat) (v : Row) : Core := { c with spad := tset c.spad r v, dirty := c.dirty.filter (· != r) }

/-- An accumulator row written. -/
def Core.setAccRow (c : Core) (r : Nat) (v : Row) : Core := { c with acc := tset c.acc r v }

/-- An operation put in flight for `l` beats (07 R229). -/
def Core.fly (c : Core) (l : Nat) (a : Act) : Core := { c with flight := c.flight ++ [{ left := l, act := a }] }

/-- Hoop h (09 R274). -/
def Core.hoop (c : Core) (h : Nat) : Hoop := tget {} c.hoops h
/-- A Hoop changed. -/
def Core.modHoop (c : Core) (h : Nat) (f : Hoop → Hoop) : Core := { c with hoops := tmod {} c.hoops h f }
/-- Stream st (10 R292). -/
def Core.strm (c : Core) (st : Nat) : Strm := tget {} c.strms st
/-- A stream changed. -/
def Core.modStrm (c : Core) (st : Nat) (f : Strm → Strm) : Core := { c with strms := tmod {} c.strms st f }

/-- An act whose beats are up, on the core itself. -/
def Core.apply (c : Core) : Act → Core
  | .setX r v => c.wrX r v
  | .setA r v => { c with a := tset c.a r v }
  | .setW r v => { c with w := tset c.w r v }
  | .setAcc r v => c.setAccRow r v
  | .writeSpad r v => c.setRow r v
  | .hoopA h => c.modHoop h (fun x => { x with a := x.a + 1 })
  | .hoopO h n => c.modHoop h (fun x => { x with o := x.o - n })
  | .satFlag => { c with intSat := true }
  | .semLocal ctr cnt => c.semLand ctr cnt
  | _ => c

/-- One beat nearer its end; a row read that reaches its bank becomes the write of what it read (09 R269, R273). -/
def Core.advance (c : Core) (f : Flight) : Flight :=
  let l := f.left - 1
  if l ≠ 0 then { f with left := l }
  else match f.act with
    | .readSpad w row => { left := 3, act := .setW w (c.rowAt row) }
    | .readCopy dst src => { left := 6, act := .writeSpad dst (c.rowAt src) }
    | _ => { f with left := 0 }

/-- One beat of a core's in-flight operations: reads first, then the acts that are due, in order of issue (07 R229, R230; 09 R269). -/
def Core.tick (c : Core) : Core :=
  let fl := c.flight.map c.advance
  let c := { c with flight := fl.filter (fun f => f.left ≠ 0)
                    banks := (c.banks.map (fun b => { b with left := b.left - 1 })).filter (fun b => b.left ≠ 0) }
  (fl.filter (fun f => f.left = 0)).foldl (fun c f => c.apply f.act) c

/-- Handles that land on the bay's queues in the core's next beat (10 R313). -/
def Core.landing (c : Core) : List (Nat × BitVec 16) :=
  c.flight.filterMap (fun f => match f.act with
    | .hqLand q h => if f.left = 1 then some (q, h) else none
    | _ => none)

/-- Whether an agent may deliver `n` rows into Hoop h: enabled, with room (09 R278). -/
def Core.hoopRoom (c : Core) (h n : Nat) : Bool := (c.hoop h).size ≠ 0 && (c.hoop h).o + n ≤ (c.hoop h).size

/-- An agent's row delivered into Hoop h: written at TAIL, with TAIL, O and A advanced (09 R278). -/
def Core.hoopDeliver (c : Core) (h : Nat) (v : Row) : Core :=
  let x := c.hoop h
  (c.setRow ((x.base + x.tail) % 4096) v).modHoop h (fun x => { x with tail := (x.tail + 1) % x.size, o := x.o + 1, a := x.a + 1 })

/-- An arrival counter advanced by `n` rows (09 R280, R282). -/
def Core.arrive (c : Core) (k n : Nat) : Core := { c with arr := tmod 0 c.arr k (fun v => arrAdd v n) }

namespace State

/-- A handle enters a queue (10 R313). -/
def hqEnter (s : State) (b q : Nat) (h : BitVec 16) : State :=
  s.modBay b (fun x => { x with hq := tmod [] x.hq q (fun l => l ++ [h]) })

/-- One beat of core n's in-flight operations. -/
def tickCore (s : State) (n : Nat) : State :=
  let hs := (s.core n).landing
  hs.foldl (fun s e => s.hqEnter (n / 16) e.1 e.2) (s.modCore n Core.tick)

/-- Beats until nothing of a core is in flight: at most the longest one left, and the 6 or 9 beats that a read adds. -/
def settleBeats (c : Core) : Nat := c.flight.foldl (fun m f => max m (f.left + 6)) 0

/-- `m` beats of a core's in-flight operations. -/
def tickMany (s : State) (n : Nat) : Nat → State
  | 0 => s
  | m + 1 => (s.tickCore n).tickMany n m

/-- Every operation of a core in flight completes (07 R232, R235). -/
def settleCore (s : State) (n : Nat) : State := s.tickMany n (settleBeats (s.core n))

/-- The running job that core n belongs to: it issues only while the job runs and has met no fault. -/
def liveJob (s : State) (n : Nat) : Option (Nat × Nat × Job) :=
  if (s.core n).running then
    match (s.bay (n / 16)).job with
    | some (p, k) => match (s.ring p k).job with
      | some j => if j.ph = .running && j.endWith.isNone then some (p, k, j) else none
      | none => none
    | none => none
  else none

/-- Whether core n takes the beat in which another core of its job has faulted: its own bundle of that beat still issues, and may fault too.
Beats of one tick of the timestamp counter, one to a core, count as one beat (07 R236; log 82, DESIGN CHOICE). -/
def sameBeat (s : State) (n : Nat) : Option (Nat × Nat × Job) :=
  if (s.core n).running && !(s.core n).late then
    match (s.bay (n / 16)).job with
    | some (p, k) => match (s.ring p k).job with
      | some j => if j.ph = .running && j.endWith.isSome && j.detail % 256 ≠ n && j.faultTs = s.dev.tsc.toNat
                  then some (p, k, j) else none
      | none => none
    | none => none
  else none

/-- The job whose bundles core n issues now. -/
def beatJob (s : State) (n : Nat) : Option (Nat × Nat × Job) :=
  match s.liveJob n with
  | some x => some x
  | none => s.sameBeat n

/-- A fault ends the job: the first one is kept, with its core and bundle, and of several in one beat the one on the lowest core (05 R151,
07 R235, R236). A macro of an earlier bundle stays in flight and completes; one that raised the fault itself is gone. -/
def coreFault (s : State) (n status bundle : Nat) : State :=
  let s := s.modCore n (fun c => { c with fault := status, running := false, queue := [], gather := [], cause := none
                                          mac := c.mac.filter (fun m => m.bundle ≠ bundle) })
  match (s.bay (n / 16)).job with
  | some (p, k) => s.modJob p k (fun j =>
      if j.endWith.isSome && !(j.faultTs = s.dev.tsc.toNat && n < j.detail % 256) then j
      else { j with endWith := some status, detail := n % 256 + 256 * bundle, faultTs := s.dev.tsc.toNat })
  | none => s

/-- A fault reported against the core's next bundle: a macro in flight is of an earlier one (07 R234, R235). -/
def nextFault (s : State) (n status : Nat) : State :=
  (s.coreFault n status (s.core n).pc).modCore n (fun c => { c with mac := (s.core n).mac })

/-- Whether a macro in flight on core n goes on: its job runs, or the core has faulted on a later bundle (07 R235). -/
def macLive (s : State) (n : Nat) : Bool :=
  (s.liveJob n).isSome || ((s.core n).fault ≠ 0 && (s.core n).mac.isSome && (s.bay (n / 16)).job.isSome)

/-- Whether a bay's engines may send new requests: a job runs on it that no fault, stop or teardown has ended (05 R164, R170; 07 R236). -/
def bayLive (s : State) (b : Nat) : Bool :=
  (s.bay b).stopping.isNone && match (s.bay b).job with
  | some (p, k) => (s.pdk p).st = .running && (s.ring p k).job.elim false (fun j => j.ph = .running && j.endWith.isNone)
  | none => false

/-- A beat counted for a core and its paddock; a bubble also under its stall cause (02 R38, 07 R231, 10 PDK_STALL, PDK_BEATS). -/
def countBeat (s : State) (n p : Nat) (cause : Option Nat) : State :=
  let s := s.modCore n (fun c => { c with beats := (c.beats + 1) % 2 ^ 64, cause := cause })
  s.modPdk p (fun d => { d with beats := (d.beats + 1) % 2 ^ 64
                                stall := match cause with
                                  | some k => tmod 0 d.stall k (fun v => (v + 1) % 2 ^ 64)
                                  | none => d.stall })

/-- Physical bay of a job's logical bay. -/
def physBay (j : Job) (lb : Nat) : Option Nat := if lb < j.bays then j.lays[lb]? else none

/-- Package address of a paddock offset (07 R205, 03 R94): paddock frame 0 is its lowest frame. -/
def pkgAddr (s : State) (p : Nat) (off : Int) : Int := (((s.quota p).frameBase * frameSize : Nat) : Int) + off

/-- The check of an extent of paddock memory given by its lowest and highest byte as paddock offsets: ACCESS_DENIED when its lowest
byte is outside the paddock's frames, ACCESS_SPAN when any later part is (10 R300, R301). A write to a frame that a load has locked is
refused likewise (04 R113). -/
def checkSpan (s : State) (p : Nat) (write : Bool) (lo hi : Int) : Option Nat :=
  if lo < 0 then some Status.accessDenied
  else
    let a := (s.pkgAddr p lo).toNat
    let len := (hi - lo + 1).toNat
    if a ≥ memTop || s.ownerOf (a / frameSize) ≠ p + 1 then some Status.accessDenied
    else if a + len > memTop || (unitsOf frameSize a len).any (fun f => s.ownerOf f ≠ p + 1) then some Status.accessSpan
    else if write then s.lockFault p a len
    else none

end State

end Sys2Proof.Machine
end

