-- ==== Sys2Proof/Machine/Streams.lean ====
section
/-! DEFINITION. Streams: Prickings, the checks of STRMGO, the two halves, read tags, requests and deliveries (10 R292-R316), and the
commands of the bay stream engine. -/

namespace Sys2Proof.Machine

/-- What a Pricking does, in order: a transfer of `len` bytes at `addr`, or the end of a tile (10 R298, R299). -/
inductive PEv where
  | xfer (addr : Int) (len : Nat)
  | tile
deriving DecidableEq, Repr

/-- The body of an opened loop, up to its ENDL, and what follows it. `depth` counts the loops opened inside. -/
def loopBody : Nat → List PrickInsn → List PrickInsn × List PrickInsn
  | _, [] => ([], [])
  | 0, .endl :: t => ([], t)
  | d + 1, .endl :: t => let r := loopBody d t; (.endl :: r.1, r.2)
  | d, .loop x c s :: t => let r := loopBody (d + 1) t; (.loop x c s :: r.1, r.2)
  | d, i :: t => let r := loopBody d t; (i :: r.1, r.2)

/-- `n` iterations of a loop body from address `a`, with `stride` added between them. -/
def iterBody (f : Int → List PEv × Int) (stride : Int) : Nat → Int → List PEv
  | 0, _ => []
  | n + 1, a => let r := f a; r.1 ++ iterBody f stride n (r.2 + stride)

/-- The events of a Pricking from address `a`, and the address after it (10 R298). `x` gives the registers at issue; `fuel` is at least
the number of instructions. -/
def runPrick (x : Nat → Nat) : Nat → List PrickInsn → Int → List PEv × Int
  | 0, _, a => ([], a)
  | _, [], a => ([], a)
  | n + 1, .loop xc c s :: t, a =>
    let (body, rest) := loopBody 0 t
    let evs := iterBody (runPrick x n body) s (if xc then x c else c) a
    let r := runPrick x n rest a
    (evs ++ r.1, r.2)
  | n + 1, .endl :: t, a => runPrick x n t a
  | n + 1, .xfer l :: t, a => let r := runPrick x n t a; (.xfer a l :: r.1, r.2)
  | n + 1, .tile :: t, a => let r := runPrick x n t a; (.tile :: r.1, r.2)
  | n + 1, .adda i :: t, a => runPrick x n t (a + i)

/-- The transfers of each tile: empty transfers and empty tiles move nothing; transfers after the last TILE form a final tile
(10 R299). -/
def tilesOf : List PEv → List (Int × Nat) → List (List (Int × Nat))
  | [], cur => if cur.isEmpty then [] else [cur]
  | .xfer a l :: t, cur => tilesOf t (if l = 0 then cur else cur ++ [(a, l)])
  | .tile :: t, cur => if cur.isEmpty then tilesOf t [] else cur :: tilesOf t []

/-- Rows that a tile takes (10 R299). -/
def tileRows {α : Type} (t : List (α × Nat)) : Nat := t.foldl (fun r e => r + ceilDiv e.2 512) 0

/-- Bytes that a tile's transfers move. -/
def tileBytes {α : Type} (t : List (α × Nat)) : Nat := t.foldl (fun r e => r + e.2) 0

/-- The fragments of `len` bytes of a transfer that lie at byte `off` of it: one per row, the first `tags` of them giving back a tag
(10 R302). `row0` is the transfer's first row and `total` its length. -/
def rowFrags (tile row0 total : Nat) : Nat → Nat → Nat → Nat → Nat → List StrmRow
  | 0, _, _, _, _ => []
  | n + 1, off, addr, len, tags =>
    if len = 0 then []
    else
      let k := min len (512 - off % 512)
      { tile := tile, row := row0 + off / 512, off := off % 512, addr := addr, len := k,
        last := (off + k) % 512 = 0 || off + k = total, tags := min tags 1, data := [] }
        :: rowFrags tile row0 total n (off + k) (addr + k) (len - k) (tags - 1)

/-- The pieces of a transfer, split where its address passes a 4 KiB granule (10 R305). -/
def pieces (tile row0 total : Nat) : Nat → Nat → Nat → Nat → List (List StrmRow)
  | 0, _, _, _ => []
  | n + 1, off, addr, len =>
    if len = 0 then []
    else
      let k := min len (4096 - addr % 4096)
      rowFrags tile row0 total (k / 512 + 2) off addr k (ceilDiv k 512) :: pieces tile row0 total n (off + k) (addr + k) (len - k)

/-- The pieces of a tile whose half starts at row `row0` (10 R293, R299). -/
def tilePieces (tile : Nat) : Nat → List (Nat × Nat) → List (List StrmRow)
  | _, [] => []
  | row0, (a, l) :: t => pieces tile row0 l (l / 4096 + 2) 0 a l ++ tilePieces tile (row0 + ceilDiv l 512) t

namespace Strm

/-- First row of the half that tile t occupies (10 R293). -/
def half (m : Strm) (t : Nat) : Nat := m.bufRow + (t % 2) * m.halfRows

/-- The pieces of tile t. -/
def piecesOf (m : Strm) (t : Nat) : List (List StrmRow) := tilePieces t (m.half t) (m.tiles.getD t [])

/-- The pieces of every tile from t on. -/
def piecesFrom (m : Strm) (t : Nat) : List (List StrmRow) :=
  ((List.range (m.tiles.length - t)).map (fun i => m.piecesOf (t + i))).flatten

/-- Whether the stream loads (10 R292). -/
def loads (m : Strm) : Bool := m.dir = 0 || m.dir = 2

/-- Whether the stream has ended with no tile left, or never started (10 R294; log 24, DEDUCED for a store's last tiles). -/
def ended (m : Strm) : Bool :=
  !m.live || (m.tiles.length ≤ m.cur && (m.loads || (m.todo.isEmpty && m.send.isEmpty && m.fly.isEmpty)))

/-- Whether no request that was issued is still to complete. -/
def settled (m : Strm) : Bool := m.send.isEmpty && m.fly.isEmpty

/-- Whether every row of tile t is written. -/
def tileDone (m : Strm) (t : Nat) : Bool := tileRows (m.tiles.getD t []) ≤ tget 0 m.landed t

/-- The tile that STRMWAIT awaits (10 R294): the current half's for a load; for a store the one before it in the same half. -/
def awaited (m : Strm) : Option Nat :=
  if m.loads then some m.cur else if 2 ≤ m.cur then some (m.cur - 2) else none

/-- Whether STRMWAIT holds (10 R294). -/
def waits (m : Strm) : Bool :=
  !m.ended && match m.awaited with
    | some t => !m.tileDone t
    | none => false

/-- What STRMWAIT writes once it has passed (10 R294). -/
def waitVal (m : Strm) : Nat := if m.ended then 0 else if m.loads then tileBytes (m.tiles.getD m.cur []) else m.halfRows * 512

end Strm

namespace State

/-- Image of the paddock whose job runs on core n. -/
def coreImg (s : State) (n : Nat) : Option TenImage :=
  match (s.bay (n / 16)).job with
  | some (p, _) => (s.pdk p).img
  | none => none

/-- Members of a multicast group, as physical cores, by logical bay and position; `none` stands for a member that the job has no bay
for (10 R309, R312). -/
def mcastMembers (img : TenImage) (j : Job) (group : Nat) : List (Option Nat) :=
  (List.range 16).flatMap (fun lb => (List.range 16).filterMap (fun pos =>
    if img.stages.any (fun i => match i with
        | .mcast g l m => g = group && l = lb && bitAt m pos
        | .bind _ _ _ _ => false)
    then some ((physBay j lb).map (fun b => 16 * b + pos)) else none))

/-- The cores that a load stream's rows go to: the members of its group, or the core itself. -/
def strmCores (s : State) (n st : Nat) : List Nat :=
  let m := (s.core n).strm st
  if m.dir ≠ 2 then [n]
  else match (s.bay (n / 16)).job with
    | some (p, k) => match (s.pdk p).img, (s.ring p k).job with
      | some img, some j => (mcastMembers img j m.group).filterMap id
      | _, _ => [n]
    | none => [n]

/-- The cores that take part in the same fetch as core n's stream. -/
def mates (s : State) (n st : Nat) : List Nat :=
  (s.strmCores n st).filter (fun q => ((s.core q).strm st).fid = ((s.core n).strm st).fid)

/-- The core whose engine fetches for core n's stream (10 R309). -/
def leadOf (s : State) (n st : Nat) : Nat := ((s.mates n st).find? (fun q => ((s.core q).strm st).lead)).getD n

/-- The slowest member's current tile (10 R295, R309). -/
def minCur (s : State) (n st : Nat) : Nat :=
  (s.mates n st).foldl (fun m c => min m ((s.core c).strm st).cur) ((s.core n).strm st).cur

/-- The Pricking's events captured at issue, its tiles, and its header (10 R298, R299). -/
def prickTiles (c : Core) (pr : Prick) (base : Addr) : List (List (Int × Nat)) :=
  tilesOf (runPrick (fun i => (c.rdX i).toNat) (pr.insns.length + 1) pr.insns (base.toNat : Int)).1 []

/-- Lowest and highest byte of a Pricking's transfers (10 R301). -/
def envelope (ts : List (List (Int × Nat))) : Option (Int × Int) :=
  match ts.flatten with
  | [] => none
  | (a, l) :: t => some (t.foldl (fun e x => (min e.1 x.1, max e.2 (x.1 + (x.2 : Int) - 1))) (a, a + (l : Int) - 1))

/-- The first check of STRMGO that fails, in the order of R300. -/
def strmgoFault (s : State) (n st prick : Nat) (c : Core) (base : Addr) : Option Nat :=
  match (s.bay (n / 16)).job with
  | none => none
  | some (p, k) =>
    match (s.pdk p).img, (s.ring p k).job with
    | some img, some j =>
      match img.pricks[prick]? with
      | none => none
      | some pr =>
        let ts := prickTiles c pr base
        let members := mcastMembers img j pr.group
        if ts.any (fun t => tileRows t > pr.halfRows) then some Status.shapeIllegal
        else if base.toNat % (if pr.dir = 3 then 512 else 64) ≠ 0 then some Status.alignFault
        else if pr.bufRow + 2 * pr.halfRows - 1 > 4095 then some Status.accessSpan
        else if pr.dir = 2 && !members.contains (some n) then some Status.accessDenied
        else if pr.dir = 3 && pr.target / 16 ≥ j.bays then some Status.accessDenied
        else if pr.dir = 2 && (members.filterMap id).any (fun q =>
            let m := (s.core q).strm st
            q ≠ n && m.live && m.dir = 2 && m.group = pr.group && !m.started && (m.prick ≠ prick || m.base ≠ base.toNat)) then
          some Status.shapeIllegal
        else match envelope ts with
          | none => none
          | some (lo, hi) =>
            if pr.dir = 3 then
              (if lo < 0 || lo ≥ 4096 * 512 then some Status.accessDenied
               else if hi ≥ 4096 * 512 then some Status.accessSpan else none)
            else s.checkSpan p (pr.dir = 1) lo hi
    | _, _ => none

/-- An unended stream is ended by a new STRMGO: requests not issued are dropped, data waiting in tags for a half is discarded, accepted
requests complete. A multicast fetch ends for its whole group (10 R296; log 83, DEDUCED). -/
def endStream (s : State) (n st : Nat) : State :=
  let q := s.leadOf n st
  let m := (s.core q).strm st
  if m.live && (!m.todo.isEmpty || !m.settled) then
    let away (f : StrmRow) : Bool := m.loads && f.ret && f.tile > s.minCur q st + 1
    let freed := (m.fly.filter away).foldl (fun t f => t + f.tags) 0
    (s.modCore q (fun c => c.modStrm st (fun m => { m with todo := [], quit := true, fly := m.fly.filter (fun f => !away f) }))).modBay (q / 16)
      (fun b => { b with tags := b.tags + freed })
  else s

/-- STRMGO's effect, its checks passed (10 R292-R301, R309). -/
def strmgo (s : State) (n st prick : Nat) (c : Core) (base : Addr) (bundle : Nat) : State :=
  match (s.bay (n / 16)).job with
  | none => s
  | some (p, k) =>
    match (s.pdk p).img, (s.ring p k).job with
    | some img, some j =>
      match img.pricks[prick]? with
      | none => s
      | some pr =>
        let addr (a : Int) : Nat := if pr.dir = 3 then a.toNat else (s.pkgAddr p a).toNat
        let ts := (prickTiles c pr base).map (fun t => t.map (fun e => (addr e.1, e.2)))
        let m : Strm := { live := true, started := pr.dir ≠ 2, prick := prick, base := base.toNat, dir := pr.dir,
                          deadline := pr.deadline, arrival := pr.arrival, bufRow := pr.bufRow, halfRows := pr.halfRows,
                          group := pr.group, target := pr.target, bundle := bundle, tiles := ts,
                          lead := pr.dir ≠ 2 }
        let m := { m with todo := if pr.dir = 0 then m.piecesFrom 0 else [] }
        let s := s.modCore n (fun c => { c with strms := tset c.strms st m })
        if pr.dir ≠ 2 then s
        else
          let ms := mcastMembers img j pr.group
          if ms.all (fun q => match q with
              | some q => let x := (s.core q).strm st
                          x.live && x.dir = 2 && x.group = pr.group && !x.started
              | none => false) then
            let qs := ms.filterMap id
            let (t, s) := s.newTag
            let s := qs.foldl (fun s q => s.modCore q (fun c => c.modStrm st (fun x =>
              { x with started := true, fid := t }))) s
            match qs with
            | q :: _ => s.modCore q (fun c => c.modStrm st (fun x => { x with lead := true, todo := x.piecesFrom 0 }))
            | [] => s
          else s
    | _, _ => s

/-- STRMSWAP's effect (10 R294): a load releases the current half, whose bytes count toward its consumption rate (10 R308); a store or
forward hands it to the engine. -/
def strmswap (s : State) (n st : Nat) : State :=
  let now := s.dev.tsc.toNat
  s.modCore n (fun c => c.modStrm st (fun m =>
    if m.ended then m
    else if m.loads then { m with cur := m.cur + 1, rel := m.rel.filter (fun e => now < e.1 + 16384) ++ [(now, tileBytes (m.tiles.getD m.cur []))] }
    else { m with todo := m.todo ++ m.piecesOf m.cur, cur := m.cur + 1 }))

/-! ### Dry time (10 R308) -/

/-- Whether a core's held bundle waits for stream st. -/
def heldOn (s : State) (n st : Nat) : Bool :=
  let c := s.core n
  c.cause.isSome && (c.strm st).waits && (c.queue.headD []).any (fun o => match o with
    | .strmwait k _ => k.val = st
    | .strmswap k => k.val = st
    | _ => false)

/-- A stream's runway in ticks: bytes of full halves not yet released, over the bytes that STRMSWAP released in the last 16,384 ticks; zero
while its consumer is held on it or has released nothing in that time. Whole ticks (log 84, DESIGN CHOICE: the spec gives no rounding). Of a
multicast stream, the halves and releases are those of the core that fetches. -/
def runway (s : State) (n st : Nat) : Nat :=
  let m := (s.core n).strm st
  let b := (m.rel.filter (fun e => s.dev.tsc.toNat < e.1 + 16384)).foldl (fun t e => t + e.2) 0
  let full := ([m.cur, m.cur + 1].filter (fun t => t < m.tiles.length && m.tileDone t)).foldl (fun t k => t + tileBytes (m.tiles.getD k [])) 0
  if b = 0 || (s.mates n st).any (fun q => s.heldOn q st) then 0 else full * 16384 / b

/-- Tags that a piece needs (10 R302). -/
def pieceTags (p : List StrmRow) : Nat := p.foldl (fun t f => t + f.tags) 0

/-- The stream's next piece, if it may issue now: the bay's job runs, the stream is started, and a load's piece is within the look-ahead
(05 R164, 10 R295, R302). -/
def readyPiece (s : State) (n st : Nat) : Option (List StrmRow) :=
  let m := (s.core n).strm st
  match m.todo with
  | p :: _ =>
    if s.bayLive (n / 16) && m.live && m.started && m.lead
        && (!m.loads || (p.head?.map (·.tile)).getD 0 ≤ s.minCur n st + 2) then some p else none
  | [] => none

/-- The cause that a held STRMWAIT or STRMSWAP is counted under: tag exhaustion (1) while a request for the awaited tile waits for tags,
operand wait (0) otherwise (10 R294). A multicast stream waits for the tags of the bay that fetches for it. -/
def strmCause (s : State) (n st : Nat) : Nat :=
  let m := (s.core n).strm st
  let q := s.leadOf n st
  let tags := (s.bay (q / 16)).tags
  let unread := ((s.core q).strm st).send.head?.elim false (fun f => some f.tile = m.awaited && tags < f.tags)
  match s.readyPiece q st with
  | some p => if unread || (p.any (fun f => some f.tile = m.awaited) && tags < pieceTags p) then 1 else 0
  | none => if unread then 1 else 0

/-- The bytes of a row from `off`, `len` of them. -/
def rowPart (r : Row) (off len : Nat) : List Byte := ((rowBytes r).drop off).take len

/-- A row with bytes placed at `off`; the rest of the row is kept, or after them zero where `zero` says so (10 R299). -/
def putPart (r : Row) (off : Nat) (d : List Byte) (zero : Bool) : Row :=
  let old := rowBytes r
  rowOf (old.take off ++ d ++ (if zero then List.replicate (512 - off - d.length) 0 else old.drop (off + d.length)))

/-- A fragment written into one core of a load's destinations: row, arrival counter, count of rows landed (10 R299, R303, 09 R280). -/
def landOn (s : State) (st q : Nat) (f : StrmRow) : State :=
  s.modCore q (fun c =>
    let m := c.strm st
    let c := c.setRow f.row (putPart (c.rowAt f.row) f.off f.data true)
    if f.last then
      let c := c.modStrm st (fun m => { m with landed := tmod 0 m.landed f.tile (· + 1) })
      if bitAt m.arrival 7 then { c with arr := tmod 0 c.arr (m.arrival % 128) (fun v => arrAdd v 1) } else c
    else c)

/-- The first fragment of a list that satisfies a test and has no earlier fragment of its row before it, and the list without it. -/
def pickRow (f : StrmRow → Bool) : List StrmRow → List (Nat × Nat) → Option (StrmRow × List StrmRow)
  | [], _ => none
  | x :: t, seen =>
    if f x && !seen.contains (x.tile, x.row) then some (x, t)
    else (pickRow f t (seen ++ [(x.tile, x.row)])).map (fun r => (r.1, x :: r.2))

/-- The oldest row of a load whose data has come lands on every destination, if its tile has a half; of a stream that a later STRMGO has
ended, data for no half is discarded (10 R295, R296, R302, R303). -/
def deliver (s : State) (n st : Nat) : State :=
  let m := (s.core n).strm st
  if !(m.live && m.loads && m.lead) then s
  else match pickRow (fun f => f.ret && (m.quit || f.tile ≤ s.minCur n st + 1)) m.fly [] with
  | some (f, t) =>
    let halved : Bool := f.tile ≤ s.minCur n st + 1
    let s := s.modCore n (fun c => c.modStrm st (fun m => { m with fly := t }))
    let s := if halved then (s.mates n st).foldl (fun s q => s.landOn st q f) s else s
    s.modBay (n / 16) (fun b => { b with tags := b.tags + f.tags })
  | none => s

/-- The core that a forward stream's rows go to (10 R292, R297). -/
def target (s : State) (n st : Nat) : Option Nat :=
  let m := (s.core n).strm st
  match (s.bay (n / 16)).job with
  | some (p, k) => match (s.ring p k).job with
    | some j => (physBay j (m.target / 16)).map (fun b => 16 * b + m.target % 16)
    | none => none
  | none => none

/-- The oldest row of a store or forward whose write is done is acknowledged, and its tag freed; a forward's row is written into the target
core (10 R292, R302). -/
def ackWrite (s : State) (n st : Nat) : State :=
  let m := (s.core n).strm st
  if !(m.live && !m.loads) then s
  else match pickRow (·.ret) m.fly [] with
  | some (f, t) =>
    let s := s.modCore n (fun c => c.modStrm st (fun m => { m with
      fly := t, landed := if f.last then tmod 0 m.landed f.tile (· + 1) else m.landed }))
    let s := s.modBay (n / 16) (fun b => { b with tags := b.tags + f.tags })
    if m.dir = 1 then s
    else match s.target n st with
      | some q => s.modCore q (fun c =>
          let c := c.setRow (f.addr / 512) (putPart (c.rowAt (f.addr / 512)) (f.addr % 512) f.data false)
          if f.last && bitAt m.arrival 7 then { c with arr := tmod 0 c.arr (m.arrival % 128) (fun v => arrAdd v 1) } else c)
      | none => s
  | none => s

/-- The request of a piece of core n's stream: class and dry time as its Pricking and its consumption give them (10 R305-R308). -/
def strmReq (s : State) (n st tag : Nat) (p : List StrmRow) : Waiting :=
  let m := (s.core n).strm st
  { Waiting.plain with
    tag := tag, write := !m.loads, addr := (p.head?.map (·.addr)).getD 0, len := p.foldl (fun t f => t + f.len) 0
    cls := if m.deadline then .deadline else .fcfs, dry := s.dev.tsc.toNat + s.runway n st, bay := n / 16, core := n }

/-- The engine reads the next row of an issued store or forward, once a tag is free for it (`force`: at a stop, without waiting for one). With
the last row of a piece a store's write goes to its controller; a forward's row goes its way at once (10 R302, R306). -/
def readRow (s : State) (n st : Nat) (force : Bool) : State :=
  let m := (s.core n).strm st
  match m.send with
  | [] => s
  | f :: t =>
    if !force && (s.bay (n / 16)).tags < f.tags then s
    else
      let f : StrmRow := { f with data := rowPart ((s.core n).rowAt f.row) f.off f.len, tags := min f.tags (s.bay (n / 16)).tags,
                                  ret := m.dir = 3 }
      let s := (s.modCore n (fun c => c.modStrm st (fun m => { m with send := t, fly := m.fly ++ [f] }))).modBay (n / 16)
        (fun b => { b with tags := b.tags - f.tags })
      if m.dir = 1 && t.all (fun g => g.rtag ≠ f.rtag) then
        let p := (m.fly ++ [f]).filter (fun g => g.rtag = f.rtag)
        s.acceptPiece (s.strmReq n st f.rtag p) (p.map (·.data)).flatten
      else s

/-- A ready piece issues. A load's tags are taken and its request goes to its controller; a store's or forward's rows are to be read from
this beat on. A request for bytes of a quarantined stack faults the job against the STRMGO bundle (10 R302, R305, R310, R315; 16 R463;
log 25, DEDUCED). -/
def issuePiece (s : State) (n st : Nat) (p : List StrmRow) : State :=
  let m := (s.core n).strm st
  let s := s.modCore n (fun c => c.modStrm st (fun m => { m with todo := m.todo.drop 1 }))
  if m.dir ≠ 3 && p.any (fun f => s.quarTouch f.addr f.len) then s.coreFault n Status.quarantined m.bundle
  else
    let (t, s) := s.newTag
    let p := p.map (fun f => { f with rtag := t })
    if m.loads then
      ((s.acceptPiece (s.strmReq n st t p) []).modCore n (fun c => c.modStrm st (fun m => { m with fly := m.fly ++ p }))).modBay (n / 16)
        (fun b => { b with tags := b.tags - pieceTags p })
    else (s.modCore n (fun c => c.modStrm st (fun m => { m with send := m.send ++ p }))).readRow n st false

/-! ### Answers of the controllers to the part's own requests (01 R30, R31) -/

/-- A fragment whose request has been answered. -/
def StrmRow.answer (tag addr : Nat) (data : List Byte) (f : StrmRow) : StrmRow :=
  if f.rtag = tag && !f.ret then { f with ret := true, data := if data.isEmpty then f.data else (data.drop (f.addr - addr)).take f.len } else f

end State

/-- A tile sequencer's fetches changed. -/
def MacFly.modSeq (f : SeqStrm → SeqStrm) : MacFly → MacFly
  | .matrix m => .matrix { m with seq := f m.seq }
  | .attention m => .attention { m with seq := f m.seq }
  | .yard id => .yard id

/-- A tile sequencer's fetches; none of a Yard operation. -/
def MacFly.seq : MacFly → SeqStrm
  | .matrix m => m.seq
  | .attention m => m.seq
  | .yard _ => {}

/-- A core's fragments of an answered request. -/
def Core.answer (tag addr : Nat) (data : List Byte) (c : Core) : Core :=
  { c with
    strms := c.strms.map (fun e => (e.1, { e.2 with fly := e.2.fly.map (State.StrmRow.answer tag addr data) }))
    mac := c.mac.map (fun m => { m with fly := m.fly.modSeq (fun q => { q with fly := q.fly.map (State.StrmRow.answer tag addr data) }) }) }

/-- The bundle that a request of the core belongs to, if it is the core's: a STRMGO's, or a macro's. -/
def Core.bundleOf (c : Core) (tag : Nat) : Option Nat :=
  match c.strms.find? (fun e => e.2.fly.any (fun f => f.rtag = tag)) with
  | some e => some e.2.bundle
  | none => match c.mac with
    | some m => if m.fly.seq.fly.any (fun f => f.rtag = tag) then some m.bundle else none
    | none => none

namespace State

/-- One of the part's own requests is answered. A read that met a poisoned granule ends its job with ROW_RETIRED against the STRMGO or
macro bundle (10 R315, 08 R265, 16 R460); its rows do not land. -/
def answerOwn (s : State) (tag addr : Nat) (data : List Byte) (bad : Bool) : State :=
  match s.cores.find? (fun e => (e.2.bundleOf tag).isSome) with
  | none => s
  | some (n, c) => if bad then s.coreFault n Status.rowRetired ((c.bundleOf tag).getD 0) else s.modCore n (Core.answer tag addr data)

/-- A fetch has completed: every merged request is answered, or sees ROW_RETIRED (01 R30; 16 R460). -/
def answerFetch (s : State) (f : Fetch) (bad : Bool) : State :=
  f.tags.foldl (fun s t =>
    if ownTags ≤ t then s.answerOwn t f.addr f.data bad
    else s.send (if bad then .memDone t Status.rowRetired [] else .memDone t Status.ok f.data)) s

/-- One of the part's own requests runs to its end at once: an accepted request completes at a stop (05 R164, 10 R296, R316). -/
def settleTag (s : State) (tag : Nat) : State :=
  match s.mcs.find? (fun e => e.2.fetches.any (fun f => f.tags.contains tag)) with
  | some (st, m) =>
    let s := s.modMc st (fun m => { m with fetches := m.fetches.filter (fun f => !f.tags.contains tag)
                                           queue := m.queue.filter (fun w => !(!w.write && m.fetches.any (fun f => f.tags.contains tag && f.tags.contains w.tag))) })
    (m.fetches.filter (fun f => f.tags.contains tag)).foldl (fun s f => s.answerFetch f (f.status ≠ Status.ok)) s
  | none =>
    let s : State := { s with mcs := s.mcs.map (fun e => (e.1, { e.2 with queue := e.2.queue.filter (fun w => w.tag ≠ tag)
                                                                          writing := e.2.writing.filter (fun w => w.tag ≠ tag) })) }
    s.answerOwn tag 0 [] false

/-- Every row of issued stores and forwards read. -/
def readAll (s : State) (n st : Nat) : Nat → State
  | 0 => s
  | m + 1 => (s.readRow n st true).readAll n st m

/-- Rows delivered and acknowledged while there are any. -/
def landAll (s : State) (n st : Nat) : Nat → State
  | 0 => s
  | m + 1 => ((s.deliver n st).ackWrite n st).landAll n st m

/-- Accepted requests of a stream complete (10 R296, R316). -/
def drainStream (s : State) (n st : Nat) : State :=
  let s := s.readAll n st ((s.core n).strm st).send.length
  let fly := ((s.core n).strm st).fly
  let s := (fly.filter (fun f => !f.ret)).foldl (fun s f => s.settleTag f.rtag) s
  s.landAll n st fly.length

/-- A stream stopped at a preemption, its accepted requests complete: data in tags is discarded, and a load goes on later from the first
tile not wholly in a half (10 R316). -/
def haltStream (s : State) (n st : Nat) : State :=
  let m := (s.core n).strm st
  if !m.live then s
  else
    let s := s.drainStream n st
    let m := (s.core n).strm st
    if !m.loads then s
    else
      let first := ((List.range m.tiles.length).find? (fun t => !m.tileDone t)).getD m.tiles.length
      let freed := m.fly.foldl (fun t f => t + f.tags) 0
      (s.modCore n (fun c => c.modStrm st (fun m => { m with
        fly := [], landed := m.landed.filter (fun e => e.1 < first),
        todo := if m.started && m.lead && !m.quit then m.piecesFrom first else [] }))).modBay (n / 16) (fun b => { b with tags := b.tags + freed })

/-- Every stream of a core halted. -/
def haltStreams (s : State) (n : Nat) : State := (List.range 16).foldl (fun s st => s.haltStream n st) s

/-- Accepted requests of every stream of a job complete, on all its bays: their rows land before any of the bays is saved (10 R316). -/
def drainJob (s : State) (p k : Nat) : State :=
  ((List.range 16).filter (fun b => (s.bay b).job = some (p, k))).foldl (fun s b =>
    (coresOf b).foldl (fun s n => (List.range 16).foldl (fun s st => s.drainStream n st) s) s) s

end State

/-- STREAM_WRITE_ACK (10 R292, R294, R302). -/
def execStreamWriteAck (c : CoreId) (st : Fin 16) (s : State) : Res := .next (s.ackWrite c.val st.val)

end Sys2Proof.Machine
end

