-- ==== Sys2Proof/Machine/Matmul.lean ====
section
/-! DEFINITION. The matrix macro: descriptor, checks at issue, tiles, numerics and picot chains (08 R237-R265). -/

namespace Sys2Proof.Machine

/-- An operand record (08 R239). -/
def operandAt (d : List Byte) (off : Nat) : Operand :=
  { loc := fieldAt d off 1, fmt := fieldAt d (off + 1) 1, trans := fieldAt d (off + 2) 1, pad := fieldAt d (off + 3) 1,
    padZp := fieldAt d (off + 4) 4, base := fieldAt d (off + 8) 8, stride := fieldAt d (off + 16) 4,
    sstride := fieldAt d (off + 20) 4, sbase := fieldAt d (off + 24) 8, stage := fieldAt d (off + 32) 2,
    stageRows := fieldAt d (off + 34) 2 }

/-- Whether a format is an MX format (08 R241). -/
def isMx (fmt : Nat) : Bool := fmt = 6 || fmt = 7 || fmt = 8

/-- Element size in half bytes (08 R241). -/
def elemNibbles (fmt : Nat) : Nat := if fmt = 0 then 8 else if fmt = 1 then 4 else if fmt = 8 then 1 else 2

/-- Bytes of `n` consecutive elements. -/
def elemBytes (fmt n : Nat) : Nat := (n * elemNibbles fmt + 1) / 2

/-- The float format of a format code's elements; `none` for INT8. -/
def elemFmt (fmt : Nat) : Option FFmt :=
  match fmt with
  | 0 => some f32
  | 1 => some bf16
  | 4 => some e4m3
  | 6 => some e4m3
  | 5 => some e5m2
  | 7 => some e5m2
  | 8 => some e2m1
  | _ => none

/-- The value that an element's bits stand for. -/
def elemVal (fmt v : Nat) : FV :=
  match elemFmt fmt with
  | some f => f.decode v
  | none => FV.ofInt (sext 8 v)

/-- A value times 2^k. -/
def FV.scale (k : Int) : FV → FV
  | .fin s m e => .fin s m (e + k)
  | v => v

/-- An E8M0 scale applied; 0xFF makes the element NaN (08 R242). -/
def applyScale (sc : Nat) (v : FV) : FV := if sc = 255 then .nan else v.scale ((sc : Int) - 127)

/-- The bits of a PAD value (08 R246). -/
def padBits (o : Operand) : Nat :=
  match o.pad with
  | 1 => o.padZp % 2 ^ (4 * elemNibbles o.fmt)
  | 2 => (match o.fmt with
      | 1 => 0xFF7F
      | 3 => 0x80
      | 4 => 0xFE
      | 6 => 0xFE
      | 5 => 0xFB
      | 7 => 0xFB
      | 8 => 0xF
      | _ => 0)
  | 3 => (match o.fmt with
      | 1 => 0x7F7F
      | 3 => 0x7F
      | 4 => 0x7E
      | 6 => 0x7E
      | 5 => 0x7B
      | 7 => 0x7B
      | 8 => 0x7
      | _ => 0)
  | _ => 0

namespace State

/-- A byte of an operand's space as core n of paddock p sees it: scratchpad byte or paddock offset (08 R239). -/
def opByte (s : State) (n p loc a : Nat) : Byte :=
  if loc = 0 then BitVec.ofNat 8 (((s.core n).rowAt (a / 512)).toNat / 2 ^ (8 * (a % 512)))
  else readByte s.mem (s.pkgAddr p a).toNat

/-- `m` bytes of an operand's space. -/
def opBytes (s : State) (n p loc a m : Nat) : List Byte := (List.range m).map (fun i => s.opByte n p loc (a + i))

end State

/-- Element bits at a stored row and column, `rd` giving the bytes of the operand's space (08 R240). -/
def elemBitsOf (rd : Nat → Byte) (o : Operand) (row col : Nat) : Nat :=
  let a := o.base + row * o.stride
  if elemNibbles o.fmt = 1 then
    let b := (rd (a + col / 2)).toNat
    if col % 2 = 0 then b % 16 else b / 16
  else leNat ((List.range (elemNibbles o.fmt / 2)).map (fun i => rd (a + col * (elemNibbles o.fmt / 2) + i)))

/-- The value of A or B at index r of its own dimension and k, padded beyond the effective K (08 R240, R246). -/
def operandVal (rd : Nat → Byte) (o : Operand) (ke r k : Nat) : FV :=
  let v := if k < ke then (if o.trans = 1 then elemBitsOf rd o k r else elemBitsOf rd o r k) else padBits o
  if isMx o.fmt then
    let sc := if k / 32 * 32 < ke then (rd (o.sbase + r * o.sstride + k / 32)).toNat else 127
    applyScale sc (elemVal o.fmt v)
  else elemVal o.fmt v

/-- `t` 128-element blocks of K from block kb on, in ascending order, each summed exactly and rounded once into the accumulator entry
(08 R243). -/
def dotBlocks (ra rb : Nat → Byte) (a b : Operand) (ke m nn : Nat) : Nat → Nat → BitVec 32 → BitVec 32
  | 0, _, acc => acc
  | t + 1, kb, acc =>
    let sum := (List.range 128).foldl (fun z i =>
      z.add ((operandVal ra a ke m (kb * 128 + i)).mul (operandVal rb b ke nn (kb * 128 + i)))) (.fin false 0 0)
    dotBlocks ra rb a b ke m nn t (kb + 1) (BitVec.ofNat 32 (f32.round ((f32.decode acc.toNat).add sum)))

/-- Element bits at a stored row and column as core n of paddock p sees them. -/
def State.elemBits (s : State) (n p : Nat) (o : Operand) (row col : Nat) : Nat := elemBitsOf (s.opByte n p o.loc) o row col

/-! ### Picot chains (08 R261-R263) -/

/-- Whether a chain has a GATE step. -/
def Chain.gated (c : Chain) : Bool := c.steps.any (fun s => s.kind = 9)

/-- Conversion of a drained element to a format that is not MX, as VCVT does (08 R263, 07 R220). `sr`: the element's random bits. -/
def outConv (fmt : Nat) (sr : Option Nat) (x : BitVec 32) : Nat × Bool := convLane 0 fmt sr x.toNat

/-- E8M0 scale of an MX output block (08 R263). -/
def mxScale (fmt : Nat) (xs : List (BitVec 32)) : Nat :=
  if xs.any (fun x => bits x.toNat 30 23 = 255) then Config.scaleOfNonFinite.toNat
  else
    let amax := xs.foldl (fun m x => max m (x.toNat % 2 ^ 31)) 0
    if amax = 0 then 127
    else match f32.decode amax with
      | .fin _ m e =>
        let l : Int := (Nat.log2 m : Int) + e
        let d : Int := if fmt = 8 then 2 else if fmt = 6 then 8 else 15
        (max 0 (min 254 (l - d + 127))).toNat
      | _ => 127

/-- Elements of an MX block rounded under their scale (08 R263). -/
def mxElem (fmt sc : Nat) (sr : Option Nat) (x : BitVec 32) : Nat :=
  let f := if fmt = 8 then e2m1 else if fmt = 6 then e4m3 else e5m2
  if sc = 255 then f.saturate sr .nan else f.saturate sr ((f32.decode x.toNat).scale (127 - (sc : Int)))

namespace State

/-- An FP32 element of a V vector (08 R240). -/
def vecElem (s : State) (n p : Nat) (o : Operand) (j : Nat) : BitVec 32 :=
  BitVec.ofNat 32 (leNat (s.opBytes n p o.loc (o.base + 4 * j) 4))

/-- One step of a chain on a drained row: `m` the row, `c0` the output column of its first element; `rd` gives the bytes of D (08 R262, 11
R332). -/
def chainStep (s : State) (n : Nat) (f : MatFly) (rd : Nat → Byte) (m c0 : Nat) (row : List (BitVec 32)) (st : PicotStep) :
    List (BitVec 32) :=
  let ax := s.ax64 f.pdk
  let v := if bitAt st.sel 0 then f.v1 else f.v0
  let vec (j : Nat) : BitVec 32 := s.vecElem n f.pdk v (if bitAt st.sel 1 then m else c0 + j)
  match st.kind with
  | 1 => row.map (fun x => fadd x st.imm)
  | 2 => row.map (fun x => fmul x st.imm)
  | 3 => row.map (fun x => fmax x st.imm)
  | 4 => row.map (fun x => fmin x st.imm)
  | 5 => row.zipIdx.map (fun e => fadd e.1 (vec e.2))
  | 6 => row.zipIdx.map (fun e => fmul e.1 (vec e.2))
  | 7 => row.zipIdx.map (fun e => fadd e.1
      (BitVec.ofNat 32 (f32.round (elemVal f.d.fmt (elemBitsOf rd f.d m (c0 + e.2))))))
  | 8 => row.map (fun x => sfEval ax (s.sfSel (st.imm.toNat % 64)) x)
  | 9 => (List.range (row.length / 2)).map (fun j =>
      fmul (row.getD (2 * j) 0) (sfEval ax (s.sfSel (st.imm.toNat % 64)) (row.getD (2 * j + 1) 0)))
  | _ => row

/-- A drained row through its chain, and the output column of its first element; a GATE halves the column. -/
def runChain (s : State) (n : Nat) (f : MatFly) (rd : Nat → Byte) (m : Nat) :
    List PicotStep → Nat → List (BitVec 32) → Nat × List (BitVec 32)
  | [], c0, row => (c0, row)
  | st :: t, c0, row => s.runChain n f rd m t (if st.kind = 9 then c0 / 2 else c0) (s.chainStep n f rd m c0 row st)

/-- Bytes written into an operand's space: whole scratchpad rows read and written back, or package memory (08 R256, 09 R267, 10 R306). -/
def opWrite (s : State) (n p loc a : Nat) (d : List Byte) : State :=
  if loc = 0 then
    s.modCore n (fun c => d.zipIdx.foldl (fun c e =>
      let x := a + e.2
      c.setRow (x / 512) (putPart (c.rowAt (x / 512)) (x % 512) [e.1] false)) c)
  else s.writeFrom (s.pkgAddr p a).toNat d

/-- Elements packed to bytes at their element size, the first at an even column (08 R240); after an odd number of 4-bit elements the other
half of the last byte keeps its value `old`, since its column is not drained (08 R246). -/
def packElems (fmt old : Nat) (vs : List Nat) : List Byte :=
  if elemNibbles fmt = 1 then
    (List.range ((vs.length + 1) / 2)).map (fun i => BitVec.ofNat 8 (vs.getD (2 * i) 0 % 16 + 16 * (vs.getD (2 * i + 1) old % 16)))
  else (vs.map (fun v => leBytes (elemNibbles fmt / 2) v)).flatten

/-- A chain's output row converted to C's format and written; the random bits of a stochastic conversion are taken from `ds` from
element `k0` on (08 R263, R470). INT_SAT follows VCVT (07 R220; log 26, DEDUCED). -/
def writeOut (s : State) (n : Nat) (f : MatFly) (m c0 : Nat) (row : List (BitVec 32)) (ds : Option (List Nat)) (k0 : Nat) : State :=
  let sr (j : Nat) : Option Nat := ds.map (fun l => laneBits l (k0 + j))
  let c := f.c
  let at_ := c.base + m * c.stride + c0 * elemNibbles c.fmt / 2
  if isMx c.fmt then
    let blocks := (List.range (ceilDiv row.length 32)).map (fun b => ((row.drop (32 * b)).take 32, b))
    let scs := blocks.map (fun b => mxScale c.fmt b.1)
    let es := row.zipIdx.map (fun e => mxElem c.fmt (scs.getD (e.2 / 32) 127) (sr e.2) e.1)
    let old := (s.opByte n f.pdk c.loc (at_ + es.length / 2)).toNat / 16
    (s.opWrite n f.pdk c.loc at_ (packElems c.fmt old es)).opWrite n f.pdk c.loc (c.sbase + m * c.sstride + c0 / 32)
      (scs.map (BitVec.ofNat 8))
  else
    let es := row.zipIdx.map (fun e => outConv c.fmt (sr e.2) e.1)
    let s := s.opWrite n f.pdk c.loc at_ (packElems c.fmt 0 (es.map (·.1)))
    if es.any (·.2) then s.modCore n (fun c => { c with intSat := true }) else s

/-- `k` 64-bit values of one generate request of the DRBG (06 R177; log 9, DESIGN CHOICE). -/
def draws (s : State) (k : Nat) : List Nat × State := let r := s.drawMany k; (r.1.map (·.toNat), r.2)

end State

/-! ### Checks at issue (08 R245-R251) -/

/-- A matrix descriptor's header (08 R238), its tiles replaced by a bucket's where TILE_SRC = 1 (08 R249). -/
structure MatHead where
  db     : Bool
  claim  : Bool
  tsrc   : Bool
  skip   : Nat
  order  : Nat
  ctr    : Nat
  m      : Nat
  n      : Nat
  k      : Nat
  tm     : Nat
  tn     : Nat
  tk     : Nat
  chain  : Nat
  bucket : Nat
deriving DecidableEq, Repr

/-- The header fields of a descriptor. -/
def matHead (d : List Byte) : MatHead :=
  let fl := fieldAt d 1 1
  { db := bitAt fl 0, claim := bitAt fl 1, tsrc := bitAt fl 2, skip := bits fl 4 3, order := fieldAt d 2 1, ctr := fieldAt d 3 1,
    m := fieldAt d 4 4, n := fieldAt d 8 4, k := fieldAt d 12 4, tm := fieldAt d 16 2, tn := fieldAt d 18 2, tk := fieldAt d 20 2,
    chain := fieldAt d 22 2, bucket := 0 }

/-- The chain that a header names, if any. -/
def headChain (img : TenImage) (h : MatHead) : Option Chain := if bitAt h.chain 15 then none else img.chains[h.chain % 256]?

/-- An operand record whose codes are defined for its role (08 R239, R241, R250 check 1). -/
def operandOk (d : List Byte) (off : Nat) (locs fmts : List Nat) (mayTrans : Bool) : Bool :=
  let o := operandAt d off
  locs.contains o.loc && (o.loc = 2 || fmts.contains o.fmt) && (o.trans = 0 || (mayTrans && o.trans = 1 && !isMx o.fmt)) && o.pad ≤ 3
    && zeroAt d (off + 13) 3 && zeroAt d (off + 29) 3 && zeroAt d (off + 36) 28

/-- Check 1 (08 R250). -/
def matCheck1 (img : TenImage) (d : List Byte) : Bool :=
  let h := matHead d
  let a := operandAt d 0x40
  let b := operandAt d 0x80
  let c := operandAt d 0xC0
  let abf := [1, 3, 4, 5, 6, 7, 8]
  let absent (off : Nat) : Bool := (operandAt d off).loc = 2
  fieldAt d 0 1 = 1 && fieldAt d 1 1 < 32 && (h.tsrc || h.order ≤ 5) && h.ctr ≤ 63
    && operandOk d 0x40 [0, 1] abf true && operandOk d 0x80 [0, 1] abf true
    && operandOk d 0xC0 [0, 1] [0, 1, 3, 4, 5, 6, 7, 8] false && operandOk d 0x100 [0, 1, 2] [0, 1, 3, 4, 5] false
    && operandOk d 0x140 [0, 2] [0] false && operandOk d 0x180 [0, 2] [0] false
    && (a.fmt = 3) = (b.fmt = 3)
    && h.m < 2 ^ 24 && h.n < 2 ^ 24 && h.k < 2 ^ 24
    && bits h.chain 14 8 = 0 && zeroAt d 0x18 40 && zeroAt d 0x1C0 64
    && (if bitAt h.chain 15 then c.fmt = 0
        else match headChain img h with
          | none => false
          | some ch => ch.outFmt = c.fmt
            && (!ch.steps.any (fun s => s.kind = 7) || !absent 0x100)
            && (!ch.steps.any (fun s => (s.kind = 5 || s.kind = 6) && !bitAt s.sel 0) || !absent 0x140)
            && (!ch.steps.any (fun s => (s.kind = 5 || s.kind = 6) && bitAt s.sel 0) || !absent 0x180))

/-- The declared dimensions and tiles after bucket selection (08 R249); `none` where no bucket fits. -/
def matBucket (img : TenImage) (program : Nat) (h : MatHead) (l : Nat) : Option (MatHead × Nat) :=
  if !h.tsrc then some (h, 3)
  else
    let bs := (img.buckets.filter (fun b => b.program = program)).zipIdx
    match bs.find? (fun e => l ≤ e.1.size) with
    | none => none
    | some (b, i) =>
      some ({ h with order := b.order, db := b.db, tm := b.tm, tn := b.tn, tk := b.tk, bucket := i,
                     m := if b.vary = 0 then b.size else h.m, n := if b.vary = 1 then b.size else h.n,
                     k := if b.vary = 2 then b.size else h.k }, b.vary)

/-- Effective dimensions (08 R247); `none` where the actual length is above the declared size. -/
def matEff (h : MatHead) (l : Nat) : Option (Nat × Nat × Nat) :=
  match h.skip with
  | 1 => if l > h.m then none else some (l, h.n, h.k)
  | 2 => if l > h.n then none else some (h.m, l, h.k)
  | 3 => if l > h.k then none else some (h.m, h.n, l)
  | _ => some (h.m, h.n, h.k)

/-- Bytes of a staged tile (08 R245). -/
def stageBytes (fmt r c : Nat) : Nat := (r * c * elemNibbles fmt + 1) / 2 + (if isMx fmt then r * c / 32 else 0)

/-- Whether a tile has staging rows enough (08 R245). -/
def stageOk (o : Operand) (r c : Nat) : Bool := o.loc ≠ 1 || 2 * ceilDiv (stageBytes o.fmt r c) 512 ≤ o.stageRows

/-- Tile ranges and the accumulator footprint of R245. -/
def tileLegal (order tm tn tk m n : Nat) (db claim : Bool) : Bool :=
  let fm := if order = 3 || order = 4 || order = 5 then roundUp m tm else tm
  let fn := if order = 2 || order = 4 || order = 5 then roundUp n tn else tn
  1 ≤ tm && tm ≤ 512 && tn % 128 = 0 && 128 ≤ tn && tn ≤ 65408 && tk % 128 = 0 && 128 ≤ tk && tk ≤ 65408
    && fm * fn / 128 ≤ (if db then 256 else 512) && (!claim || order ≤ 1)

/-- Check 4 (08 R245, R250). -/
def matCheck4 (h : MatHead) (gated : Bool) (a b c d : Operand) : Bool :=
  let tn' := if gated then h.tn / 2 else h.tn
  let nc := if gated then h.n / 2 else h.n
  tileLegal h.order h.tm h.tn h.tk h.m h.n h.db h.claim
    && stageOk a h.tm h.tk && stageOk b h.tk h.tn && stageOk c h.tm tn' && stageOk d h.tm tn'
    && (!gated || h.n % 2 = 0) && elemBytes c.fmt nc ≤ c.stride

/-- Check 5 on one operand (08 R250). -/
def alignOk (o : Operand) : Bool :=
  o.loc = 2 || (o.base % 64 = 0 && o.stride % 64 = 0 && (!isMx o.fmt || (o.sbase % 16 = 0 && o.sstride % 16 = 0)))

namespace State

/-- The check of an extent of `len` bytes in an operand's space; `write` where the macro writes there (04 R113, 08 R251). -/
def extentFault (s : State) (p : Nat) (write : Bool) (loc base len : Nat) : Option Nat :=
  if len = 0 then none
  else if loc = 0 then
    (if base ≥ 4096 * 512 then some Status.accessDenied else if base + len > 4096 * 512 then some Status.accessSpan else none)
  else s.checkSpan p write base (base + len - 1)

/-- A matrix operand's extents: its rows, and its scale array (08 R251). -/
def matExtent (s : State) (p : Nat) (write : Bool) (o : Operand) (rows cols : Nat) : Option Nat :=
  match s.extentFault p write o.loc o.base ((rows - 1) * o.stride + elemBytes o.fmt cols) with
  | some e => some e
  | none => if isMx o.fmt then s.extentFault p write o.loc o.sbase ((rows - 1) * o.sstride + ceilDiv cols 32) else none

/-- Extent of A or B: rows of its own dimension, or of K with TRANS = 1. -/
def abExtent (s : State) (p : Nat) (o : Operand) (r k : Nat) : Option Nat :=
  if o.trans = 1 then s.matExtent p false o k r else s.matExtent p false o r k

/-- Elements of a V vector that the chain uses (08 R251). -/
def vecLen (ch : Option Chain) (which : Bool) (me ne : Nat) : Nat :=
  match ch with
  | none => 0
  | some c =>
    let rec go (steps : List PicotStep) (cols : Nat) : Nat :=
      match steps with
      | [] => 0
      | st :: t =>
        let here := if (st.kind = 5 || st.kind = 6) && bitAt st.sel 0 = which then (if bitAt st.sel 1 then me else cols) else 0
        max here (go t (if st.kind = 9 then cols / 2 else cols))
    go c.steps ne

/-- A staging buffer's extent (08 R251). -/
def stageFault (o : Operand) : Option Nat :=
  if o.loc ≠ 1 then none
  else if o.stage ≥ 4096 then some Status.accessDenied
  else if o.stage + o.stageRows > 4096 then some Status.accessSpan else none

/-- Check 6, in its order (08 R250, R251). -/
def matCheck6 (s : State) (p : Nat) (ch : Option Chain) (a b c d v0 v1 : Operand) (me ne ke : Nat) : Option Nat :=
  let gated := match ch with
    | some c => c.gated
    | none => false
  let nc := if gated then ne / 2 else ne
  [s.abExtent p a me ke, s.abExtent p b ne ke, if d.loc = 2 then none else s.matExtent p false d me nc,
   s.extentFault p false v0.loc v0.base (4 * vecLen ch false me ne), s.extentFault p false v1.loc v1.base (4 * vecLen ch true me ne),
   stageFault a, stageFault b, stageFault d, stageFault c, s.matExtent p true c me nc].findSome? id

/-- What a macro does at issue: a fault, an immediate OK_ZERO with its class's result, or the macro in flight (08 R250, R257). -/
inductive MacroStart where
  | fault (status : Nat)
  | zero (result : Nat)
  | go (f : MacFly)

/-- The checks of a matrix macro in order (08 R237-R251). `d` is its descriptor row, `l` the value of XS. -/
def matStart (s : State) (n p : Nat) (img : TenImage) (d : List Byte) (l : Nat) : MacroStart :=
  if !matCheck1 img d then .fault Status.shapeIllegal
  else
    let h0 := matHead d
    match matBucket img (s.core n).program h0 l with
    | none => .fault Status.shapeIllegal
    | some (h, _) =>
      match matEff h l with
      | none => .fault Status.shapeIllegal
      | some (me, ne, ke) =>
        let ch := headChain img h
        let gated := match ch with
          | some c => c.gated
          | none => false
        let a := operandAt d 0x40
        let b := operandAt d 0x80
        let c := operandAt d 0xC0
        let dd := operandAt d 0x100
        let v0 := operandAt d 0x140
        let v1 := operandAt d 0x180
        if me = 0 || ne = 0 || ke = 0 || h.tm = 0 || h.tn = 0 || h.tk = 0 then
          .zero (h.bucket * 2 ^ 32 + b2n h.tsrc * 2 ^ 35)
        else if !matCheck4 h gated a b c dd then .fault Status.shapeIllegal
        else if !([a, b, c, dd, v0, v1].all alignOk) then .fault Status.alignFault
        else match s.matCheck6 p ch a b c dd v0 v1 me ne ke with
          | some e => .fault e
          | none => .go (.matrix
              { a := a, b := b, c := c, d := dd, v0 := v0, v1 := v1, me := me, ne := ne, ke := ke, tm := h.tm, tn := h.tn,
                tk := h.tk, fm := if h.order = 3 || h.order = 4 || h.order = 5 then roundUp h.m h.tm else h.tm, order := h.order,
                chain := ch, claim := if h.claim then some h.ctr else none, bucket := h.bucket, tileSrc := h.tsrc, db := h.db, pdk := p })

/-- Staging rows hold nothing defined once a macro uses them (08 R255). -/
def clobberStage (s : State) (n : Nat) (os : List Operand) : State :=
  os.foldl (fun s o =>
    if o.loc = 1 then
      ({ s with free := s.free + 1 } : State).modCore n (fun c =>
        (List.range o.stageRows).foldl (fun c i => c.setRow (o.stage + i) (Config.freeRow s.free (o.stage + i))) c)
    else s) s

/-! ### Running (08 R244, R252-R260) -/

/-- A claim counter of a bay (08 R258). -/
def claim (s : State) (b k : Nat) : Claim := tget {} (s.bay b).claims k

/-- A take of `cnt` from a claim counter: its answer, `none` for all ones (08 R258). -/
def claimTake (s : State) (b k cnt : Nat) : Option Nat × State :=
  let c := s.claim b k
  if cnt = 0 then (some c.value, s)
  else if c.value < c.limit then
    (some c.value, s.modBay b (fun x => { x with claims := tset x.claims k { c with value := min (c.value + cnt) (2 ^ 32 - 1) } }))
  else (none, s)

end State

/-- Output tiles over the effective dimensions, and the tile of a number (08 R244, R260). -/
def tileAt (f : MatFly) (i : Nat) : Nat × Nat :=
  let nm := ceilDiv f.me f.tm
  let nn := ceilDiv f.ne f.tn
  if f.order = 1 then (i % nm, i / nm) else (i / nn, i % nn)

/-- How many output tiles there are. -/
def tileCount (f : MatFly) : Nat := ceilDiv f.me f.tm * ceilDiv f.ne f.tn

/-- Outer tiles of K. -/
def kTiles (f : MatFly) : Nat := ceilDiv f.ke f.tk

/-- Step i of the outer loops: row tile, column tile and K tile, in the order that ORDER gives; of a claiming macro, the tiles it has claimed
(08 R244, R260). `none` past the last one, or where the tile is not claimed yet. -/
def stepAt (f : MatFly) (i : Nat) : Option (Nat × Nat × Nat) :=
  let nm := ceilDiv f.me f.tm
  let nn := ceilDiv f.ne f.tn
  let nk := kTiles f
  match f.claim with
  | some _ =>
    if i / nk < f.first then none
    else (f.taken[i / nk - f.first]?).map (fun t => let e := tileAt f t; (e.1, e.2, i % nk))
  | none =>
    if nm * nn * nk ≤ i then none
    else match f.order with
      | 2 => some (i / (nk * nn), i % nn, i / nn % nk)
      | 3 => some (i % nm, i / (nk * nm), i / nm % nk)
      | 4 => some (i / nn % nm, i % nn, i / (nm * nn))
      | 5 => some (i % nm, i / nm % nn, i / (nm * nn))
      | _ => let e := tileAt f (i / nk); some (e.1, e.2, i % nk)

/-- The step at which the A tile that step i uses was fetched: with A resident, the first of the innermost loop (08 R244). -/
def aStep (f : MatFly) (i : Nat) : Nat := if f.order = 2 || f.order = 4 then i - i % ceilDiv f.ne f.tn else i

/-- As `aStep`, for the B tile. -/
def bStep (f : MatFly) (i : Nat) : Nat := if f.order = 3 || f.order = 5 then i - i % ceilDiv f.me f.tm else i

/-- Extents of `rows` stored rows from r0 and `cols` elements from c0 of an operand, with those of its scales: offset and length (08 R240). -/
def boxExtents (o : Operand) (r0 rows c0 cols : Nat) : List (Nat × Nat) :=
  (List.range rows).flatMap (fun i =>
    (o.base + (r0 + i) * o.stride + c0 * elemNibbles o.fmt / 2, elemBytes o.fmt cols)
      :: (if isMx o.fmt then [(o.sbase + (r0 + i) * o.sstride + c0 / 32, ceilDiv cols 32)] else []))

/-- Extents of a tile of A or B: `rows` indices from r0 of its own dimension, `ks` of K from k0. -/
def abExtents (o : Operand) (r0 rows k0 ks : Nat) : List (Nat × Nat) :=
  if o.trans = 1 then boxExtents o k0 ks r0 rows else boxExtents o r0 rows k0 ks

/-- Whether a chain reads D. -/
def usesD (f : MatFly) : Bool := f.chain.elim false (fun c => c.steps.any (fun s => s.kind = 7))

/-- Columns of C and D that a tile of `cols` columns from n0 has: half of them with GATE. -/
def outCols (f : MatFly) (n0 cols : Nat) : Nat × Nat := if f.chain.elim false Chain.gated then (n0 / 2, cols / 2) else (n0, cols)

namespace State

/-- What step i fetches into staging: its A and B tiles where they are in package memory and not resident, and D's with the last K tile
(08 R244, R252). Package address and length. -/
def stepFetches (s : State) (f : MatFly) (i : Nat) : List (Nat × Nat) :=
  match stepAt f i with
  | none => []
  | some (mt, nt, kt) =>
    let m0 := mt * f.tm
    let n0 := nt * f.tn
    let k0 := kt * f.tk
    let rows := min f.tm (f.me - m0)
    let cols := min f.tn (f.ne - n0)
    let ks := min f.tk (f.ke - k0)
    let oc := outCols f n0 cols
    ((if f.a.loc = 1 && aStep f i = i then abExtents f.a m0 rows k0 ks else [])
      ++ (if f.b.loc = 1 && bStep f i = i then abExtents f.b n0 cols k0 ks else [])
      ++ (if f.d.loc = 1 && usesD f && kt + 1 = kTiles f then boxExtents f.d m0 rows oc.1 oc.2 else [])).map
        (fun e => ((s.pkgAddr f.pdk (e.1 : Int)).toNat, e.2))

/-- Whether everything that step i fetches has arrived. -/
def stepLanded (s : State) (f : MatFly) (i : Nat) : Bool := tileBytes (s.stepFetches f i) ≤ tget 0 f.seq.landed i

/-- The bytes of an operand's space as the sequencer reads them: the scratchpad, or what was staged for step i. -/
def stagedByte (s : State) (n : Nat) (f : MatFly) (o : Operand) (i a : Nat) : Byte :=
  if o.loc = 0 then s.opByte n f.pdk 0 a else tget 0 (tget [] f.seq.staged i) (s.pkgAddr f.pdk (a : Int)).toNat

end State

/-- The accumulator half of an output tile: with DB = 1 tiles alternate between the halves, in loop orders with K outside M or N the groups of
tiles that share the accumulator do (08 R245, R253; log 27, DESIGN CHOICE). -/
def accHalf (f : MatFly) (i mt nt : Nat) : Nat :=
  if !f.db then 0
  else match f.order with
    | 2 => mt % 2
    | 3 => nt % 2
    | 4 => 0
    | 5 => 0
    | _ => i / kTiles f % 2

/-- The accumulator row that holds row `i` of column block `nb` of output tile (mt, nt): column blocks of FM rows each, one after the other
(08 R245; log 27, DESIGN CHOICE). -/
def accPlace (f : MatFly) (half mt nt i nb : Nat) : Nat :=
  let row := (if f.order = 3 || f.order = 4 || f.order = 5 then mt * f.tm else 0) + i
  let blk := (if f.order = 2 || f.order = 4 || f.order = 5 then nt * (f.tn / 128) else 0) + nb
  (half * 256 + blk * f.fm + row) % 512

namespace State

/-- The array passes of one step: each row of the A tile added into its accumulator rows, over the K blocks of the step in ascending order
(08 R243, R244, R246). Entries of columns at or beyond N' are not stated (log 9, DESIGN CHOICE). -/
def passes (s : State) (n : Nat) (f : MatFly) (i mt nt kt : Nat) : State :=
  let m0 := mt * f.tm
  let n0 := nt * f.tn
  let rows := min f.tm (f.me - m0)
  let cols := min f.tn (f.ne - n0)
  let kb := kt * f.tk / 128
  let kbs := min (f.tk / 128) (ceilDiv f.ke 128 - kb)
  let ra := s.stagedByte n f f.a (aStep f i)
  let rb := s.stagedByte n f f.b (bStep f i)
  let fr := s.free
  let c0 := s.core n
  let acc := (List.range rows).foldl (fun t r => (List.range (ceilDiv cols 128)).foldl (fun t nb =>
    let at_ := accPlace f (accHalf f i mt nt) mt nt r nb
    let old := if kt = 0 then (0 : Row) else tget 0 c0.acc at_
    let open_ := Config.freeRow fr at_
    let v := ofLanes 32 ((List.range 128).map (fun j =>
      if nb * 128 + j < cols then
        (dotBlocks ra rb f.a f.b f.ke (m0 + r) (n0 + nb * 128 + j) kbs kb (BitVec.ofNat 32 (old.toNat / 2 ^ (32 * j)))).toNat
      else open_.toNat / 2 ^ (32 * j) % 2 ^ 32))
    tset t at_ v) t) c0.acc
  ({ s with free := s.free + 1 } : State).modCore n (fun c => { c with acc := acc })

/-- The macro in flight on a core replaced. -/
def putMat (s : State) (n bundle : Nat) (f : MatFly) : State := s.modCore n (fun c => { c with mac := some ⟨bundle, .matrix f⟩ })

/-- A claiming macro takes its next output tile: one at issue, then one as each tile's computation begins; it stops at the first take that
returns all ones or a number beyond its tiles (08 R260). -/
def takeTile (s : State) (n : Nat) (f : MatFly) : State × MatFly :=
  match f.claim with
  | none => (s, f)
  | some k =>
    if f.stopped then (s, f)
    else
      let (v, s) := s.claimTake (n / 16) k 1
      match v with
      | none => (s, { f with stopped := true })
      | some i => if i < tileCount f then (s, { f with taken := f.taken ++ [i] }) else (s, { f with stopped := true })

/-- The steps of the outer loops whose operands are there are computed, until an output tile has to be drained first: with DB = 0 the next
tile waits for the drain, with DB = 1 only for its own half (08 R252, R253, R260). -/
def seqAdvance (s : State) (n : Nat) : Nat → State
  | 0 => s
  | fuel + 1 =>
    match (s.core n).mac with
    | some ⟨bundle, .matrix f⟩ =>
      match stepAt f f.pos with
      | none => s
      | some (mt, nt, kt) =>
        if !s.stepLanded f f.pos || (if f.db then 2 else 1) ≤ f.full.length then s
        else
          let (s, f) := if kt = 0 then s.takeTile n f else (s, f)
          let s := s.passes n f f.pos mt nt kt
          let full := if kt + 1 = kTiles f then
              f.full ++ [{ mt := mt, nt := nt, half := accHalf f f.pos mt nt, step := f.pos }] else f.full
          let low := full.foldl (fun m t => min m t.step) (min (aStep f (f.pos + 1)) (bStep f (f.pos + 1)))
          let q := { f.seq with staged := f.seq.staged.filter (fun e => low ≤ e.1), landed := f.seq.landed.filter (fun e => low ≤ e.1) }
          (s.putMat n bundle { f with pos := f.pos + 1, full := full, seq := q }).seqAdvance n fuel
    | _ => s

/-- Bound on the steps that `seqAdvance` takes. -/
def seqFuel (f : MatFly) : Nat := (tileCount f + 1) * kTiles f

/-- Whether draining an output tile would write to a quarantined stack (08 R265, 16 R463). -/
def tileBad (s : State) (f : MatFly) (t : FullTile) : Option Nat :=
  let m0 := t.mt * f.tm
  let n0 := t.nt * f.tn
  let oc := outCols f n0 (min f.tn (f.ne - n0))
  if f.c.loc = 1 && (boxExtents f.c m0 (min f.tm (f.me - m0)) oc.1 oc.2).any (fun e => s.quarTouch (s.pkgAddr f.pdk (e.1 : Int)).toNat e.2) then
    some Status.quarantined
  else none

/-- An output tile drained from the accumulator through its chain into C (08 R246, R252, R256). `ds`: random bits where the chain rounds
stochastically. -/
def drainTile (s : State) (n : Nat) (f : MatFly) (t : FullTile) (ds : Option (List Nat)) : State :=
  let m0 := t.mt * f.tm
  let n0 := t.nt * f.tn
  let rows := min f.tm (f.me - m0)
  let cols := min f.tn (f.ne - n0)
  let steps := f.chain.elim [] (·.steps)
  (List.range rows).foldl (fun s i =>
    let sums := (List.range cols).map (fun j =>
      BitVec.ofNat 32 ((tget (0 : Row) (s.core n).acc (accPlace f t.half t.mt t.nt i (j / 128))).toNat / 2 ^ (32 * (j % 128))))
    let (c0, out) := s.runChain n f (s.stagedByte n f f.d t.step) (m0 + i) steps n0 sums
    s.writeOut n f (m0 + i) c0 out ds (i * out.length)) s

/-- The special-function unit's use by a drain: in every beat of its rows, and each SFN or GATE selector until its result is written (07 R231,
08 R252, R264). -/
def drainUnit (f : MatFly) (t : FullTile) (c : Core) : Core :=
  let steps := f.chain.elim [] (·.steps)
  let sels := (steps.filter (fun s => s.kind = 8 || s.kind = 9)).map (fun s => s.imm.toNat % 64)
  let rows := min f.tm (f.me - t.mt * f.tm) * ceilDiv (min f.tn (f.ne - t.nt * f.tn)) 128
  if sels.isEmpty then c else sels.foldl (fun c k => c.fly (rows + 6 + steps.length) (.sfuDone k)) (c.fly rows .drainUse)

/-- TILE_DRAIN: the steps that can be computed are, and the oldest output tile computed is drained (08 R252, R253, R260, R263, R265). With
stochastic rounding it waits while the DRBG is stopped. -/
def tileDrain (s : State) (n : Nat) : State :=
  match (s.core n).mac with
  | some ⟨_, .matrix f⟩ =>
    if !s.macLive n then s
    else
      let s := s.seqAdvance n (seqFuel f)
      match (s.core n).mac with
      | some ⟨bundle, .matrix f⟩ =>
        match f.full with
        | [] => s
        | t :: rest =>
          let sr := f.chain.elim false (·.sr)
          if sr && !s.drbgReady then s
          else match s.tileBad f t with
            | some e => s.coreFault n e bundle
            | none =>
              let elems := min f.tm (f.me - t.mt * f.tm) * min f.tn (f.ne - t.nt * f.tn)
              let (ds, s) := if sr then (let r := s.draws (ceilDiv elems 4); (some r.1, r.2)) else (none, s)
              ((s.drainTile n f t ds).putMat n bundle { f with
                full := rest, drained := f.drained + 1, taken := f.taken.drop (if f.claim.isSome then 1 else 0),
                first := f.first + (if f.claim.isSome then 1 else 0) }).modCore n (drainUnit f t)
      | _ => s
  | _ => s

/-- Whether a matrix macro has drained all its output tiles (08 R257, R260). -/
def matDone (f : MatFly) : Bool :=
  f.full.isEmpty && (if f.claim.isSome then f.stopped && f.taken.isEmpty else tileCount f * kTiles f ≤ f.pos)

/-! ### The sequencer's fetches (10 R304) -/

/-- Beats of the array passes of step i: the effective rows of its M tile times beats per row, for each K block and column block (08 R241,
R252). -/
def passBeats (f : MatFly) (i : Nat) : Nat :=
  let p (fmt : Nat) : Nat := if fmt = 1 then 4 else if fmt = 8 then 1 else 2
  match stepAt f i with
  | none => 0
  | some (mt, nt, kt) =>
    min f.tm (f.me - mt * f.tm) * max (p f.a.fmt) (p f.b.fmt) * ceilDiv (min f.tn (f.ne - nt * f.tn)) 128
      * ceilDiv (min f.tk (f.ke - kt * f.tk)) 128

/-- The runway of an operand of step i: the array passes that remain before it is needed, in ticks (10 R304; log 84, DESIGN CHOICE). -/
def seqRunway (f : MatFly) (i : Nat) : Nat :=
  Config.beatTicks (((List.range (i - f.pos)).map (fun d => passBeats f (f.pos + d))).foldl (· + ·) 0)

/-- The pieces that step i is fetched in. -/
def stepPieces (s : State) (f : MatFly) (i : Nat) : List (List StrmRow) := tilePieces i 0 (s.stepFetches f i)

end State

/-- TILE_DRAIN (08 R243-R265, 11 R325-R332). -/
def execTileDrain (c : CoreId) (s : State) : Res := .next (s.tileDrain c.val)

end Sys2Proof.Machine
end

