-- ==== Sys2Proof/Machine/Yard.lean ====
section
/-! DEFINITION. The Yard: sequences, pages, the Manger, the prefix tree and the Loft (13), and the commands about them that no core
issues. -/

namespace Sys2Proof.Machine

namespace State

/-! ### Sizes and lookups -/

/-- Token stride S in bytes (04 R105, R106). -/
def strideB (s : State) : Nat := match s.plat with
  | some pl => 128 * pl.stride
  | none => 0

/-- Bytes of a page (04 R106). -/
def pageB (s : State) : Nat := 16 * s.strideB

/-- Pool page count (04 R106). -/
def poolPages (s : State) : Nat := match s.plat with
  | some pl => min (pl.poolFrames * frameSize / s.pageB) 4194304
  | none => 0

/-- Manger slot count (04 R106). -/
def mangerSlots (s : State) : Nat := 33554432 / s.pageB

/-- Package address of a pool page frame: the frames lie one after another from the pool's base (log 33, DEDUCED). -/
def poolAddr (s : State) (f : Nat) : Nat := (match s.plat with
  | some pl => pl.poolBase * frameSize
  | none => 0) + f * s.pageB

/-- The live sequence that a handle names for paddock p (13 R363). -/
def seqAt (s : State) (p h : Nat) : Option Seq :=
  match tfind s.yard.seqs (h % 65536) with
  | some q => if q.pdk = p && tget 0 s.yard.gens (p * 65536 + h % 65536) = h / 65536 && h ≠ 0 then some q else none
  | none => none

/-- The Yard changed. -/
def modYard (s : State) (f : Yard → Yard) : State := { s with yard := f s.yard }

/-- A sequence's descriptor changed. -/
def modSeq (s : State) (i : Nat) (f : Seq → Seq) : State :=
  match tfind s.yard.seqs i with
  | some q => s.modYard (fun y => { y with seqs := tset y.seqs i (f q) })
  | none => s

/-- A page-table entry (13 R366). -/
def pte (s : State) (i pg : Nat) : Pte := tget {} s.yard.ptes (i * 2 ^ 20 + pg)

/-- A page-table entry written. -/
def setPte (s : State) (i pg : Nat) (e : Pte) : State := s.modYard (fun y => { y with ptes := tset y.ptes (i * 2 ^ 20 + pg) e })

/-- The pages of a sequence that are backed, with their entries. -/
def ptesOf (s : State) (i : Nat) : Tab Pte :=
  (s.yard.ptes.filter (fun e => e.1 / 2 ^ 20 = i)).map (fun e => (e.1 % 2 ^ 20, e.2))

/-- Whether an entry names a pool frame (13 R366). -/
def inFrame (e : Pte) (f : Nat) : Bool := (e.st = .resident || e.st = .manger) && e.loc = f

/-- Sequences' references to a frame (13 R374). -/
def seqRefs (s : State) (f : Nat) : Nat := (s.yard.ptes.filter (fun e => inFrame e.2 f)).length

/-- The prefix node that holds a frame (13 R374, R382). -/
def nodeOf (s : State) (f : Nat) : Option Nat := (s.yard.nodes.find? (fun e => e.2.frame = f)).map (·.1)

/-- References to a frame, those of sequences that are being dropped included (13 R374, R380). -/
def frameRefs (s : State) (f : Nat) : Nat :=
  s.seqRefs f + b2n (s.nodeOf f).isSome
    + (s.yard.deferred.foldl (fun t d => t + (d.ptes.filter (fun e => inFrame e.2 f)).length) 0)

/-- Whether a page has more than one reference (13 R374). -/
def shared (s : State) (e : Pte) : Bool :=
  (e.st = .resident || e.st = .manger) && 1 < s.seqRefs e.loc + b2n (s.nodeOf e.loc).isSome

/-- Frames of a paddock that count against PAGES: those awaiting zeroing included (13 R373, YRD_USE). -/
def pagesUsed (s : State) (p : Nat) : Nat := (s.yard.frames.filter (fun e => e.2.pdk = p)).length

/-- Manger slots that a paddock holds (13 YRD_USE). -/
def slotsUsed (s : State) (p : Nat) : Nat := (s.yard.slots.filter (fun e => e.2 = p)).length

/-- Live sequences of a paddock (13 YRD_USE2). -/
def seqsUsed (s : State) (p : Nat) : Nat := (s.yard.seqs.filter (fun e => e.2.pdk = p)).length

/-- Prefix nodes of a paddock (13 YRD_USE2). -/
def nodesUsed (s : State) (p : Nat) : Nat := (s.yard.nodes.filter (fun e => e.2.pdk = p)).length

/-- Pages of a paddock in the Loft, as grant and slot; pages being dropped included (13 R388, R389). -/
def loftPages (s : State) (p : Nat) : List (Nat × Nat) :=
  let mine := s.yard.ptes.filter (fun e => match tfind s.yard.seqs (e.1 / 2 ^ 20) with
    | some q => q.pdk = p
    | none => false)
  let late := (s.yard.deferred.filter (fun d => d.pdk = p)).flatMap (·.ptes)
  ((mine ++ late).filter (fun e => e.2.st = .loft)).map (fun e => (e.2.grant, e.2.loc))

end State

/-- The free number that follows a free value, modulo `n`, among those not in `used` (log 34, DESIGN CHOICE). -/
def pickFree (used : Nat → Bool) (n v : Nat) : Option Nat :=
  if n = 0 then none else ((List.range n).map (fun i => (v + i) % n)).find? (fun i => !used i)

namespace State

/-! ### Loft slots (13 R388-R390) -/

/-- Bytes of a Loft slot (13 R389). -/
def loftSlotB (s : State) : Nat := s.pageB + 64

/-- A Loft grant. -/
def grant (s : State) (p g : Nat) : LoftGrant := tget {} (s.pdk p).loft g

/-- Slots of a grant (13 R389). -/
def grantSlots (s : State) (g : LoftGrant) : Nat := g.mib * 2 ^ 20 / s.loftSlotB

/-- The lowest free slot of the lowest-numbered grant that is enabled and whose last change is acknowledged (13 R388, R389). -/
def loftSlot (s : State) (p : Nat) : Option (Nat × Nat) :=
  let used := s.loftPages p
  (List.range 16).findSome? (fun g =>
    let x := s.grant p g
    if x.en && epochDone s.sec.ack x.epoch then
      let mine := (used.filter (fun u => u.1 = g)).map (·.2)
      ((List.range (min (s.grantSlots x) (mine.length + 1))).find? (fun i => !mine.contains i)).map (fun i => (g, i))
    else none)

/-- A key derived from a paddock's root key; the labels are the model's own numbers (06 R174; log 8, PRESUMED). -/
def pdkKey (s : State) (p label : Nat) : BitVec 256 := Config.derivedKey ((s.pdk p).rootKey.getD 0) label

/-- The key pair of a paddock's Loft pages (06 R174, 13 R390). -/
def loftKeys (s : State) (p : Nat) : BitVec 512 := s.pdkKey p 2 ++ s.pdkKey p 3

/-- Associated data of a Loft page's tag, before its ciphertext (13 R390). -/
def loftAad (s : State) (handle pos version : Nat) : List Byte :=
  leBytes 4 handle ++ leBytes 4 pos ++ leBytes 6 version ++ leBytes 1 (s.strideB / 128) ++ leBytes 1 0

/-- The handle of a sequence by its descriptor index (13 R363). -/
def handleOf (s : State) (i : Nat) : Nat := match tfind s.yard.seqs i with
  | some q => i + 65536 * tget 0 s.yard.gens (q.pdk * 65536 + i)
  | none => 0

/-! ### Frames and slots (13 R371-R376, R386) -/

/-- Bytes of a page where it lies: its Manger slot or its frame (13 R371). -/
def pageBytes (s : State) (e : Pte) : List Byte :=
  if e.st = .manger then readBytes s.yard.manger (e.slot * s.pageB) s.pageB else readBytes s.mem (s.poolAddr e.loc) s.pageB

/-- A page read by the Yard: where it lies in its frame the read goes to the memory controllers (10 R306). -/
def pageRead (s : State) (e : Pte) : List Byte × State :=
  (s.pageBytes e, if e.st = .manger then s else s.traffic false (s.poolAddr e.loc) [] s.pageB)

/-- Whether reading or writing a pool frame meets a quarantined stack or a poisoned granule (16 R460, R463). -/
def pageBad (s : State) (e : Pte) : Option Nat :=
  if e.st ≠ .resident then none
  else if s.quarTouch (s.poolAddr e.loc) s.pageB then some Status.quarantined
  else if s.poisonTouch (s.poolAddr e.loc) s.pageB then some Status.rowRetired else none

/-- A frame drawn for a paddock: in use, and zero (13 R373, R375). -/
def drawFrame (s : State) (p f : Nat) (u : FrameUse) : State :=
  (s.zeroMem (s.poolAddr f) (s.poolAddr f + s.pageB)).modYard (fun y =>
    { y with frames := tset y.frames f { pdk := p, use := u, lastUse := s.dev.tsc.toNat } })

/-- A freed frame awaits its zeroing (13 R373). -/
def freeFrame (s : State) (f : Nat) : State :=
  s.modYard (fun y => { y with frames := match tfind y.frames f with
    | some x => tset y.frames f { x with use := .zeroing }
    | none => y.frames })

/-- A freed Manger slot awaits its zeroing (13 R373). -/
def freeSlot (s : State) (sl : Nat) : State :=
  s.modYard (fun y => { y with slots := match tfind y.slots sl with
    | some p => tset y.slots sl (p % 64 + 64)
    | none => y.slots })

/-- A use of a frame noted (13 R376). -/
def touchFrame (s : State) (f : Nat) : State :=
  s.modYard (fun y => { y with frames := match tfind y.frames f with
    | some x => tset y.frames f { x with lastUse := s.dev.tsc.toNat }
    | none => y.frames })

/-- A reference to a page given up: its open slot is freed without a flush, its frame with its last reference (13 R372, R374). -/
def dropRef (s : State) (e : Pte) : State :=
  let s := if e.st = .manger then s.freeSlot e.slot else s
  if (e.st = .resident || e.st = .manger) && s.frameRefs e.loc = 0 then s.freeFrame e.loc else s

/-- Node-only leaves of a paddock, with their creation times (13 R386). -/
def leaves (s : State) (p : Nat) : List (Nat × Nat) :=
  (s.yard.nodes.filter (fun e => e.2.pdk = p && s.seqRefs e.2.frame = 0
    && !s.yard.nodes.any (fun c => c.2.parent = some e.1))).map (fun e => (e.1, e.2.created))

/-- The pair with the smallest second part, the lowest first part among equals. -/
def oldest : List (Nat × Nat) → Option Nat
  | [] => none
  | c :: t => some (t.foldl (fun w x => if x.2 < w.2 || (x.2 = w.2 && x.1 < w.1) then x else w) c).1

/-- Node-record pages that `n` nodes take (13 R382). -/
def recordPages (s : State) (n : Nat) : Nat := ceilDiv n (s.strideB / 8)

/-- The oldest node-only leaf reclaimed, and the frames it gives (13 R375, R386). -/
def reclaim (s : State) (p : Nat) : Option (List Nat × State) :=
  match oldest (s.leaves p) with
  | none => none
  | some id =>
    let f := (tfind s.yard.nodes id).elim 0 (·.frame)
    let s := s.modYard (fun y => { y with nodes := tdel y.nodes id })
    let rs := tget [] s.yard.nodePages p
    let keep := s.recordPages (s.nodesUsed p)
    some (f :: rs.drop keep, s.modYard (fun y => { y with nodePages := tset y.nodePages p (rs.take keep) }))

/-- Whether an entry of a sequence is a page that may spill (13 R376). `excl`: pages that an operation or attention item is using. -/
def spillable (s : State) (i pg len : Nat) (e : Pte) (excl : List (Nat × Nat)) : Bool :=
  e.st = .resident && 16 * (pg + 1) ≤ len && s.frameRefs e.loc = 1 && !e.pin && !excl.contains (i, pg) && e.version < 2 ^ 48 - 1

/-- Pages that attention tiles are using (13 R376). -/
def attHolds (s : State) : List (Nat × Nat) :=
  (s.cores.map (fun e => match e.2.mac with
    | some ⟨_, .attention f⟩ => f.awaits
    | _ => [])).flatten

/-- The pages of a paddock that may spill: sequence, page and entry. -/
def spillables (s : State) (p : Nat) (excl : List (Nat × Nat)) : List (Nat × Nat × Pte) :=
  s.yard.ptes.filterMap (fun e =>
    let i := e.1 / 2 ^ 20
    let pg := e.1 % 2 ^ 20
    match tfind s.yard.seqs i with
    | some q => if q.pdk = p && s.spillable i pg q.length e.2 (excl ++ s.attHolds) then some (i, pg, e.2) else none
    | none => none)

/-- The oldest spillable page of a paddock spilled to its next Loft slot under a new version, and the frame it gives (13 R375, R376,
R389, R390). -/
def spillOne (s : State) (p : Nat) (excl : List (Nat × Nat)) : Option (List Nat × State) :=
  let cs := s.spillables p excl
  match oldest (cs.map (fun c => (c.2.2.loc, (tfind s.yard.frames c.2.2.loc).elim 0 (·.lastUse)))), s.loftSlot p with
  | some f, some (g, sl) =>
    match cs.find? (fun c => c.2.2.loc = f) with
    | none => none
    | some (i, pg, e) =>
      let v := (s.pdk p).spill + 1
      let x := s.grant p g
      let (pt, s) := s.pageRead e
      let ct := Config.loftEncrypt (s.loftKeys p) (16 * pg) v pt
      let tag := Config.loftTag (s.pdkKey p 4) (s.loftAad (s.handleOf i) (16 * pg) v) ct
      let s := s.modPdk p (fun d => { d with spill := v })
      let s := s.hostWrite (p + 1) (x.base + sl * s.loftSlotB)
        ((ct ++ List.replicate s.pageB 0).take s.pageB ++ (tag ++ List.replicate 16 0).take 16 ++ List.replicate 48 0)
      some ([f], s.setPte i pg { e with st := .loft, grant := g, loc := sl, version := v })
  | _, _ => none

/-- Frames gathered by one of the sources until `k` are at hand, in at most `fuel` steps. -/
def gather (k : Nat) (next : State → Option (List Nat × State)) : Nat → List Nat → State → List Nat × State
  | 0, fs, s => (fs, s)
  | n + 1, fs, s =>
    if k ≤ fs.length then (fs, s)
    else match next s with
      | none => (fs, s)
      | some (more, s') => gather k next n (fs ++ more) s'

/-- `k` page frames for a paddock, or nothing moved (13 R375). -/
def acquire (s : State) (p k : Nat) (u : FrameUse) (excl : List (Nat × Nat)) : Option (List Nat × State) :=
  let q := (s.quota p).pages - s.pagesUsed p
  let used := s.yard.frames.map (·.1)
  let free := ((List.range (min s.poolPages (used.length + k))).filter (fun f => !used.contains f)).take (min k q)
  let (fs, s1) := gather k (fun s => s.reclaim p) s.yard.nodes.length free s
  let (fs, s2) := gather k (fun s => s.spillOne p excl) s1.yard.ptes.length fs s1
  if fs.length < k then none
  else some (fs.take k, (fs.drop k).foldl freeFrame ((fs.take k).foldl (fun s f => s.drawFrame p f u) s2))

/-- A page opens in a frame: in a Manger slot where one is free within the quota, else in the frame itself (13 R371). -/
def openPage (s : State) (p i pg f : Nat) : State :=
  let s := s.touchFrame f
  let v := s.openVal
  match (if s.slotsUsed p < (s.quota p).mangerSlots then pickFree (thas s.yard.slots) s.mangerSlots v.1.toNat else none) with
  | some sl => (v.2.modYard (fun y => { y with slots := tset y.slots sl p })).setPte i pg { st := .manger, loc := f, slot := sl }
  | none => s.setPte i pg { st := .resident, loc := f }

/-- Bytes written into a page from a token on, where the page lies (13 R371). -/
def writePage (s : State) (i pg tok : Nat) (d : List Byte) : State :=
  let e := s.pte i pg
  let s := s.touchFrame e.loc
  if e.st = .manger then
    s.modYard (fun y => { y with manger := writeBytes y.manger (e.slot * s.pageB + tok * s.strideB) d })
  else s.writeFrom (s.poolAddr e.loc + tok * s.strideB) d

/-- A full Manger slot flushed to its page's frame (13 R372). -/
def flushPage (s : State) (i pg : Nat) : State :=
  let e := s.pte i pg
  if e.st ≠ .manger then s
  else ((s.writeFrom (s.poolAddr e.loc) (s.pageBytes e)).touchFrame e.loc |>.freeSlot e.slot).setPte i pg
    { e with st := .resident, slot := 0 }

/-! ### Attention macros and sequences (12 R345, 13 R380) -/

/-- Whether an attention macro in flight named a sequence at issue, on a core or in a save record. -/
def macNames (s : State) (p h : Nat) : Bool :=
  let has (c : Core) : Bool := match c.mac with
    | some ⟨_, .attention f⟩ => f.pdk = p && f.ents.any (fun e => e.seq = h)
    | _ => false
  s.cores.any (fun e => has e.2) || s.saves.any (fun e => e.2.cores.any (fun c => has c.2))

/-- Pages of a sequence dropped: freed at once, or kept aside while an attention macro that named the sequence is in flight
(13 R369, R380). -/
def dropPages (s : State) (p h : Nat) (pgs : Tab Pte) (release : Option Nat) : State :=
  let i := h % 65536
  let s := pgs.foldl (fun s e => s.modYard (fun y => { y with ptes := tdel y.ptes (i * 2 ^ 20 + e.1) })) s
  if s.macNames p h then
    s.modYard (fun y => { y with deferred := y.deferred ++ [{ pdk := p, seq := h, ptes := pgs, release := release }] })
  else pgs.foldl (fun s e => s.dropRef e.2) s

/-- A sequence's descriptor and table pages freed (13 R369 RELEASE). -/
def freeSeq (s : State) (i : Nat) : State :=
  match tfind s.yard.seqs i with
  | some q => (q.tpages.foldl freeFrame s).modYard (fun y => { y with seqs := tdel y.seqs i })
  | none => s

end State

/-! ### Operations (13 R368-R370, R378) -/

/-- The code of an operation (13 R369). -/
def yardCode : YardOp → Nat
  | .create => 1 | .release => 2 | .append => 3 | .trim => 4 | .fork => 5 | .lookup => 6 | .publish => 7 | .pin => 8 | .unpin => 9
  | .prefetch => 10 | .query => 11 | .ptread => 12

/-- Operations whose zero count does nothing (13 R370 check 2). -/
def yardCounted : YardOp → Bool
  | .append | .fork | .lookup | .publish | .pin | .unpin | .prefetch | .ptread => true
  | _ => false

namespace State

/-- Rows of an operation's data (13 R370 check 4); 0 where it has none. -/
def yardRows (s : State) (op : YardOp) (n : Nat) : Nat :=
  match op with
  | .append => ceilDiv (n * s.strideB) 512
  | .lookup | .publish => ceilDiv (4 * n) 512
  | .ptread => ceilDiv (16 * n) 512
  | .query => 1
  | _ => 0

/-- The operation that a descriptor row asks for, with the data it reads at issue (13 R368, R370). -/
def yardOpOf (s : State) (n p : Nat) (op : YardOp) (d : List Byte) (cnt : Nat) : YOp :=
  let row := fieldAt d 0x10 2
  let len := match op with
    | .append => cnt * s.strideB
    | .lookup | .publish => 4 * cnt
    | _ => 0
  { pdk := p, bay := n / 16, op := op, seq := fieldAt d 4 4, a0 := fieldAt d 8 4, a1 := fieldAt d 12 4, row := row, n := cnt,
    data := s.opBytes n p 0 (512 * row) len }

/-- The checks of a Yard macro at issue, 1 to 5 (13 R370): a fault, OK_ZERO, or accepted. -/
def yardChecks (s : State) (p : Nat) (op : YardOp) (d : List Byte) (cnt : Nat) : MacroStart :=
  let h := fieldAt d 4 4
  let a0 := fieldAt d 8 4
  let row := fieldAt d 0x10 2
  if fieldAt d 0 1 ≠ yardCode op || !zeroAt d 1 3 || !zeroAt d 0x12 494 || row ≥ 4096
      || (op = .create && (a0 > 16777216 || h ≠ 0)) || (op = .append && cnt > 4096) then .fault Status.shapeIllegal
  else if (op = .create && a0 = 0) || (yardCounted op && cnt = 0) then .zero 0
  else if op = .publish && (a0 % 16 ≠ 0 || cnt % 16 ≠ 0) then .fault Status.alignFault
  else if s.yardRows op cnt ≠ 0 && row + s.yardRows op cnt > 4096 then .fault Status.accessSpan
  else if op ≠ .create && ((s.seqAt p h).isNone || (op = .fork && (s.seqAt p a0).isNone)) then .fault Status.accessDenied
  else .go (.yard s.yard.nextOp)

/-- Operations that a bay's intake holds (13 R381). -/
def intake (s : State) (b : Nat) : Nat := (s.yard.ops.filter (fun e => e.2.bay = b && e.2.st ≠ .done)).length

/-- An operation changed. -/
def modOp (s : State) (id : Nat) (f : YOp → YOp) : State :=
  match tfind s.yard.ops id with
  | some o => s.modYard (fun y => { y with ops := tset y.ops id (f o) })
  | none => s

/-- An operation completes; frames it drew and did not use go back (13 R228 in 07, R392). -/
def endOp (s : State) (id status result : Nat) : State :=
  match tfind s.yard.ops id with
  | some o => (o.frames.foldl freeFrame s).modOp id (fun o => { o with st := .done, status := status, result := result, frames := [], todo := [] })
  | none => s

/-- Whether the page a PTE stands for lies in the Loft. -/
def inLoft (s : State) (i pg : Nat) : Bool := (s.pte i pg).st = .loft

/-- Pages that a range touches (13 R369). -/
def touched (a n : Nat) : List Nat := if n = 0 then [] else (List.range ((a + n - 1) / 16 - a / 16 + 1)).map (· + a / 16)

/-- What an operation needs before its effect: its range check, the pages to bring back, and how many other frames (13 R369, R375,
R378, R383). -/
def opNeeds (s : State) (o : YOp) : Nat ⊕ (List (Nat × Nat) × Nat) :=
  let i := o.seq % 65536
  let q := (tfind s.yard.seqs i).getD { pdk := o.pdk, maxlen := 0, length := 0, ns := 0, tpages := [], created := 0 }
  let backs (j : Nat) (pgs : List Nat) : List (Nat × Nat) := (pgs.filter (s.inLoft j)).map (fun g => (j, g))
  match o.op with
  | .create =>
    if s.seqsUsed o.pdk ≥ (s.quota o.pdk).sequences then .inl Status.yardFull
    else .inr ([], ceilDiv (ceilDiv o.a0 16) s.strideB)
  | .append =>
    if q.length + o.n > q.maxlen then .inl Status.seqRange
    else
      let pgs := touched q.length o.n
      .inr (backs i pgs, (pgs.filter (fun g => (s.pte i g).st = .absent)).length)
  | .trim =>
    if o.a0 > q.length then .inl Status.seqRange
    else .inr ([], b2n (o.a0 % 16 ≠ 0 && s.shared (s.pte i (o.a0 / 16))))
  | .fork =>
    let j := o.a0 % 65536
    let src := (tfind s.yard.seqs j).elim 0 (·.length)
    if q.length ≠ 0 || o.n > src || o.n > q.maxlen then .inl Status.seqRange
    else .inr (backs j (touched 0 o.n), b2n (o.n % 16 ≠ 0))
  | .lookup => if q.length ≠ 0 then .inl Status.seqRange else .inr ([], 0)
  | .publish =>
    let held (g : Nat) : Bool := (s.pte i g).st = .resident && (s.nodeOf (s.pte i g).loc).isSome
    if o.a0 + o.n > q.length / 16 * 16 || (o.a0 > 0 && !held (o.a0 / 16 - 1)) then .inl Status.seqRange
    else
      let new := (touched o.a0 o.n).filter (fun g => !held g)
      let n := s.nodesUsed o.pdk + new.length
      if n > 1048576 * (s.quota o.pdk).pages / s.poolPages || s.yard.nodes.length + new.length > 1048576 then .inl Status.yardFull
      else .inr (backs i new, s.recordPages n - (tget [] s.yard.nodePages o.pdk).length)
  | .pin => if o.a0 + o.n > q.length then .inl Status.seqRange else .inr (backs i (touched o.a0 o.n), 0)
  | .unpin => if o.a0 + o.n > q.length then .inl Status.seqRange else .inr ([], 0)
  | .prefetch => if o.a0 + o.n > q.length then .inl Status.seqRange else .inr (backs i (touched o.a0 o.n), 0)
  | .ptread => if o.a0 + o.n > ceilDiv q.maxlen 16 then .inl Status.seqRange else .inr ([], 0)
  | .release | .query => .inr ([], 0)

/-- Pages in the range of an operation, which it never spills (13 R376). -/
def opRange (s : State) (o : YOp) : List (Nat × Nat) :=
  let i := o.seq % 65536
  match o.op with
  | .append => (touched ((tfind s.yard.seqs i).elim 0 (·.length)) o.n).map (fun g => (i, g))
  | .trim => [(i, o.a0 / 16)]
  | .fork => (touched 0 o.n).map (fun g => (o.a0 % 65536, g))
  | .publish | .pin | .unpin | .prefetch => (touched o.a0 o.n).map (fun g => (i, g))
  | _ => []

/-- A Loft page is read for an operation or an attention item (13 R391): the slot is read from host memory. -/
def loftRead (s : State) (p i pg : Nat) (e : Pte) (frame op : Option Nat) (core : Nat) : State :=
  let t := s.hif.nextTag
  let x := s.grant p e.grant
  (s.hostRead (p + 1) (x.base + e.loc * s.loftSlotB) s.loftSlotB .loft).modYard (fun y =>
    { y with fetches := tset y.fetches t { pdk := p, seq := i, page := pg, frame := frame, op := op, core := core, dead := false, ep := s.sec.epoch } })

/-! ### Effects -/

/-- CREATE (13 R363, R367, R369): which free descriptor it takes is free (log 34, DESIGN CHOICE). -/
def doCreate (s : State) (id : Nat) (o : YOp) : State :=
  let v := s.openVal
  match pickFree (thas s.yard.seqs) 65536 v.1.toNat with
  | none => s.endOp id Status.yardFull 0
  | some i =>
    let g := tget 0 s.yard.gens (o.pdk * 65536 + i) % 65535 + 1
    let s := o.frames.foldl (fun s f => s.drawFrame o.pdk f .table) v.2
    let q : Seq := { pdk := o.pdk, maxlen := o.a0, length := 0, ns := o.a1, tpages := o.frames, created := s.dev.tsc.toNat }
    let s := s.modYard (fun y => { y with gens := tset y.gens (o.pdk * 65536 + i) g, seqs := tset y.seqs i q })
    (s.modOp id (fun o => { o with frames := [] })).endOp id Status.ok (i + 65536 * g)

/-- RELEASE (13 R369, R380). -/
def doRelease (s : State) (id : Nat) (o : YOp) : State :=
  let i := o.seq % 65536
  if s.macNames o.pdk o.seq then
    ((s.modSeq i (fun q => { q with length := 0 })).dropPages o.pdk o.seq (s.ptesOf i) (some id)).modOp id (fun o =>
      { o with st := .release })
  else ((s.dropPages o.pdk o.seq (s.ptesOf i) none).freeSeq i).endOp id Status.ok 0

/-- The tokens of one page that an APPEND writes; a page not yet backed opens in the next frame; a slot that fills is flushed
(13 R371, R372). -/
def appendPage (o : YOp) (len : Nat) (a : State × List Nat) (pg : Nat) : State × List Nat :=
  let (s, fs) := a
  let i := o.seq % 65536
  let opens := (s.pte i pg).st = .absent
  let s := if opens then s.openPage o.pdk i pg (fs.headD 0) else s
  let lo := max len (16 * pg)
  let hi := min (len + o.n) (16 * pg + 16)
  let s := s.writePage i pg (lo - 16 * pg) ((o.data.drop ((lo - len) * s.strideB)).take ((hi - lo) * s.strideB))
  (if hi = 16 * pg + 16 then s.flushPage i pg else s, if opens then fs.drop 1 else fs)

/-- APPEND (13 R369, R371, R372). -/
def doAppend (s : State) (id : Nat) (o : YOp) : State :=
  let i := o.seq % 65536
  let len := (tfind s.yard.seqs i).elim 0 (·.length)
  let (s, fs) := (touched len o.n).foldl (appendPage o len) (s, o.frames)
  ((s.modSeq i (fun q => { q with length := len + o.n })).modOp id (fun o => { o with frames := fs })).endOp id Status.ok (len + o.n)

/-- The first `k` tokens of a page copied into a new open page of a sequence (13 R369 FORK, R378 TRIM). -/
def copyTokens (s : State) (p i pg f k : Nat) (src : Pte) : State :=
  let (d, s) := s.pageRead src
  (s.openPage p i pg f).writePage i pg 0 (d.take (k * s.strideB))

/-- TRIM (13 R369, R378, R380). -/
def doTrim (s : State) (id : Nat) (o : YOp) : State :=
  let i := o.seq % 65536
  let all := s.ptesOf i
  let pg := o.a0 / 16
  let e := s.pte i pg
  match o.frames with
  | f :: _ =>
    match s.pageBad e with
    | some st => s.endOp id st 0
    | none =>
      let gone := all.filter (fun x => pg ≤ x.1)
      let s := (s.modOp id (fun o => { o with frames := [] })).dropPages o.pdk o.seq gone none
      let s := s.copyTokens o.pdk i pg f (o.a0 % 16) e
      (s.modSeq i (fun q => { q with length := o.a0 })).endOp id Status.ok o.a0
  | [] =>
    let gone := all.filter (fun x => o.a0 ≤ 16 * x.1)
    ((s.dropPages o.pdk o.seq gone none).modSeq i (fun q => { q with length := o.a0 })).endOp id Status.ok o.a0

/-- FORK (13 R369). -/
def doFork (s : State) (id : Nat) (o : YOp) : State :=
  let i := o.seq % 65536
  let j := o.a0 % 65536
  let src := s.pte j (o.n / 16)
  match (if o.n % 16 = 0 then none else s.pageBad src) with
  | some st => s.endOp id st 0
  | none =>
    let s := (List.range (o.n / 16)).foldl (fun s g => s.setPte i g { s.pte j g with pin := false }) s
    let s := if o.n % 16 = 0 then s else s.copyTokens o.pdk i (o.n / 16) (o.frames.headD 0) (o.n % 16) src
    let s := s.modOp id (fun o => { o with frames := o.frames.drop (b2n (o.n % 16 ≠ 0)) })
    (s.modSeq i (fun q => { q with length := o.n })).endOp id Status.ok o.n

/-- Token IDs of page `k` of a list of 4-byte IDs. -/
def pageIds (d : List Byte) (k : Nat) : List (BitVec 32) := (List.range 16).map (fun j => BitVec.ofNat 32 (fieldAt d (64 * k + 4 * j) 4))

/-- The input of a node's index hash (13 R384). -/
def prefixInput (s : State) (ns : Nat) (parent : Option Nat) (page : Nat) (ids : List (BitVec 32)) : List Byte :=
  leBytes 4 ns ++ leBytes 4 (parent.getD 0xFFFFFFFF) ++ leBytes 4 page ++ leBytes 1 (s.strideB / 128) ++ leBytes 3 0
    ++ (ids.map (fun i => leBytes 4 i.toNat)).flatten

/-- The index hash of a node's input under the paddock's keys (13 R384). -/
def prefixHash (s : State) (p ns : Nat) (parent : Option Nat) (page : Nat) (ids : List (BitVec 32)) : BitVec 64 :=
  Crypto.sipHash (s.pdk p).pfxKey0 (s.pdk p).pfxKey1 (s.prefixInput ns parent page ids)

/-- Candidates of a level below the nodes `ps`: the hash matches and every field is equal (13 R385). -/
def candidatesAt (s : State) (p ns : Nat) (ps : List (Option Nat)) (page : Nat) (ids : List (BitVec 32)) : List Nat :=
  (s.yard.nodes.filter (fun e => e.2.pdk = p && e.2.ns = ns && ps.contains e.2.parent && e.2.page = page && e.2.ids = ids
    && s.prefixHash p e.2.ns e.2.parent e.2.page e.2.ids = s.prefixHash p ns e.2.parent page ids)).map (·.1)

/-- The deepest candidates of a walk of at most `n` levels from page `k`, and how many pages they cover (13 R385). -/
def walk (s : State) (p ns : Nat) (d : List Byte) : Nat → Nat → List (Option Nat) → Nat × List (Option Nat)
  | 0, k, ps => (k, ps)
  | n + 1, k, ps =>
    let cs := s.candidatesAt p ns ps k (pageIds d k)
    if cs.isEmpty then (k, ps) else s.walk p ns d n (k + 1) (cs.map some)

/-- The pages of the chain that ends at a node, deepest first. -/
def chainOf (s : State) : Nat → Option Nat → List Node
  | 0, _ => []
  | _, none => []
  | n + 1, some id => match tfind s.yard.nodes id with
    | some x => x :: s.chainOf n x.parent
    | none => []

/-- LOOKUP (13 R385). -/
def doLookup (s : State) (id : Nat) (o : YOp) : State :=
  let i := o.seq % 65536
  let q := (tfind s.yard.seqs i).getD { pdk := o.pdk, maxlen := 0, length := 0, ns := 0, tpages := [], created := 0 }
  let (k, ends) := s.walk o.pdk q.ns o.data (min (o.n / 16) (q.maxlen / 16)) 0 [none]
  let deepest := oldest (ends.filterMap (fun e => e.bind (fun x => (tfind s.yard.nodes x).map (fun nd => (x, nd.created)))))
  let s := (s.chainOf k deepest).foldl (fun s nd => s.setPte i nd.page { st := .resident, loc := nd.frame, version := nd.version }) s
  (s.modSeq i (fun q => { q with length := 16 * k })).endOp id Status.ok (16 * k)

/-- One page of a PUBLISH: its node is made, or the node that holds it becomes the parent (13 R383). -/
def publishPage (o : YOp) (ns : Nat) (a : State × Option Nat × Nat) (pg : Nat) : State × Option Nat × Nat :=
  let (s, parent, made) := a
  let e := s.pte (o.seq % 65536) pg
  match s.nodeOf e.loc with
  | some nd => (s, some nd, made)
  | none =>
    let v := s.openVal
    match pickFree (thas s.yard.nodes) 1048576 v.1.toNat with
    | none => (s, parent, made)
    | some nd =>
      let x : Node := { pdk := o.pdk, version := e.version, ns := ns, parent := parent, page := pg,
                        ids := pageIds o.data (pg - o.a0 / 16), frame := e.loc, created := s.dev.tsc.toNat }
      (v.2.modYard (fun y => { y with nodes := tset y.nodes nd x }), some nd, made + 1)

/-- PUBLISH (13 R382, R383). -/
def doPublish (s : State) (id : Nat) (o : YOp) : State :=
  let i := o.seq % 65536
  let ns := (tfind s.yard.seqs i).elim 0 (·.ns)
  let parent := if o.a0 = 0 then none else s.nodeOf (s.pte i (o.a0 / 16 - 1)).loc
  let (s, _, made) := (touched o.a0 o.n).foldl (publishPage o ns) (s, parent, 0)
  let rs := tget [] s.yard.nodePages o.pdk
  let new := o.frames.take (s.recordPages (s.nodesUsed o.pdk) - rs.length)
  let s := s.modYard (fun y => { y with nodePages := tset y.nodePages o.pdk (rs ++ new) })
  let s := new.foldl (fun s f => s.drawFrame o.pdk f .nodes) s
  (s.modOp id (fun o => { o with frames := o.frames.drop new.length })).endOp id Status.ok made

/-- PIN and UNPIN: the result counts the pages whose PIN changed (13 R369, R393; log 35, DEDUCED). -/
def doPin (s : State) (id : Nat) (o : YOp) (v : Bool) : State :=
  let i := o.seq % 65536
  let pgs := (touched o.a0 o.n).filter (fun g => (s.pte i g).pin ≠ v)
  (pgs.foldl (fun s g => s.setPte i g { s.pte i g with pin := v }) s).endOp id Status.ok pgs.length

/-- The sequence descriptor that QUERY writes (13 R365; log 36, DEDUCED for RESIDENT). -/
def descriptor (s : State) (i : Nat) (q : Seq) : List Byte :=
  let ps := s.ptesOf i
  let cnt (f : Pte → Bool) : Nat := (ps.filter (fun e => f e.2)).length
  let tail := s.pte i ((q.length - 1) / 16)
  leBytes 4 (s.handleOf i) ++ leBytes 4 q.maxlen ++ leBytes 4 q.length ++ leBytes 4 q.ns ++ leBytes 2 q.tpages.length
    ++ leBytes 2 (if q.length ≠ 0 && tail.st = .manger then tail.slot else 0xFFFF)
    ++ leBytes 4 (cnt (fun e => e.st = .resident || e.st = .manger)) ++ leBytes 4 (cnt (fun e => e.st = .loft))
    ++ leBytes 4 (cnt (·.pin)) ++ leBytes 4 (cnt s.shared) ++ leBytes 4 0 ++ leBytes 8 q.created ++ leBytes 16 0

/-- A page-table entry as PTREAD shows it (13 R366, R367). -/
def pteBytes (s : State) (e : Pte) : List Byte :=
  let st := match e.st with
    | .absent => 0
    | .resident => 1
    | .loft => 2
    | .manger => 3
  leBytes 8 (st + 4 * b2n e.pin + 8 * b2n (s.shared e) + (if e.st = .loft then 16 * e.grant + 256 * e.loc else 0))
    ++ leBytes 6 e.version ++ leBytes 2 0

/-- An operation's effect, its pages brought back and its frames at hand (13 R369). -/
def doOp (s : State) (id : Nat) (o : YOp) : State :=
  let i := o.seq % 65536
  match o.op with
  | .create => s.doCreate id o
  | .release => s.doRelease id o
  | .append => s.doAppend id o
  | .trim => s.doTrim id o
  | .fork => s.doFork id o
  | .lookup => s.doLookup id o
  | .publish => s.doPublish id o
  | .pin => s.doPin id o true
  | .unpin => s.doPin id o false
  | .prefetch => s.endOp id Status.ok o.got
  | .query =>
    (match tfind s.yard.seqs i with
     | some q => s.modOp id (fun o => { o with out := s.descriptor i q })
     | none => s).endOp id Status.ok 0
  | .ptread =>
    (s.modOp id (fun o => { o with
      out := ((List.range o.n).map (fun k => s.pteBytes (s.pte i (o.a0 + k)))).flatten })).endOp id Status.ok 0

/-- The next page that an operation brings back is read, or its effect takes place. PREFETCH draws each page's frame as it comes, and
completes where one cannot be had (13 R391). A page already on its way back is waited for. -/
def stepOp (s : State) (id : Nat) : State :=
  match tfind s.yard.ops id with
  | none => s
  | some o =>
    match o.todo.filter (fun g => s.inLoft g.1 g.2) with
    | [] => s.doOp id o
    | (i, pg) :: rest =>
      let s := s.modOp id (fun o => { o with st := .loft, todo := (i, pg) :: rest })
      if s.yard.fetches.any (fun e => e.2.seq = i && e.2.page = pg && !e.2.dead) then s
      else if o.op = .prefetch then
        (match s.acquire o.pdk 1 .page (s.opRange o) with
         | some (f :: _, s) => s.loftRead o.pdk i pg (s.pte i pg) (some f) (some id) 0
         | _ => s.endOp id Status.ok o.got)
      else
        (s.modOp id (fun o => { o with frames := o.frames.drop 1 })).loftRead o.pdk i pg (s.pte i pg) o.frames.head? (some id) 0

/-- Whether an operation acts on a sequence, by descriptor index. -/
def opOn (o : YOp) (i : Nat) : Bool := (o.op ≠ .create && o.seq % 65536 = i) || (o.op = .fork && o.a0 % 65536 = i)

/-- A queued operation starts once no earlier one on its sequences is unfinished (13 R379): checks 6 and 7, then its effect or its first
page. A handle that an earlier operation released is refused as at issue. -/
def startOp (s : State) (id : Nat) : State :=
  match tfind s.yard.ops id with
  | none => s
  | some o =>
    let busy := s.yard.ops.any (fun e => e.1 < id && e.2.st ≠ .done && o.op ≠ .create &&
      (opOn e.2 (o.seq % 65536) || (o.op = .fork && opOn e.2 (o.a0 % 65536))))
    if o.st ≠ .queued || busy then s
    else if o.op ≠ .create && ((s.seqAt o.pdk o.seq).isNone || (o.op = .fork && (s.seqAt o.pdk o.a0).isNone)) then
      s.endOp id Status.accessDenied 0
    else match s.opNeeds o with
      | .inl st => s.endOp id st 0
      | .inr (backs, k) =>
        let need := k + (if o.op = .prefetch then 0 else backs.length)
        match s.acquire o.pdk need .page (s.opRange o) with
        | none => s.endOp id Status.yardFull 0
        | some (fs, s) => (s.modOp id (fun o => { o with todo := backs, frames := fs })).stepOp id

/-- Every operation that may start or go on does, oldest first. -/
def pumpYard (s : State) : State :=
  (s.yard.ops.map (·.1)).foldl (fun s id => match tfind s.yard.ops id with
    | some o => if o.st = .loft then s.stepOp id else s.startOp id
    | none => s) s

/-- A Yard macro accepted: its operation joins the Yard (13 R370, R379). -/
def yardAccept (s : State) (o : YOp) : State :=
  let id := s.yard.nextOp
  (s.modYard (fun y => { y with ops := tset y.ops id o, nextOp := id + 1 })).startOp id

/-! ### What comes later: Loft pages, zeroing, deferred releases -/

/-- What an attention macro is to read of a page that lay in the Loft at issue is captured as the page returns, whoever asked for it
(12 R345). -/
def captureKv (x : LoftFetch) (pt : List Byte) (c : Core) : Core :=
  match c.mac with
  | some ⟨b, .attention f⟩ =>
    let key := x.seq * 2 ^ 20 + x.page
    if f.pdk = x.pdk && f.ents.any (fun e => e.seq % 65536 = x.seq && e.poss.any (fun y => y / 16 = x.page)) && !thas f.kv key then
      { c with mac := some ⟨b, .attention { f with kv := tset f.kv key pt }⟩ }
    else c
  | _ => c

/-- A Loft slot's read completes (13 R391, R392; 06 R203): under destroyed keys it is dropped and counted; a good page is decrypted into
its frame and its slot freed; a bad one stays in the Loft. Answers whether it came back. -/
def loftLand (s : State) (x : LoftFetch) (ok : Bool) (d : List Byte) : Bool × State :=
  if x.dead then (false, s.countRetired)
  else
    let live : Pte := s.pte x.seq x.page
    let here : Bool := live.st = .loft
    let late := (s.yard.deferred.find? (fun q => q.seq % 65536 = x.seq && thas q.ptes x.page)).bind (fun q => tfind q.ptes x.page)
    let e : Pte := if here then live else late.getD live
    let h := s.handleOf x.seq
    let ct := d.take s.pageB
    let good := ok && e.st = .loft && ((Config.loftTag (s.pdkKey x.pdk 4) (s.loftAad h (16 * x.page) e.version) ct) ++ List.replicate 16 0).take 16
      = (d.drop s.pageB).take 16
    if !good then
      let s := s.modPdk x.pdk (fun p => { p with authFails := min (p.authFails + 1) (2 ^ 32 - 1) })
      (false, match x.frame with
        | some f => s.freeFrame f
        | none => s)
    else
      let pt := Config.loftDecrypt (s.loftKeys x.pdk) (16 * x.page) e.version ct
      let s := match x.frame with
        | some f => if here then
            ((s.writeFrom (s.poolAddr f) pt).touchFrame f).setPte x.seq x.page { live with st := PteSt.resident, loc := f, grant := 0 }
          else s.freeFrame f
        | none => s
      (true, { s with cores := s.cores.map (fun (c : Nat × Core) => (c.1, captureKv x pt c.2))
                      saves := s.saves.map (fun (r : Nat × SaveRec) => (r.1, { r.2 with
                        cores := r.2.cores.map (fun (c : Nat × Core) => (c.1, captureKv x pt c.2)) })) })

/-- A returned Loft page and the Yard operation that asked for it. -/
def loftForOp (s : State) (x : LoftFetch) (good : Bool) : State :=
  match x.op with
  | none => s
  | some id =>
    match tfind s.yard.ops id with
    | none => s
    | some o =>
      if o.st ≠ .loft then s
      else if good then s.modOp id (fun o => { o with got := o.got + 1 })
      else s.endOp id Status.loftAuth (if o.op = .prefetch then o.got else 0)

/-- Zeroing of a freed frame or slot completes: it returns to its quota (13 R373). -/
def zeroDone (s : State) (slot : Bool) (i : Nat) : State :=
  if slot then
    (match tfind s.yard.slots i with
     | some p => if p < 64 then s else s.modYard (fun y => { y with
         slots := tdel y.slots i, manger := zeroRange y.manger (i * s.pageB) ((i + 1) * s.pageB) })
     | none => s)
  else
    (match tfind s.yard.frames i with
     | some x => if x.use ≠ .zeroing then s else
         (s.zeroMem (s.poolAddr i) (s.poolAddr i + s.pageB)).modYard (fun y => { y with frames := tdel y.frames i })
     | none => s)

/-- Pages set aside are freed once no macro in flight named their sequence; a RELEASE that waited completes (12 R345, 13 R380). -/
def deferredDone (s : State) : State :=
  let ready := s.yard.deferred.filter (fun d => !s.macNames d.pdk d.seq)
  let s := s.modYard (fun y => { y with deferred := y.deferred.filter (fun d => !ready.contains d) })
  let s := ready.foldl (fun s d =>
    let s := d.ptes.foldl (fun s e => s.dropRef e.2) s
    match d.release with
    | some id => (s.freeSeq (d.seq % 65536)).endOp id Status.ok 0
    | none => s) s
  s.pumpYard

/-! ### Registers -/

/-- A write of a prefix key (13 R387). -/
def pfxKeyWrite (s : State) (p : Nat) (second : Bool) (v : Word) : State :=
  if s.nodesUsed p ≠ 0 then s.modPdk p (fun d => { d with keyRefused := true })
  else s.modPdk p (fun d => if second then { d with pfxKey1 := v } else { d with pfxKey0 := v })

/-- A write of YRD_LOFT_BASE or YRD_LOFT_SIZE (13 R388). W1C of REFUSED takes effect on an applied write; an applied change takes a new
epoch. -/
def loftWrite (s : State) (p g : Nat) (size : Bool) (v : Nat) : State :=
  let x := s.grant p g
  let live := (s.loftPages p).any (fun u => u.1 = g)
  let mib := bits v 20 0
  let others := ((List.range 16).filter (fun j => j ≠ g && (s.grant p j).en)).foldl (fun t j => t + (s.grant p j).mib) 0
  let bad := live || (!size && x.en) || (size && bitAt v 31 &&
    (x.base % 4096 ≠ 0 || mib = 0 || g ≥ (s.quota p).loftGrants || others + mib > (s.quota p).loftMib))
  let put (s : State) (y : LoftGrant) : State := s.modPdk p (fun d => { d with loft := tset d.loft g y })
  if bad then put s { x with refused := true }
  else
    let y := if size then { x with mib := mib, en := bitAt v 31, refused := x.refused && !bitAt v 33 } else { x with base := v }
    if (y.base, y.mib, y.en) = (x.base, x.mib, x.en) then put s y
    else
      let s := s.newEpoch (some (p + 1))
      put s { y with epoch := s.sec.epoch }

/-- Teardown's part in the Yard (13 R395): sequences, nodes, operations and pages of the paddock deleted, its frames and slots zeroed,
Loft reads in flight left to return under destroyed keys. -/
def yardTeardown (s : State) (p : Nat) : State :=
  let mine := s.yard.frames.filter (fun e => e.2.pdk = p)
  let slots := s.yard.slots.filter (fun e => e.2 % 64 = p)
  let idx := (s.yard.seqs.filter (fun e => e.2.pdk = p)).map (·.1)
  let s := mine.foldl (fun s e => s.zeroMem (s.poolAddr e.1) (s.poolAddr e.1 + s.pageB)) s
  s.modYard (fun y => { y with
    seqs := y.seqs.filter (fun e => e.2.pdk ≠ p)
    gens := y.gens.filter (fun e => e.1 / 65536 ≠ p)
    ptes := y.ptes.filter (fun e => !idx.contains (e.1 / 2 ^ 20))
    frames := y.frames.filter (fun e => e.2.pdk ≠ p)
    slots := y.slots.filter (fun e => e.2 % 64 ≠ p)
    manger := slots.foldl (fun m e => zeroRange m (e.1 * s.pageB) ((e.1 + 1) * s.pageB)) y.manger
    nodes := y.nodes.filter (fun e => e.2.pdk ≠ p)
    nodePages := tdel y.nodePages p
    ops := y.ops.filter (fun e => e.2.pdk ≠ p)
    fetches := y.fetches.map (fun e => (e.1, if e.2.pdk = p then { e.2 with dead := true } else e.2))
    deferred := y.deferred.filter (fun d => d.pdk ≠ p) })

end State

/-- FRAME_ZEROED (13 R373). -/
def execFrameZeroed (slot : Bool) (i : Nat) (s : State) : Res := .next (s.zeroDone slot i)

/-- DEFERRED_RELEASE (13 R380, 12 R345). -/
def execDeferredRelease (_c : CoreId) (s : State) : Res := .next s.deferredDone

/-- YRD_PFX_KEY_WRITE (13 R387; YRD_PFX_KEY0, YRD_PFX_KEY1). -/
def execYrdPfxKeyWrite (p : PdkId) (second : Bool) (val : Word) (ide : Option Nat) (s : State) : Res :=
  .next (s.vfWrite p.val (if second then 0x10028 else 0x10020) ide (fun s => s.pfxKeyWrite p.val second val))

/-- YRD_LOFT_WRITE (13 R388; YRD_LOFT_BASE, YRD_LOFT_SIZE). -/
def execYrdLoftWrite (p : PdkId) (g : Fin 16) (size : Bool) (val : Word) (ide : Option Nat) (s : State) : Res :=
  .next (s.vfWrite p.val (0x10100 + 16 * g.val + (if size then 8 else 0)) ide (fun s => s.loftWrite p.val g.val size val.toNat))

end Sys2Proof.Machine
end

