-- ==== Sys2Proof/Machine/Attention.lean ====
section
/-! DEFINITION. The attention macro: descriptor and batch table, checks at issue, items, the one-pass softmax, splits and their folds
(12; 11 R328-R331). -/

namespace Sys2Proof.Machine

/-- An attention descriptor's header (12 R340). -/
def attHead (d : List Byte) : AttHead :=
  let fl := fieldAt d 1 1
  { claim := bitAt fl 0, tsrc := bitAt fl 1, expK := bitAt fl 2, expV := bitAt fl 3, mask := fieldAt d 2 1, ctr := fieldAt d 3 1,
    heads := fieldAt d 6 1, groups := fieldAt d 7 1, window := fieldAt d 8 4, scale := BitVec.ofNat 32 (fieldAt d 12 4),
    tq := fieldAt d 0x10 2, span := fieldAt d 0x12 2, koff := fieldAt d 0x14 2, kdim := fieldAt d 0x16 2, kgs := fieldAt d 0x18 2,
    voff := fieldAt d 0x1A 2, vdim := fieldAt d 0x1C 2, vgs := fieldAt d 0x1E 2, kfmt := fieldAt d 0x20 1, vfmt := fieldAt d 0x21 1,
    edimK := fieldAt d 0x22 2, edimV := fieldAt d 0x24 2, uk := fieldAt d 0x26 2, uv := fieldAt d 0x28 2, btab := fieldAt d 0x2A 2,
    stage := fieldAt d 0x2C 2, stageRows := fieldAt d 0x2E 2 }

namespace AttHead

/-- Width of a query row, DK′ (12 R341). -/
def dk (h : AttHead) : Nat := if h.expK then h.edimK else h.kdim
/-- Width of an output row, DV′ (12 R341). -/
def dv (h : AttHead) : Nat := if h.expV then h.edimV else h.vdim
/-- Scratchpad rows of one group's up-projection (12 R347). -/
def upRows (edim dim : Nat) : Nat := ceilDiv (edim * dim * 2) 512

end AttHead

/-- A record of the five operands whose codes are defined for its role (12 R341, R360 check 1). -/
def attRecOk (d : List Byte) (off : Nat) (locs fmts : List Nat) (strided : Bool) : Bool :=
  let o := operandAt d off
  locs.contains o.loc && (o.loc = 2 || fmts.contains o.fmt) && o.trans = 0 && o.pad = 0 && o.padZp = 0 && o.sbase = 0 && o.sstride = 0
    && (strided || o.stride = 0) && zeroAt d (off + 13) 3 && zeroAt d (off + 36) 28

/-- Check 1 on the descriptor (12 R340, R341, R360). -/
def attCheck1 (d : List Byte) : Bool :=
  let h := attHead d
  let seg (off dim fmt : Nat) : Bool := off % 64 = 0 && dim % 64 = 0 && 64 ≤ dim && dim ≤ 1024 && [1, 4, 5].contains fmt
  let edim (en : Bool) (e : Nat) : Bool := if en then e % 128 = 0 && 128 ≤ e && e ≤ 1024 else e = 0
  fieldAt d 0 1 = 1 && fieldAt d 1 1 < 16 && h.mask ≤ 2 && h.ctr ≤ 63 && 1 ≤ fieldAt d 4 2 && fieldAt d 4 2 ≤ 1024
    && 1 ≤ h.heads && h.heads ≤ 128 && 1 ≤ h.groups && h.groups ≤ h.heads && h.heads % h.groups = 0
    && (if h.mask = 2 then 1 ≤ h.window else h.window = 0)
    && (h.tsrc || (1 ≤ h.tq && h.tq ≤ 128 && h.span % 128 = 0 && 128 ≤ h.span && h.span ≤ 65408))
    && seg h.koff h.kdim h.kfmt && seg h.voff h.vdim h.vfmt && edim h.expK h.edimK && edim h.expV h.edimV
    && (!h.expK || h.kfmt = 1) && (!h.expV || h.vfmt = 1) && zeroAt d 0x30 16
    && attRecOk d 0x40 [0, 1] [1, 4, 5] true && attRecOk d 0x80 [0, 1] [0, 1, 4, 5] true && attRecOk d 0xC0 [0, 1, 2] [0] false
    && attRecOk d 0x100 [0, 1, 2] [2] false && attRecOk d 0x140 [0, 1, 2] [3] false && zeroAt d 0x180 128

/-- The running program's buckets (12 R352). -/
def bucketsOf (img : TenImage) (program : Nat) : List Bucket := img.buckets.filter (fun b => b.program = program)

/-- TQ, SPAN and bucket of an entry of KLEN keys (12 R352); `none` where no bucket is large enough. -/
def attTiles (img : TenImage) (program : Nat) (h : AttHead) (klen : Nat) : Option (Nat × Nat × Nat) :=
  if !h.tsrc then some (h.tq, h.span, 0)
  else ((bucketsOf img program).zipIdx.find? (fun e => klen ≤ e.1.size)).map (fun e => (min e.1.tm 128, e.1.tk, e.2))

/-- Splits of an entry (12 R354); one without keys still gives its rows their result (12 R348). -/
def splitsOf (e : AttEntry) : Nat := max 1 (ceilDiv e.klen e.span)

/-- Check 4 on one entry (12 R351, R360). `s` is the token stride. -/
def attLegal (h : AttHead) (q o : Operand) (e : AttEntry) (s : Nat) : Bool :=
  let x := max (if h.expK then 128 * ceilDiv h.edimK 128 else 0) (if h.expV then 128 * ceilDiv h.edimV 128 else 0)
  let staged (r : Operand) (w : Nat) : Bool := r.loc ≠ 1 || 2 * ceilDiv (elemBytes r.fmt (e.tq * w)) 512 ≤ r.stageRows
  e.tq + e.tq * ceilDiv h.dv 128 + 2 + x ≤ 512
    && s / 2 + (if h.expK then h.edimK / 2 else 0) + (if h.expV then h.edimV / 2 else 0) ≤ h.stageRows
    && staged q h.dk && staged o h.dv
    && h.koff + (h.groups - 1) * h.kgs + elemBytes h.kfmt h.kdim ≤ s && h.voff + (h.groups - 1) * h.vgs + elemBytes h.vfmt h.vdim ≤ s
    && ceilDiv e.klen e.span ≤ 16

/-- Lowest and highest number of a list, if it has any. -/
def minMax : List Nat → Option (Nat × Nat)
  | [] => none
  | a :: t => some (t.foldl min a, t.foldl max a)

namespace State

/-- Entry e of a batch table as it stands in the scratchpad, without its tiles and maps (12 R342), and whether its reserved bytes are
zero. -/
def batchEntry (s : State) (n p btab e : Nat) : AttEntry × Nat × Bool :=
  let b := s.opBytes n p 0 (btab * 512 + 32 * e) 32
  ({ seq := fieldAt b 0 4, kpos0 := fieldAt b 4 4, klen := fieldAt b 8 4, qpos := fieldAt b 12 4, nq := fieldAt b 0x10 2,
     qidx := fieldAt b 0x14 4, tq := 0, span := 0, bucket := 0, poss := [], keeps := [] }, fieldAt b 0x18 4,
   zeroAt b 0x12 2 && zeroAt b 0x1C 4)

/-- Position of logical key j, by the MAP record where MAP is present (12 R343, R346). -/
def keyPos (s : State) (n p : Nat) (map : Operand) (kpos0 midx j : Nat) : Nat :=
  if map.loc = 2 then kpos0 + j else leNat (s.opBytes n p map.loc (map.base + 4 * (midx + j)) 4) % 2 ^ 31

/-- KEEP bit of logical key j; 1 where KEEP is absent (12 R341, R348). -/
def keepBit (s : State) (n p : Nat) (keep : Operand) (midx j : Nat) : Bool :=
  keep.loc = 2 || bitAt (s.opByte n p keep.loc (keep.base + (midx + j) / 8)).toNat ((midx + j) % 8)

/-- Extent of an array of `size`-byte records at the indices from `lo` to `hi`. -/
def recExtent (s : State) (p : Nat) (write : Bool) (o : Operand) (step size : Nat) (r : Option (Nat × Nat)) : Option Nat :=
  match r with
  | some (lo, hi) => if o.loc = 2 then none else s.extentFault p write o.loc (o.base + lo * step) ((hi - lo) * step + size)
  | none => none

/-- The staging buffers of an attention descriptor: the one for keys and values, then the records' in their order (12 R340, R341). -/
def attStages (d : List Byte) : List Operand :=
  { loc := 1, stage := fieldAt d 0x2C 2, stageRows := fieldAt d 0x2E 2 } :: [0x40, 0x80, 0xC0, 0x100, 0x140].map (operandAt d)

/-- The checks of an attention macro in order (12 R360). `d` is its descriptor row, `l` the value of XS. -/
def attStart (s : State) (n p : Nat) (img : TenImage) (d : List Byte) (l : Nat) : MacroStart :=
  let h := attHead d
  let q := operandAt d 0x40
  let o := operandAt d 0x80
  let lse := operandAt d 0xC0
  let map := operandAt d 0x100
  let keep := operandAt d 0x140
  let raw := (List.range (min l 1024)).map (s.batchEntry n p h.btab)
  if !attCheck1 d || raw.any (fun e => !e.2.2) then .fault Status.shapeIllegal
  else if l > fieldAt d 4 2 then .fault Status.shapeIllegal
  else if l = 0 then .zero 0
  else
    let tiled := raw.map (fun e => (attTiles img (s.core n).program h e.1.klen).map (fun t =>
      (({ e.1 with tq := t.1, span := t.2.1, bucket := t.2.2 } : AttEntry), e.2.1)))
    if tiled.any (·.isNone) then .fault Status.shapeIllegal
    else
      let es := tiled.filterMap id
      if !es.all (fun e => attLegal h q o e.1 s.strideB) then .fault Status.shapeIllegal
      else if ([q, o, lse, map, keep].any (fun r => r.loc ≠ 2 && r.base % 64 ≠ 0)) || q.stride % 64 ≠ 0 || o.stride % 64 ≠ 0 then
        .fault Status.alignFault
      else
        let rows := minMax (es.flatMap (fun e => if e.1.nq = 0 then [] else [e.1.qidx, e.1.qidx + e.1.nq * h.heads - 1]))
        let keys := minMax (es.flatMap (fun e => if e.1.klen = 0 then [] else [e.2, e.2 + e.1.klen - 1]))
        let up (en : Bool) (row edim dim : Nat) : Option Nat := if !en then none
          else s.extentFault p false 0 (row * 512) ((h.groups - 1) * AttHead.upRows edim dim * 512 + edim * dim * 2)
        let bad := ([s.extentFault p false 0 (h.btab * 512) (32 * l), s.recExtent p false q q.stride (elemBytes q.fmt h.dk) rows,
          s.recExtent p false map 4 4 keys, s.recExtent p false keep 1 1 (keys.map (fun k => (k.1 / 8, k.2 / 8))),
          up h.expK h.uk h.edimK h.kdim, up h.expV h.uv h.edimV h.vdim] ++ (attStages d).map stageFault
          ++ [s.recExtent p true o o.stride (elemBytes o.fmt h.dv) rows, s.recExtent p true lse 8 8 rows]).findSome? id
        match bad with
        | some e => .fault e
        | none =>
          if es.any (fun e => (s.seqAt p e.1.seq).isNone) then .fault Status.accessDenied
          else
            let ents := es.map (fun e => { e.1 with
              poss := (List.range e.1.klen).map (s.keyPos n p map e.1.kpos0 e.2)
              keeps := (List.range e.1.klen).map (s.keepBit n p keep e.2) })
            let len (e : AttEntry) : Nat := (s.seqAt p e.seq).elim 0 (·.length)
            if ents.any (fun e => e.kpos0 + e.klen > len e || e.poss.any (fun x => x + 1 > len e)) then .fault Status.seqRange
            else if ents.all (fun e => e.nq = 0) then .zero 0
            else
              let pages := (ents.flatMap (fun e => e.poss.map (fun x => (e.seq % 65536) * 2 ^ 20 + x / 16))).eraseDups
              let kv := (pages.filter (fun k => !s.inLoft (k / 2 ^ 20) (k % 2 ^ 20))).foldl
                (fun t k => tset t k (s.pageBytes (s.pte (k / 2 ^ 20) (k % 2 ^ 20)))) ([] : Tab (List Byte))
              .go (.attention { h := h, q := q, o := o, lse := lse, ents := ents, kv := kv, pdk := p, next := 0, item := none,
                                stopped := false, done := 0, masked := 0, fail := 0, awaits := [], due := none })

end State

/-! ### Items (12 R350, R353, R354) -/

/-- Query rows of one group of an entry: token and head, token-major (12 R350). -/
def groupRows (h : AttHead) (e : AttEntry) (g : Nat) : List (Nat × Nat) :=
  let w := h.heads / h.groups
  (List.range e.nq).flatMap (fun t => (List.range w).map (fun i => (t, w * g + i)))

/-- Items of an entry: group, query tile, split, splits innermost (12 R353). -/
def entryItems (h : AttHead) (e : AttEntry) : List (Nat × Nat × Nat) :=
  if e.nq = 0 then []
  else (List.range h.groups).flatMap (fun g => (List.range (ceilDiv (e.nq * (h.heads / h.groups)) e.tq)).flatMap (fun t =>
    (List.range (splitsOf e)).map (fun i => (g, t, i))))

/-- Work items in order: buckets ascending, then entries in table order (12 R353). -/
def attItems (f : AttFly) : List (Nat × Nat × Nat × Nat) :=
  let top := f.ents.foldl (fun m e => max m e.bucket) 0
  (List.range (top + 1)).flatMap (fun b => f.ents.zipIdx.flatMap (fun e =>
    if e.1.bucket = b then (entryItems f.h e.1).map (fun x => (e.2, x)) else []))

/-- Whether the mask hides logical key j from query token t by position (12 R348). -/
def posMasked (h : AttHead) (e : AttEntry) (t j : Nat) : Bool :=
  j ≥ e.klen || (h.mask ≥ 1 && e.kpos0 + j > e.qpos + t) || (h.mask = 2 && e.kpos0 + j + h.window < e.qpos + t + 1)

/-- First keys of the tiles of 128 that a split walks for a query tile: a tile that every row masks by position is skipped (12 R349,
R354). -/
def keyTiles (h : AttHead) (e : AttEntry) (rows : List (Nat × Nat)) (split : Nat) : List Nat :=
  let hi := min ((split + 1) * e.span) e.klen
  ((List.range (ceilDiv (hi - split * e.span) 128)).map (fun i => split * e.span + 128 * i)).filter (fun j0 =>
    rows.any (fun r => (List.range 128).any (fun i => !posMasked h e r.1 (j0 + i))))

/-- The rows of a query tile (12 R350). -/
def tileRowsOf (f : AttFly) (e : AttEntry) (g t : Nat) : List (Nat × Nat) := ((groupRows f.h e g).drop (t * e.tq)).take e.tq

/-- The pages that each key tile of an item reads: descriptor index and page (12 R344, R349). -/
def tilePages (f : AttFly) (it : Nat × Nat × Nat × Nat) : List (List (Nat × Nat)) :=
  match f.ents[it.1]? with
  | none => []
  | some e =>
    let rows := tileRowsOf f e it.2.1 it.2.2.1
    (keyTiles f.h e rows it.2.2.2).map (fun j0 => (((e.poss.drop j0).take 128).map (fun x => (e.seq % 65536, x / 16))).eraseDups)

/-! ### Arithmetic (11 R328-R331, 12 R339, R347, R348) -/

/-- A product of two vectors as R243 accumulates it: blocks of 128 summed exactly, one rounding each (12 R339). -/
def dotList : Nat → List FV → List FV → BitVec 32 → BitVec 32
  | 0, _, _, acc => acc
  | n + 1, a, b, acc =>
    let sum := ((a.take 128).zip (b.take 128)).foldl (fun z e => z.add (e.1.mul e.2)) (.fin false 0 0)
    dotList n (a.drop 128) (b.drop 128) (BitVec.ofNat 32 (f32.round ((f32.decode acc.toNat).add sum)))

/-- Product of two vectors in FP32. -/
def dotVec (a b : List FV) : BitVec 32 := dotList (ceilDiv a.length 128) a b 0

/-- `n` elements of a format from a list of bytes. -/
def elemsAt (bs : List Byte) (fmt off n : Nat) : List FV :=
  let w := elemBytes fmt 1
  (List.range n).map (fun i => elemVal fmt (fieldAt bs (off + i * w) w))

/-- The score of a masked position, −2^100, and the clamp's bounds ±2^99 (11 R328, R329). -/
def scoreMin : BitVec 32 := 0xF1800000
/-- Upper clamp of an unmasked score. -/
def scoreTop : BitVec 32 := 0x71000000
/-- Lower clamp of an unmasked score. -/
def scoreLow : BitVec 32 := 0xF1000000

/-- A row before its first key (11 R328, 12 R354). -/
def softStart (width : Nat) : SoftRow := { m := scoreMin, l := 0, o := List.replicate width 0, nan := false }

/-- One block of scores folded into a row: `ss` holds an unmasked score or nothing for each key, `vs` the keys' values (11 R328, R329;
12 R339). -/
def softBlock (r : SoftRow) (ss : List (Option (BitVec 32))) (vs : List (List FV)) : SoftRow :=
  let un := ss.filterMap id
  if un.isEmpty then r
  else
    let cl (x : BitVec 32) : BitVec 32 := fmin (fmax x scoreLow) scoreTop
    let m := un.foldl (fun m x => fmax m (cl x)) r.m
    let a := fexp2 (fsub r.m m)
    let ps := ss.map (fun o => match o with
      | some x => fexp2 (fsub (cl x) m)
      | none => 0)
    let pad := ps ++ List.replicate (128 - ps.length) 0
    let use := ((ss.zip ps).zip vs).filterMap (fun e => match e.1.1 with
      | some _ => some (bf16.decode (bf16.round (f32.decode e.1.2.toNat)), e.2)
      | none => none)
    { m := m, l := fadd (fmul a r.l) (treeSum pad), nan := r.nan || un.any isNan,
      o := r.o.zipIdx.map (fun x =>
        let sum := use.foldl (fun z e => z.add (e.1.mul (e.2.getD x.2 (.fin false 0 0)))) (.fin false 0 0)
        BitVec.ofNat 32 (f32.round ((f32.decode (fmul a x.1).toNat).add sum))) }

/-- A later split folded into the owner's row (12 R355). -/
def foldRow (w r : SoftRow) : SoftRow :=
  let m := fmax w.m r.m
  let a := fexp2 (fsub w.m m)
  let b := fexp2 (fsub r.m m)
  { m := m, l := fadd (fmul a w.l) (fmul b r.l), o := (w.o.zip r.o).map (fun e => fadd (fmul a e.1) (fmul b e.2)), nan := w.nan || r.nan }

/-- A row's output, its base-2 log-sum-exp and its FULLMASK flag (11 R329-R331). -/
def finishRow (r : SoftRow) : List (BitVec 32) × BitVec 32 × Bool :=
  if r.nan then (r.o.map (fun _ => qnan), qnan, false)
  else if r.l = 0 then (r.o.map (fun _ => 0), 0xFF800000, true)
  else
    let inv := sfEval false (.prog rcpSteps) r.l
    (r.o.map (fun x => fmul x inv), fadd r.m (flog2 r.l), false)

namespace State

/-- An expanded segment: one product per row of U, rounded to BF16 (12 R347). -/
def expand (s : State) (n p row edim dim : Nat) (seg : List FV) : List FV :=
  (List.range edim).map (fun e =>
    bf16.decode (bf16.round (f32.decode (dotVec (elemsAt (s.opBytes n p 0 (row * 512 + e * dim * 2) (dim * 2)) 1 0 dim) seg).toNat)))

/-- Key and value of logical key j for group g, from the captured pages (12 R343, R347). -/
def keyVal (s : State) (n : Nat) (f : AttFly) (e : AttEntry) (g j : Nat) : List FV × List FV :=
  let x := e.poss.getD j 0
  let ent := ((tget [] f.kv ((e.seq % 65536) * 2 ^ 20 + x / 16)).drop (x % 16 * s.strideB)).take s.strideB
  let k := elemsAt ent f.h.kfmt (f.h.koff + g * f.h.kgs) f.h.kdim
  let v := elemsAt ent f.h.vfmt (f.h.voff + g * f.h.vgs) f.h.vdim
  (if f.h.expK then s.expand n f.pdk (f.h.uk + g * AttHead.upRows f.h.edimK f.h.kdim) f.h.edimK f.h.kdim k else k,
   if f.h.expV then s.expand n f.pdk (f.h.uv + g * AttHead.upRows f.h.edimV f.h.vdim) f.h.edimV f.h.vdim v else v)

/-- A query row (12 R341). -/
def queryRow (s : State) (n : Nat) (f : AttFly) (e : AttEntry) (r : Nat × Nat) : List FV :=
  let i := e.qidx + r.1 * f.h.heads + r.2
  elemsAt (s.opBytes n f.pdk f.q.loc (f.q.base + i * f.q.stride) (elemBytes f.q.fmt f.h.dk)) f.q.fmt 0 f.h.dk

/-- One row of an item through the key tiles of its split (12 R339, R348). C is the rounded product of SCALE and log2 e. -/
def softRowOf (s : State) (n : Nat) (f : AttFly) (e : AttEntry) (g : Nat) (tiles : List Nat) (r : Nat × Nat) : SoftRow :=
  let c := fmul f.h.scale 0x3FB8AA3B
  let q := s.queryRow n f e r
  tiles.foldl (fun w j0 =>
    let js := (List.range 128).map (· + j0)
    let kvs := js.map (fun j => if j < e.klen then s.keyVal n f e g j else ([], []))
    let ss := (js.zip kvs).map (fun x =>
      if posMasked f.h e r.1 x.1 || !e.keeps.getD x.1 true then none else some (fmul (dotVec q x.2.1) c))
    softBlock w ss (kvs.map (·.2))) (softStart f.h.dv)

/-- The rows of an item (12 R353, R354). -/
def itemSplit (s : State) (n : Nat) (f : AttFly) (it : Nat × Nat × Nat × Nat) (failed : Nat) : Option Split :=
  match f.ents[it.1]? with
  | none => none
  | some e =>
    let rows := tileRowsOf f e it.2.1 it.2.2.1
    let tiles := keyTiles f.h e rows it.2.2.2
    some { key := if f.h.claim then f.h.ctr else 64 + n % 16, entry := it.1, group := it.2.1, tile := it.2.2.1, index := it.2.2.2,
           total := splitsOf e, failed := failed,
           rows := if failed ≠ 0 then [] else rows.map (s.softRowOf n f e it.2.1 tiles) }

/-- The attention macro of a core changed. -/
def modAtt (s : State) (n : Nat) (g : AttFly → AttFly) : State :=
  s.modCore n (fun c => match c.mac with
    | some ⟨b, .attention f⟩ => { c with mac := some ⟨b, .attention (g f)⟩ }
    | _ => c)

/-- One finished row written: its output in O's format and its LSE record; fully masked rows are counted (12 R357, R358). -/
def writeRow (s : State) (n : Nat) (f : AttFly) (e : AttEntry) (r : Nat × Nat) (w : SoftRow) : State :=
  let i := e.qidx + r.1 * f.h.heads + r.2
  let (o, lse, full) := finishRow w
  let s := s.opWrite n f.pdk f.o.loc (f.o.base + i * f.o.stride) (packElems f.o.fmt 0 (o.map (fun x => (outConv f.o.fmt none x).1)))
  let s := if f.lse.loc = 2 then s
    else s.opWrite n f.pdk f.lse.loc (f.lse.base + 8 * i) (leBytes 4 lse.toNat ++ leBytes 4 (b2n full))
  if full then s.modAtt n (fun f => { f with masked := min (f.masked + 1) (2 ^ 24 - 1) }) else s

/-- A tile's rows written by the core that owns it, and the item counted; a failed tile is not written (12 R355, R358, R361). -/
def writeTile (s : State) (n : Nat) (f : AttFly) (sp : Split) : State :=
  match f.ents[sp.entry]? with
  | none => s
  | some e =>
    if sp.failed ≠ 0 then s.modAtt n (fun f => { f with fail := if f.fail = 0 then sp.failed else f.fail })
    else
      let rows := tileRowsOf f e sp.group sp.tile
      ((rows.zip sp.rows).foldl (fun s x => s.writeRow n f e x.1 x.2) s).modAtt n (fun f =>
        { f with done := min (f.done + 1) (2 ^ 24 - 1) })

/-- The accumulator rows of a query tile: scores in the first TQ rows, then a block of TQ rows for each 128 output columns, then the rows of
the running maximum and sum, then those that an expansion uses (12 R350, R351; the order is log 27's, DESIGN CHOICE). Scores, expanded
elements and entries outside the tile are not stated (log 9, DESIGN CHOICE). -/
def attAcc (s : State) (n : Nat) (h : AttHead) (tq : Nat) (rows : List SoftRow) : State :=
  let blocks := ceilDiv h.dv 128
  let x := max (if h.expK then 128 * ceilDiv h.edimK 128 else 0) (if h.expV then 128 * ceilDiv h.edimV 128 else 0)
  let top := tq + tq * blocks
  let open_ (r : Nat) : Row := Config.freeRow s.free r
  let lane (r j : Nat) : Nat := (open_ r).toNat / 2 ^ (32 * j) % 2 ^ 32
  let of_ (r : Nat) (v : Nat → Option (BitVec 32)) : Row :=
    ofLanes 32 ((List.range 128).map (fun j => (v j).elim (lane r j) (·.toNat)))
  let score (acc : Tab Row) : Tab Row := (List.range tq).foldl (fun t r => tset t r (open_ r)) acc
  let out (acc : Tab Row) : Tab Row := (List.range blocks).foldl (fun t nb => rows.zipIdx.foldl (fun t e =>
    let r := tq + nb * tq + e.2
    tset t r (of_ r (fun j => e.1.o[nb * 128 + j]?))) t) acc
  let ml (acc : Tab Row) : Tab Row :=
    tset (tset acc top (of_ top (fun j => rows[j]?.map (·.m)))) (top + 1) (of_ (top + 1) (fun j => rows[j]?.map (·.l)))
  let wide (acc : Tab Row) : Tab Row := (List.range x).foldl (fun t i => tset t (top + 2 + i) (open_ (top + 2 + i))) acc
  ({ s with free := s.free + 1 } : State).modCore n (fun c => { c with acc := wide (ml (out (score c.acc))) })

/-- The present item is over: what was asked for it and has not come is of no more use (12 R344). -/
def dropItem (s : State) (n : Nat) : State :=
  s.modAtt n (fun f => { f with item := none, awaits := [], pos := f.seq.asked, base := f.seq.asked, seq := { f.seq with todo := [] } })

/-- An item's rows leave the accumulator: written, kept as an open fold's first split, or due for delivery (12 R354-R356). -/
def endItem (s : State) (n : Nat) (f : AttFly) (it : Nat × Nat × Nat × Nat) (failed : Nat) : State :=
  let s := s.dropItem n
  match s.itemSplit n f it failed with
  | none => s
  | some sp =>
    let s := if failed ≠ 0 then s else s.attAcc n f.h ((f.ents[it.1]?).elim 0 (·.tq)) sp.rows
    let s := s.modAtt n (fun f => { f with fail := if f.fail = 0 then failed else f.fail })
    if sp.total = 1 then s.writeTile n f sp
    else if sp.index = 0 then s.modBay (n / 16) (fun b => { b with folds := b.folds ++
      [{ owner := n % 16, next := 1, part := sp, fly := none }] })
    else s.modAtt n (fun f => { f with due := some sp })

/-- The entry of a page that a macro reads: the live one, or that of a page being dropped (12 R345, 13 R380). -/
def pageEntry (s : State) (g : Nat × Nat) : Pte :=
  let e := s.pte g.1 g.2
  if e.st ≠ .absent then e
  else ((s.yard.deferred.find? (fun q => q.seq % 65536 = g.1 && thas q.ptes g.2)).bind (fun q => tfind q.ptes g.2)).getD e

/-- Whether a page that a tile reads still has to come back from the Loft (12 R345). -/
def pageAway (s : State) (f : AttFly) (g : Nat × Nat) : Bool :=
  s.inLoft g.1 g.2 || !thas f.kv (g.1 * 2 ^ 20 + g.2)

/-- The pieces that key tile t is fetched in: its pages that stand in pool frames, whole; those in the Manger are read there (12 R344). -/
def pagePieces (s : State) (t : Nat) (pages : List (Nat × Nat)) : List (List StrmRow) :=
  tilePieces t 0 ((pages.filter (fun g => (s.pageEntry g).st = .resident)).map (fun g => (s.poolAddr (s.pageEntry g).loc, s.pageB)))

/-- Whether every piece of key tile t that was asked for has come. -/
def tileCome (q : SeqStrm) (t : Nat) : Bool := t < q.asked && q.fly.all (fun r => r.tile ≠ t) && q.todo.all (fun p => p.all (fun r => r.tile ≠ t))

/-- A page brought back from the Loft for the present item, or the item fails with YARD_FULL where it cannot be given a frame (12 R345; 13
R391, R392). -/
def bringBack (s : State) (n : Nat) (f : AttFly) (it : Nat × Nat × Nat × Nat) (g : Nat × Nat) : State :=
  if s.yard.fetches.any (fun e => e.2.seq = g.1 && e.2.page = g.2 && !e.2.dead) then s
  else if s.inLoft g.1 g.2 then
    (match s.acquire f.pdk 1 .page f.awaits with
     | some (fr :: _, s) => s.loftRead f.pdk g.1 g.2 (s.pte g.1 g.2) (some fr) none n
     | _ => s.endItem n f it Status.yardFull)
  else if (s.pageEntry g).st = .loft then s.loftRead f.pdk g.1 g.2 (s.pageEntry g) none none n
  else s

/-- The present item goes on: tiles whose pages have come are walked past, the next tile within two of the present one is asked for, with
pages in the Loft brought back first, and after the last tile the item is computed (12 R344, R345, R361; 13 R391, R392). -/
def runItem (s : State) (n : Nat) (f : AttFly) (it : Nat × Nat × Nat × Nat) : Nat → State
  | 0 => s
  | fuel + 1 =>
    let tiles := tilePages f it
    let f : AttFly := { f with awaits := ((tiles.drop (f.pos - f.base)).take 3).flatten }
    let s := s.modAtt n (fun g => { g with pos := f.pos, seq := f.seq, awaits := f.awaits })
    if tiles.length ≤ f.pos - f.base then s.endItem n f it 0
    else if tileCome f.seq f.pos then
      let s := (tiles.getD (f.pos - f.base) []).foldl (fun s g => s.touchFrame (s.pageEntry g).loc) s
      s.runItem n { f with pos := f.pos + 1 } it fuel
    else if f.seq.asked ≤ f.pos + 2 && f.seq.asked - f.base < tiles.length then
      let pages := tiles.getD (f.seq.asked - f.base) []
      match pages.find? (s.pageAway f) with
      | some g => s.bringBack n f it g
      | none => s.runItem n { f with seq := { f.seq with asked := f.seq.asked + 1,
                                                         todo := f.seq.todo ++ s.pagePieces f.seq.asked pages } } it fuel
    else s

/-- Whether a core owns an open fold of a macro (12 R356). -/
def ownsFold (s : State) (n : Nat) : Bool := (s.bay (n / 16)).folds.any (fun x => x.owner = n % 16)

/-- The attention macro in flight on a core goes on by at most one item (12 R353, R356; log 37, DESIGN CHOICE). A core with an open fold takes no item,
unless it runs every item itself. -/
def attStep (s : State) (n : Nat) : State :=
  match (s.core n).mac with
  | some ⟨_, .attention f⟩ =>
    let items := attItems f
    if f.due.isSome || !s.macLive n then s
    else match f.item with
      | some i => (match items[i]? with
          | some it => s.runItem n f it (2 * (tilePages f it).length + 2)
          | none => s)
      | none =>
        if f.stopped || (f.h.claim && s.ownsFold n) then s
        else
          let (i, s) := if f.h.claim then s.claimTake (n / 16) f.h.ctr 1 else (some f.next, s)
          match i.bind (fun i => (items[i]?).map (fun it => (i, it))) with
          | none => s.modAtt n (fun f => { f with stopped := true })
          | some (i, it) =>
            let s := s.modAtt n (fun f => { f with item := some i, next := f.next + 1 })
            s.runItem n { f with item := some i, next := f.next + 1 } it (2 * (tilePages f it).length + 2)
  | _ => s

/-- Whether an attention macro has nothing left to do (12 R353, R356, R358). -/
def attDone (s : State) (n : Nat) (f : AttFly) : Bool :=
  (f.stopped || (!f.h.claim && (attItems f).length ≤ f.next)) && f.item.isNone && f.due.isNone && !s.ownsFold n

/-- A finished split is delivered to the split-merge unit once the split before it is folded (12 R356). -/
def deliverSplit (s : State) (n : Nat) : State :=
  match (s.core n).mac with
  | some ⟨_, .attention f⟩ =>
    match f.due with
    | none => s
    | some sp =>
      let here (x : Fold) : Bool := x.part.key = sp.key && x.part.entry = sp.entry && x.part.group = sp.group && x.part.tile = sp.tile
        && x.next = sp.index && x.fly.isNone
      if (s.bay (n / 16)).folds.any here then
        let s := s.modBay (n / 16) (fun b => { b with folds := b.folds.map (fun x => if here x then { x with fly := some sp } else x) })
        s.modAtt n (fun f => { f with due := none,
                                      done := if sp.failed = 0 then min (f.done + 1) (2 ^ 24 - 1) else f.done })
      else s
  | _ => s

/-- A delivered split folded into its owner's partial; after the last one the owner normalises and writes (12 R355, R361). -/
def foldSplit (s : State) (b : Nat) : State :=
  match (s.bay b).folds.find? (fun x => x.fly.isSome) with
  | none => s
  | some x =>
    match x.fly with
    | none => s
    | some sp =>
      let failed := if x.part.failed ≠ 0 then x.part.failed else sp.failed
      let part := { x.part with rows := (x.part.rows.zip sp.rows).map (fun e => foldRow e.1 e.2), failed := failed }
      let y : Fold := { x with part := part, next := x.next + 1, fly := none }
      let others := (s.bay b).folds.filter (fun z => z ≠ x)
      let n := 16 * b + x.owner
      let s := match (s.core n).mac with
        | some ⟨_, .attention f⟩ => if failed ≠ 0 then s else s.attAcc n f.h ((f.ents[part.entry]?).elim 0 (·.tq)) part.rows
        | _ => s
      if y.next < y.part.total then s.modBay b (fun w => { w with folds := w.folds.map (fun z => if z = x then y else z) })
      else
        let s := s.modBay b (fun w => { w with folds := others })
        match (s.core n).mac with
        | some ⟨_, .attention f⟩ => s.writeTile n f part
        | _ => s

/-- Reads from the Loft that a stopped core's attention macro asked for are dropped; they are issued again later (12 R362). -/
def cancelFetches (s : State) (n : Nat) : State :=
  let mine := s.yard.fetches.filter (fun e => e.2.op.isNone && e.2.core = n && !e.2.dead)
  let s := mine.foldl (fun s e => match e.2.frame with
    | some f => s.freeFrame f
    | none => s) s
  (s.modYard (fun y => { y with fetches := y.fetches.filter (fun e => !mine.any (fun m => m.1 = e.1)) })).modAtt n (fun f =>
    { f with awaits := [] })

/-- The completion of a host read of a Loft slot (13 R391, R392; 12 R361): the page, then whoever waited for it. -/
def loftReturn (s : State) (tag : Nat) (ok : Bool) (d : List Byte) : State :=
  let s : State := { s with hif := { s.hif with reads := tdel s.hif.reads tag } }
  match tfind s.yard.fetches tag with
  | none => s
  | some x =>
    let s := s.modYard (fun y => { y with fetches := tdel y.fetches tag })
    let (good, s) := s.loftLand x ok d
    let s := s.loftForOp x good
    let s := if x.op.isNone && !good && !x.dead then
        (match (s.core x.core).mac with
         | some ⟨_, .attention f⟩ => (match f.item.bind (fun i => (attItems f)[i]?) with
             | some it => if f.awaits.contains (x.seq, x.page) then s.endItem x.core f it Status.loftAuth else s
             | none => s)
         | _ => s)
      else s
    let s := s.pumpYard
    (s.cores.map (·.1)).foldl (fun s n => match (s.core n).mac with
      | some ⟨_, .attention f⟩ => if f.awaits.isEmpty then s else s.attStep n
      | _ => s) s

end State

/-- SPLIT_DELIVERY (12 R356, R358). -/
def execSplitDelivery (c : CoreId) (s : State) : Res := .next (s.deliverSplit c.val)

/-- SPLIT_FOLD (12 R355, R357, R358, R361). -/
def execSplitFold (b : BayId) (s : State) : Res := .next (s.foldSplit b.val)

/-- LOFT_PAGE_RETURN (13 R391, R392; 12 R345, R361; 06 R203): the completion of a Loft read; another tag is left alone. -/
def execLoftPageReturn (tag : Nat) (ok : Bool) (data : List Byte) (s : State) : Res :=
  .next (if tfind s.hif.reads tag = some .loft then s.loftReturn tag ok data else s)

end Sys2Proof.Machine
end

