-- ==== Sys2Proof/Machine/Engine.lean ====
section
/-! DEFINITION. The bay stream engine: which request issues next, the tile sequencers' own stream, deliveries, and what a stop leaves of
them (08 R252, R254; 10 R302-R306, R316; 12 R344, R362). -/

namespace Sys2Proof.Machine

namespace State

/-- The macro in flight on a core changed. -/
def modFly (s : State) (n : Nat) (f : MacFly → MacFly) : State :=
  s.modCore n (fun c => { c with mac := c.mac.map (fun m => { m with fly := f m.fly }) })

/-- The fetches of a core's tile sequencer; none without a macro. -/
def seqOf (s : State) (n : Nat) : SeqStrm := ((s.core n).mac.map (fun m => m.fly.seq)).getD {}

/-- The step or key tile that a core's macro is at. -/
def seqPos (s : State) (n : Nat) : Nat := match (s.core n).mac with
  | some ⟨_, .matrix f⟩ => f.pos
  | some ⟨_, .attention f⟩ => f.pos
  | _ => 0

/-- A matrix macro's steps up to two ahead of the one it is at are asked for; those whose tile is not claimed yet wait (10 R295, R304). -/
def seqAsk (s : State) (n : Nat) : Nat → State
  | 0 => s
  | fuel + 1 =>
    match (s.core n).mac with
    | some ⟨_, .matrix f⟩ =>
      if f.seq.asked ≤ f.pos + 2 && (stepAt f f.seq.asked).isSome then
        (s.modFly n (fun m => m.modSeq (fun q => { q with asked := q.asked + 1, todo := q.todo ++ s.stepPieces f q.asked }))).seqAsk n fuel
      else s
    | _ => s

/-- The sequencer's next piece, if it may issue now: its macro goes on, and its bay is not being stopped (05 R164, 07 R235, 10 R304). -/
def readySeq (s : State) (n : Nat) : Option (List StrmRow) :=
  if s.macLive n && (s.bay (n / 16)).stopping.isNone then (s.seqOf n).todo.head? else none

/-- The request of a sequencer's piece: deadline class with the runway of its operand for a matrix macro (10 R304), FCFS for the pages of an
attention macro (12 R344). -/
def seqReq (s : State) (n tag : Nat) (p : List StrmRow) : Waiting :=
  let w : Waiting := { Waiting.plain with tag := tag, write := false, addr := (p.head?.map (·.addr)).getD 0,
                                          len := p.foldl (fun t f => t + f.len) 0, bay := n / 16, core := n }
  match (s.core n).mac with
  | some ⟨_, .matrix f⟩ => { w with cls := .deadline, dry := s.dev.tsc.toNat + seqRunway f ((p.head?.map (·.tile)).getD 0) }
  | _ => w

/-- A sequencer's piece issues; one that touches a quarantined stack faults the job against the macro bundle (08 R265, 16 R463). -/
def issueSeq (s : State) (n : Nat) (p : List StrmRow) : State :=
  let s := s.modFly n (fun m => m.modSeq (fun q => { q with todo := q.todo.drop 1 }))
  if p.any (fun f => s.quarTouch f.addr f.len) then s.coreFault n Status.quarantined (((s.core n).mac.map (·.bundle)).getD 0)
  else
    let (t, s) := s.newTag
    let p := p.map (fun f => { f with rtag := t })
    ((s.acceptPiece (s.seqReq n t p) []).modFly n (fun m => m.modSeq (fun q => { q with fly := q.fly ++ p }))).modBay (n / 16)
      (fun b => { b with tags := b.tags - pieceTags p })

/-- The oldest row that has come for the sequencer lands in its staging buffer, if its step has a half, and its tag is free. An attention
macro's pages were captured at issue, so only their arrival counts (10 R295, R302, R304; 12 R345). -/
def landSeq (s : State) (n : Nat) : State :=
  match pickRow (fun f => f.ret && f.tile ≤ s.seqPos n + 1) (s.seqOf n).fly [] with
  | none => s
  | some (f, t) =>
    (s.modFly n (fun m => match m with
      | .matrix g => .matrix { g with seq := { g.seq with
          fly := t, landed := tmod 0 g.seq.landed f.tile (· + f.len)
          staged := tmod [] g.seq.staged f.tile (fun l => writeBytes l f.addr f.data) } }
      | m => m.modSeq (fun q => { q with fly := t }))).modBay (n / 16) (fun b => { b with tags := b.tags + f.tags })

/-- The sequencer goes on with what has come (08 R252, R253; 12 R344). -/
def seqGo (s : State) (n : Nat) : State :=
  match (s.core n).mac with
  | some ⟨_, .matrix f⟩ => if s.macLive n then s.seqAdvance n (seqFuel f) else s
  | some ⟨_, .attention _⟩ => s.attStep n
  | _ => s

/-- Rows landed while there are any. -/
def landSeqAll (s : State) (n : Nat) : Nat → State
  | 0 => s
  | m + 1 => (s.landSeq n).landSeqAll n m

/-- A sequencer stopped: its accepted requests complete, steps wholly staged are kept, and what waits in tags is asked for again after the
restore (08 R254, 10 R316, 12 R362). -/
def haltSeq (s : State) (n : Nat) : State :=
  let fly := (s.seqOf n).fly
  let s := (fly.filter (fun f => !f.ret)).foldl (fun s f => s.settleTag f.rtag) s
  let s := s.landSeqAll n fly.length
  let q := s.seqOf n
  let at_ := s.seqPos n
  let whole (t : Nat) : Bool := q.fly.all (fun r => r.tile ≠ t) && q.todo.all (fun p => p.all (fun r => r.tile ≠ t))
  let first := ((List.range (q.asked - at_)).map (· + at_)).find? (fun t => !whole t)
  let freed := q.fly.foldl (fun t f => t + f.tags) 0
  let keep := first.getD q.asked
  (s.modFly n (fun m => m.modSeq (fun q => { q with
    asked := max at_ keep, todo := [], fly := [], landed := q.landed.filter (fun e => e.1 < keep)
    staged := q.staged.filter (fun e => e.1 < keep) }))).modBay (n / 16) (fun b => { b with tags := b.tags + freed })

/-- The engine's next request in round-robin order over the seventeen streams of its cores: one that is ready, with tags enough (10 R302,
R304). -/
def nextRequest (s : State) (b : Nat) : Option (Nat × List StrmRow) :=
  ((List.range 272).map (fun i => ((s.bay b).rr + i) % 272)).findSome? (fun i =>
    let n := 16 * b + i / 17
    match (if i % 17 = 16 then s.readySeq n else s.readyPiece n (i % 17)) with
    | some p => if pieceTags p ≤ (s.bay b).tags then some (i, p) else none
    | none => none)

/-- One beat of the engine: each issued store or forward has its next row read, and the next request issues (10 R302). -/
def engineBeat (s : State) (b : Nat) : State :=
  let s := (coresOf b).foldl (fun s n => (List.range 16).foldl (fun s st => s.readRow n st false) s) s
  let s := (coresOf b).foldl (fun s n => s.seqAsk n 3) s
  match s.nextRequest b with
  | none => s
  | some (i, p) =>
    let n := 16 * b + i / 17
    let s := s.modBay b (fun x => { x with rr := (i + 1) % 272 })
    if i % 17 = 16 then s.issueSeq n p else s.issuePiece n (i % 17) p

end State

/-- STREAM_REQUEST_ISSUE (10 R295, R302, R304-R306, R315). -/
def execStreamRequestIssue (b : BayId) (s : State) : Res := .next (s.engineBeat b.val)

/-- STREAM_ROW_DELIVERED (10 R299, R303, R304, R309; 09 R280): stream 16 is the tile sequencer. -/
def execStreamRowDelivered (c : CoreId) (st : Fin 17) (s : State) : Res :=
  .next (if st.val = 16 then (s.landSeq c.val).seqGo c.val else s.deliver c.val st.val)

end Sys2Proof.Machine
end

