-- ==== Sys2Proof/Machine/CoreIssue.lean ====
section
/-! DEFINITION. A core's beats: which bundles are encodings at all, what holds a bundle, what faults it, and what each slot does at issue
(07 R206-R236, 09 R269-R282, 10 R294-R313). -/

namespace Sys2Proof.Machine

/-! ### Encodings (07 R210) -/

/-- The slot that an operation belongs to: control 0, row 1, move 2, a whole macro bundle 3 (07 R208). -/
def slotKind : SlotOp → Nat
  | .vnop | .lane .. | .vcvt .. | .vbcast .. | .vred .. | .vsfu .. => 1
  | .mnop | .ldr .. | .str .. | .lda .. | .sta .. | .fill .. | .copy .. | .semsig .. | .semwait .. | .hqpush .. | .hqpop ..
  | .claimTake .. | .claimArm .. | .strmgo .. | .strmswap .. | .strmwait .. | .hoopPush .. | .hoopConfig .. | .hoopPop ..
  | .hoopPeek .. | .hoopDrop .. | .hoopCount .. | .arrwait .. | .arrReset .. | .mwait .. => 2
  | .mac .. => 3
  | .nop | .alu .. | .alui .. | .li .. | .lis .. | .branch .. | .jal .. | .jr .. | .amov .. | .aaddi .. | .xmova .. | .getsv ..
  | .rand .. | .stop => 0

/-- The scalar (false) or row (true) register that an operation names as its destination (07 R210). -/
def slotDst : SlotOp → Option (Bool × Nat)
  | .alu _ rd _ _ | .alui _ rd _ _ | .li rd _ | .lis rd _ _ | .jal rd _ | .jr rd _ | .xmova rd _ | .getsv rd _ | .rand rd =>
    some (false, rd.val)
  | .lane _ wd _ _ _ _ | .vcvt wd _ _ _ _ _ | .vbcast wd _ _ | .vsfu wd _ _ _ => some (true, wd.val)
  | .vred xs _ _ _ => some (false, xs.val)
  | .ldr w _ _ | .lda w _ _ | .hoopPop _ w | .hoopPeek _ w _ => some (true, w.val)
  | .hqpop _ x | .claimTake _ _ x | .claimArm _ x | .strmwait _ x | .hoopCount _ x | .mwait x => some (false, x.val)
  | _ => none

/-- Whether an operation transfers or ends the job: it may not stand in a delay bundle (07 R210, R213). -/
def isTransfer : SlotOp → Bool
  | .branch .. | .jal .. | .jr .. | .stop => true
  | _ => false

/-- Whether each field of an operation is in the range its table gives (07 R207, R210, R217-R220). -/
def slotWf : SlotOp → Bool
  | .lane op _ _ _ _ fmt => match op with
    | .and | .or | .xor => fmt.val = 0
    | .sel => fmt.val ≤ 5
    | _ => fmt.val ≤ 3
  | .vcvt _ ws1 fmt tf part sr =>
    let l := 4096 / laneWidth fmt.val
    let t := cvtLanes tf.val
    fmt.val ≤ 5 && tf.val ≤ 5 && (if l < t then ws1.val % (t / l) = 0 && ws1.val + t / l ≤ 16 && part.val = 0
      else if t < l then part.val < l / t else part.val = 0)
      && (!sr || ((tf.val = 1 || tf.val = 4 || tf.val = 5) && laneWidth tf.val < laneWidth fmt.val))
  | .vbcast _ _ fmt => fmt.val ≤ 5
  | .vred _ _ fmt _ => fmt.val ≤ 3
  | .vsfu _ _ fmt sel => fmt.val = 0 && sel.val ≤ 33
  | .getsv _ i => i.toNat ≤ 9
  | .strmgo _ prick _ => prick.toNat ≤ 1023
  | _ => true

/-- Whether some two of a list are equal. -/
def hasTwins {α : Type} [DecidableEq α] : List α → Bool
  | [] => false
  | a :: t => t.contains a || hasTwins t

/-- Whether a bundle's slots go together: one operation a slot, a macro alone, no destination twice (07 R208, R210). -/
def bundleWf (b : List SlotOp) : Bool :=
  b.all slotWf && !hasTwins (b.map slotKind) && !hasTwins (b.filterMap slotDst)
    && (!b.any (fun o => slotKind o = 3) || b.length = 1)

namespace State

/-- Whether an image could hold a bundle: it is an encoding, every VSFU slot it names is one that TEN_SFU_REQ lists, and every Pricking
it names exists (07 R210, 04 R111). -/
def bundleOk (img : TenImage) (b : List SlotOp) : Bool :=
  bundleWf b && b.all (fun o => match o with
    | .vsfu _ _ _ sel => sel.val ≤ 1 || img.sfuReq.any (fun e => e.1 = sel.val - 2)
    | .strmgo _ prick _ => prick.toNat < img.pricks.length
    | _ => true)

/-! ### Holds (07 R209, R231) -/

/-- Whether a push or pop of Hoop h is in flight (09 R275). -/
def hoopBusy (c : Core) (h : Nat) : Bool := c.flight.any (fun f => match f.act with
  | .hoopA k => k = h
  | .hoopO k _ => k = h
  | _ => false)

/-- Whether a FILL or COPY is in flight (09 R272). -/
def fillBusy (c : Core) : Bool := c.flight.any (fun f => match f.act with
  | .fillDone => true
  | _ => false)

/-- Whether the special-function unit is taken for a VSFU: by a VSFU or drain step of another selector that has not written its results, or
in this beat by a drain (07 R231, 08 R264). -/
def sfuBusy (c : Core) (sel : Nat) : Bool := c.flight.any (fun f => match f.act with
  | .sfuDone k => k ≠ sel
  | .drainUse => true
  | _ => false)

/-- Whether an attention macro's softmax is in flight on a core (07 R231; log 38, DEDUCED). -/
def attBusy (s : State) (n : Nat) (c : Core) : Bool := match c.mac with
  | some ⟨_, .attention f⟩ => !s.attDone n f
  | _ => false

/-- Where a HQPUSH of core n goes: its own bay, or the binding's queue on the bay of its logical bay (10 R312, R313); `none` where the job
has no such bay. -/
def hqDest (s : State) (n q : Nat) (j : Job) : Option (Nat × Nat) :=
  let b := n / 16
  match s.coreImg n with
  | none => some (b, q)
  | some img =>
    match img.stages.findSome? (fun i => match i with
      | .bind qu lb dl dq => if qu = q && lb = (s.bay b).lbay then some (dl, dq) else none
      | _ => none) with
    | none => some (b, q)
    | some (dl, dq) => (physBay j dl).map (fun d => (d, dq))

/-- Entries of a handle queue together with the pushes in flight to it (10 R313). -/
def hqLoad (s : State) (b q : Nat) : Nat :=
  (tget [] (s.bay b).hq q).length + (s.hqFly.filter (fun f => f.bay = b && f.queue = q)).length
    + ((coresOf b).map (fun n => ((s.core n).flight.filter (fun f => match f.act with
      | .hqLand k _ => k = q
      | _ => false)).length)).foldl (· + ·) 0

/-- The fault of a Hoop operation's check at issue (09 R276, R478). -/
def hoopFault (c : Core) : SlotOp → Option Nat
  | .hoopConfig _ adr cnt =>
    let b := (c.rdA adr.val).toNat
    if b ≥ 4096 then some Status.accessDenied
    else if cnt.toNat ≠ 0 && b + cnt.toNat > 4096 then some Status.accessSpan else none
  | .hoopPush h _ | .hoopPop h _ | .hoopCount h _ => if (c.hoop h.val).size = 0 then some Status.accessDenied else none
  | .hoopPeek h _ cnt =>
    if (c.hoop h.val).size = 0 then some Status.accessDenied
    else if cnt.toNat ≥ (c.hoop h.val).size then some Status.accessSpan else none
  | .hoopDrop h cnt =>
    if (c.hoop h.val).size = 0 then some Status.accessDenied
    else if cnt.toNat > (c.hoop h.val).size then some Status.accessSpan else none
  | _ => none

/-- The cause that an operation holds its bundle for, if it does (07 R222, R231; 09 R272, R275, R281; 10 R294, R296, R313; 13 R381). -/
def slotHold (s : State) (n : Nat) (j : Job) (op : SlotOp) : Option Nat :=
  let c := s.core n
  let b := s.bay (n / 16)
  let when (h : Bool) (cause : Nat) : Option Nat := if h then some cause else none
  match op with
  | .vsfu _ _ _ sel => when (sfuBusy c sel.val || s.attBusy n c) 5
  | .fill _ _ _ cnt | .copy _ _ _ cnt => when (cnt ≠ 0 && fillBusy c) 0
  | .semwait pair ctr cnt => when (tget 0 c.sem (pair.val + 64 * ctr.val) < cnt.toNat) 2
  | .hqpush q _ => (match s.hqDest n q.val j with
      | some (d, k) => when (32 ≤ s.hqLoad d k) 4
      | none => some 4)
  | .hqpop q _ => when (tget [] b.hq q.val).isEmpty 3
  | .claimTake _ _ _ | .claimArm _ _ => when (c.claimWait ≠ 0) 8
  | .strmgo st _ _ => when (!((s.core (s.leadOf n st.val)).strm st.val).settled) 0
  | .strmswap st => when ((c.strm st.val).loads && (c.strm st.val).waits) (s.strmCause n st.val)
  | .strmwait st _ => when (c.strm st.val).waits (s.strmCause n st.val)
  | .hoopPush h _ => when ((hoopFault c op).isNone && (c.hoop h.val).o = (c.hoop h.val).size) 4
  | .hoopConfig h _ _ => when ((hoopFault c op).isNone && hoopBusy c h.val) 0
  | .hoopPop h _ => when ((hoopFault c op).isNone && (c.hoop h.val).a = 0) 0
  | .hoopPeek h _ cnt => when ((hoopFault c op).isNone && (c.hoop h.val).a ≤ cnt.toNat) 0
  | .hoopDrop h cnt => when ((hoopFault c op).isNone && (c.hoop h.val).a < cnt.toNat) 0
  | .arrwait k x _ => when (tget 0 c.arr k.val < (c.rdX x.val).toNat % 2 ^ 32) 2
  | .mwait _ => when c.mac.isSome 0
  | .mac m _ _ _ =>
    if c.mac.isSome then some 0
    else (match m with
      | .yard _ => when (4 ≤ s.intake (n / 16)) 6
      | _ => none)
  | _ => none

/-- A claim counter armed (08 R258). -/
def claimArm (s : State) (b k limit : Nat) : Nat × State :=
  ((s.claim b k).value, s.modBay b (fun x => { x with claims := tset x.claims k { value := 0, limit := limit } }))

/-- What the first test of a held bundle sets going: a claim's request, answered 8 beats later (08 R258), and the end of an unended
stream (10 R296). -/
def firstTest (s : State) (n : Nat) (op : SlotOp) : State :=
  let c := s.core n
  match op with
  | .claimTake k cnt _ =>
    if c.claimVal.isSome then s
    else
      let (v, s) := s.claimTake (n / 16) k.val cnt.toNat
      s.modCore n (fun c => { c with claimWait := 8, claimVal := some (match v with
        | some i => BitVec.ofNat 64 i
        | none => BitVec.allOnes 64) })
  | .claimArm k x =>
    if c.claimVal.isSome then s
    else
      let (v, s) := s.claimArm (n / 16) k.val ((c.rdX x.val).toNat % 2 ^ 32)
      s.modCore n (fun c => { c with claimWait := 8, claimVal := some (BitVec.ofNat 64 v) })
  | .strmgo st _ _ => s.endStream n st.val
  | _ => s

/-! ### Faults at issue (07 R234, R235) -/

/-- Scratchpad rows of a program access: bank stages it reads and writes, in beats after issue (09 R269, R272, R273). -/
def bankUses (c : Core) (op : SlotOp) : List BankUse :=
  let row (adr : AReg) (off : BitVec 12) : Nat := (c.rdA adr.val).toNat % 4096 + off.toNat
  match op with
  | .ldr _ adr off => [{ left := 3, bank := row adr off % 8, read := true }]
  | .str _ adr off => [{ left := 3, bank := row adr off % 8, read := false }]
  | .fill _ adr off cnt => (List.range cnt.toNat).map (fun i => { left := 3 + i, bank := (row adr off + i) % 8, read := false })
  | .copy x adr off cnt =>
    let src := row adr off
    let dst := (c.rdX x.val).toNat % 4096
    let m := cnt.toNat
    (List.range m).flatMap (fun i =>
      let k := if dst ≤ src then i else m - 1 - i
      [{ left := 3 + i, bank := (src + k) % 8, read := true }, { left := 9 + i, bank := (dst + k) % 8, read := false }])
  | .hoopPush h _ => [{ left := 3, bank := ((c.hoop h.val).base + (c.hoop h.val).tail) % 8, read := false }]
  | .hoopPop h _ => [{ left := 3, bank := ((c.hoop h.val).base + (c.hoop h.val).head) % 8, read := true }]
  | .hoopPeek h _ cnt =>
    let x := c.hoop h.val
    [{ left := 3, bank := (x.base + (x.head + cnt.toNat) % x.size) % 8, read := true }]
  | _ => []

/-- Whether an access meets an earlier one of its kind at a bank stage (09 R270). -/
def bankClash (c : Core) (op : SlotOp) : Bool := (bankUses c op).any c.banks.contains

/-- The range check of rows `first` to `first + cnt - 1` (07 R223). -/
def rowsFault (first cnt : Nat) : Option Nat :=
  if cnt = 0 then none
  else if first ≥ 4096 then some Status.accessDenied
  else if first + cnt > 4096 then some Status.accessSpan else none

/-- What a macro bundle does at issue, from its descriptor row and the value of XS (07 R226, R227). A descriptor row beyond the scratchpad
is out of range (07 R234). -/
def macroStart (s : State) (n p : Nat) (img : TenImage) (m : MacroOp) (adr : AReg) (off : BitVec 12) (xs : XReg) : MacroStart :=
  let c := s.core n
  let row := (c.rdA adr.val).toNat % 4096 + off.toNat
  let l := (c.rdX xs.val).toNat
  if row ≥ 4096 then .fault Status.accessDenied
  else
    let d := rowBytes (c.rowAt row)
    match m with
    | .matmul => s.matStart n p img d l
    | .attend => s.attStart n p img d l
    | .yard op => s.yardChecks p op d l

/-- Bundles of the program that a core runs. -/
def progLen (s : State) (n : Nat) : Nat := match s.coreImg n with
  | some img => img.progs.getD (s.core n).program 0
  | none => 0

/-- The fault that an operation's checks at issue raise (07 R223, R225, R234; 09 R270, R276; 10 R300). A status that the macro returns
through MWAIT is no fault (07 R228). -/
def slotFault (s : State) (n p : Nat) (j : Job) (op : SlotOp) : Option Nat :=
  let c := s.core n
  let row (adr : AReg) (off : BitVec 12) : Nat := (c.rdA adr.val).toNat % 4096 + off.toNat
  let acc (adr : AReg) (off : BitVec 12) : Option Nat :=
    if (c.rdA adr.val).toNat % 512 + off.toNat ≥ 512 then some Status.accessDenied else none
  let range : Option Nat := match op with
    | .jr _ rs1 => if (c.rdX rs1.val).toNat % 65536 ≥ s.progLen n then some Status.accessDenied else none
    | .ldr _ adr off | .str _ adr off => rowsFault (row adr off) 1
    | .lda _ adr off | .sta _ adr off => acc adr off
    | .fill _ adr off cnt => rowsFault (row adr off) cnt.toNat
    | .copy x adr off cnt =>
      if cnt = 0 then none
      else if row adr off ≥ 4096 then some Status.accessDenied
      else (match rowsFault (row adr off) cnt.toNat with
        | some e => some e
        | none => rowsFault ((c.rdX x.val).toNat % 4096) cnt.toNat)
    | .semsig _ _ cnt remote x =>
      if remote && cnt ≠ 0 && (c.rdX x.val).toNat / 16 % 16 ≥ j.bays then some Status.accessDenied else none
    | .strmgo st prick adr => s.strmgoFault n st.val prick.toNat c (c.rdA adr.val)
    | .mac m adr off xs => (match s.coreImg n with
        | some img => (match s.macroStart n p img m adr off xs with
            | .fault e => if e = Status.seqRange then none else some e
            | _ => none)
        | none => none)
    | _ => hoopFault c op
  match range with
  | some e => some e
  | none => if bankClash c op then some Status.bankConflict else none

/-! ### Issue -/

end State

/-- A scalar operation's result (07 R212). -/
def aluVal (op : AluOp) (a b : Word) : Word :=
  match op with
  | .add => a + b
  | .sub => a - b
  | .and => a &&& b
  | .or => a ||| b
  | .xor => a ^^^ b
  | .sll => a <<< (b.toNat % 64)
  | .srl => a >>> (b.toNat % 64)
  | .sra => a.sshiftRight (b.toNat % 64)
  | .slt => if a.slt b then 1 else 0
  | .sltu => if a.ult b then 1 else 0
  | .min => if b.slt a then b else a
  | .max => if a.slt b then b else a
  | .mul => a * b

/-- The R-form operation that an immediate form stands for (07 R212). -/
def immOp : AluImmOp → AluOp
  | .addi => .add | .andi => .and | .ori => .or | .xori => .xor | .slli => .sll | .srli => .srl | .srai => .sra | .slti => .slt

/-- Whether a branch is taken (07 R212). -/
def taken (c : Cond) (a b : Word) : Bool :=
  match c with
  | .eq => a = b
  | .ne => a ≠ b
  | .lt => a.slt b
  | .ge => !a.slt b
  | .ltu => a.ult b
  | .geu => !a.ult b

/-- A bundle index moved by a signed offset; the index has 16 bits (07 R205). -/
def pcPlus (pc : Nat) (off : Int) : Nat := (((pc : Int) + off) % 65536).toNat

/-- A value with its 16 bits from 16k upwards replaced (07 R212 LIS). -/
def insert16 (v : Word) (k : Nat) (imm : BitVec 16) : Word :=
  (v &&& ~~~((0xFFFF : Word) <<< (16 * k))) ||| (imm.setWidth 64 <<< (16 * k))

namespace State

/-- The system value of an index (07 R207). -/
def sysVal (s : State) (n p k : Nat) (j : Job) (i : Nat) : Word :=
  let c := s.core n
  match i with
  | 0 => BitVec.ofNat 64 (n % 16)
  | 1 => BitVec.ofNat 64 (s.bay (n / 16)).lbay
  | 2 => BitVec.ofNat 64 j.bays
  | 3 => BitVec.ofNat 64 n
  | 4 => s.dev.tsc
  | 5 => BitVec.ofNat 64 c.beats
  | 6 => BitVec.ofNat 64 (p + 1)
  | 7 => BitVec.ofNat 64 k
  | _ => c.flags

/-- A control-slot operation at issue; `c` is the core as the bundle reads it (07 R212-R214). -/
def issueControl (s : State) (n p k : Nat) (j : Job) (c : Core) : SlotOp → State
  | .alu op rd rs1 rs2 =>
    s.modCore n (·.fly (if op = .mul then 3 else 1) (.setX rd.val (aluVal op (c.rdX rs1.val) (c.rdX rs2.val))))
  | .alui op rd rs1 imm => s.modCore n (·.fly 1 (.setX rd.val (aluVal (immOp op) (c.rdX rs1.val) (imm.signExtend 64))))
  | .li rd imm => s.modCore n (·.fly 1 (.setX rd.val (imm.signExtend 64)))
  | .lis rd kk imm => s.modCore n (·.fly 1 (.setX rd.val (insert16 (c.rdX rd.val) kk.val imm)))
  | .branch cond rs1 rs2 off =>
    if taken cond (c.rdX rs1.val) (c.rdX rs2.val) then s.modCore n (fun x => { x with xfer := some (2, pcPlus c.pc off.toInt) })
    else s
  | .jal rd off =>
    s.modCore n (fun x => ({ x with xfer := some (2, pcPlus c.pc off.toInt) } : Core).fly 3 (.setX rd.val (BitVec.ofNat 64 (c.pc + 3))))
  | .jr rd rs1 =>
    s.modCore n (fun x => ({ x with xfer := some (2, (c.rdX rs1.val).toNat % 65536) } : Core).fly 3
      (.setX rd.val (BitVec.ofNat 64 (c.pc + 3))))
  | .amov ad rs1 => s.modCore n (·.fly 1 (.setA ad.val ((c.rdX rs1.val).setWidth 40)))
  | .aaddi ad src imm => s.modCore n (·.fly 1 (.setA ad.val (c.rdA src.val + imm.signExtend 40)))
  | .xmova rd src => s.modCore n (·.fly 1 (.setX rd.val ((c.rdA src.val).setWidth 64)))
  | .getsv rd i =>
    let v := s.sysVal n p k j i.toNat
    s.modCore n (fun x =>
      (if i.toNat = 9 then { x with semSat := false, intSat := false } else x).fly 1 (.setX rd.val v))
  | .rand rd => let d := s.draw; d.2.modCore n (·.fly 1 (.setX rd.val d.1))
  | .stop => s.modCore n (fun x => { x with ending := true })
  | _ => s

/-- A row-slot operation at issue (07 R218-R220). -/
def issueRow (s : State) (n p : Nat) (c : Core) : SlotOp → State
  | .lane op wd ws1 ws2 ws3 fmt =>
    let r := rowOp op fmt.val (c.rdW ws1.val) (c.rdW ws2.val) (c.rdW ws3.val)
    s.modCore n (fun x => let y := x.fly (LaneOp.latency op) (.setW wd.val r.1); if r.2 then y.fly (LaneOp.latency op) .satFlag else y)
  | .vcvt wd ws1 fmt tf part sr =>
    let l := 4096 / laneWidth fmt.val
    let t := cvtLanes tf.val
    let srcs := (List.range (max 1 (t / l))).map (fun i => c.rdW (ws1.val + i))
    let (ds, s) := if sr then (let r := s.draws (t / 4); (some r.1, r.2)) else (none, s)
    let r := cvt fmt.val tf.val part.val srcs ds
    s.modCore n (fun x => let y := x.fly 2 (.setW wd.val r.1); if r.2 then y.fly 2 .satFlag else y)
  | .vbcast wd xs fmt =>
    let w := laneWidth fmt.val
    s.modCore n (·.fly 2 (.setW wd.val (ofLanes w (List.replicate (4096 / w) ((c.rdX xs.val).toNat % 2 ^ w)))))
  | .vred xs ws1 fmt op => s.modCore n (·.fly 6 (.setX xs.val (reduce op fmt.val (c.rdW ws1.val))))
  | .vsfu wd ws1 _ sel =>
    let l := s.sfLatency sel.val
    let r := sfRow (s.ax64 p) (s.sfSel sel.val) (c.rdW ws1.val)
    s.modCore n (fun x => (x.fly l (.setW wd.val r)).fly l (.sfuDone sel.val))
  | _ => s

/-- A move-slot operation at issue (07 R222-R225, 08 R258, 09 R269-R281, 10 R294-R313). -/
def issueMove (s : State) (n : Nat) (j : Job) (c : Core) (bundle : Nat) (op : SlotOp) : State :=
  let row (adr : AReg) (off : BitVec 12) : Nat := (c.rdA adr.val).toNat % 4096 + off.toNat
  let acc (adr : AReg) (off : BitVec 12) : Nat := (c.rdA adr.val).toNat % 512 + off.toNat
  let s := s.modCore n (fun x => { x with banks := x.banks ++ bankUses c op })
  match op with
  | .ldr w adr off => s.modCore n (·.fly 3 (.readSpad w.val (row adr off)))
  | .str w adr off => s.modCore n (·.fly 3 (.writeSpad (row adr off) (c.rdW w.val)))
  | .lda w adr off => s.modCore n (·.fly 4 (.setW w.val (c.rdAcc (acc adr off))))
  | .sta w adr off => s.modCore n (·.fly 4 (.setAcc (acc adr off) (c.rdW w.val)))
  | .fill x adr off cnt =>
    if cnt = 0 then s
    else
      let v := ofLanes 32 (List.replicate 128 ((c.rdX x.val).toNat % 2 ^ 32))
      s.modCore n (fun y => ((List.range cnt.toNat).foldl (fun y i => y.fly (3 + i) (.writeSpad (row adr off + i) v)) y).fly
        (6 + cnt.toNat - 1) .fillDone)
  | .copy x adr off cnt =>
    if cnt = 0 then s
    else
      let src := row adr off
      let dst := (c.rdX x.val).toNat % 4096
      let m := cnt.toNat
      s.modCore n (fun y => ((List.range m).foldl (fun y i =>
        let k := if dst ≤ src then i else m - 1 - i
        y.fly (3 + i) (.readCopy (dst + k) (src + k))) y).fly (12 + m - 1) .fillDone)
  | .semsig pair ctr cnt remote x =>
    let key := pair.val + 64 * ctr.val
    if cnt = 0 then s
    else if remote then
      let t := (c.rdX x.val).toNat
      (match physBay j (t / 16 % 16) with
       | some b => { s with semFly := s.semFly ++ [{ src := n, dst := 16 * b + t % 16, ctr := key, cnt := cnt.toNat }] }
       | none => s)
    else s.modCore n (·.fly 1 (.semLocal key cnt.toNat))
  | .semwait pair ctr cnt => s.modCore n (fun y => { y with sem := tmod 0 y.sem (pair.val + 64 * ctr.val) (· - cnt.toNat) })
  | .hqpush q x =>
    let h : BitVec 16 := (c.rdX x.val).setWidth 16
    (match s.hqDest n q.val j with
     | some (d, k) => if d = n / 16 then s.modCore n (·.fly 2 (.hqLand k h))
                      else { s with hqFly := s.hqFly ++ [{ src := n, bay := d, queue := k, handle := h }] }
     | none => s)
  | .hqpop q x =>
    (match tget [] (s.bay (n / 16)).hq q.val with
     | h :: t => (s.modBay (n / 16) (fun b => { b with hq := tset b.hq q.val t })).modCore n (·.fly 1 (.setX x.val (h.setWidth 64)))
     | [] => s)
  | .claimTake _ _ x | .claimArm _ x =>
    s.modCore n (fun y => ({ y with claimVal := none } : Core).fly 1 (.setX x.val (c.claimVal.getD 0)))
  | .strmgo st prick adr => s.strmgo n st.val prick.toNat c (c.rdA adr.val) bundle
  | .strmswap st => s.strmswap n st.val
  | .strmwait st x => s.modCore n (·.fly 1 (.setX x.val (BitVec.ofNat 64 (c.strm st.val).waitVal)))
  | .hoopPush h w =>
    let p := c.hoop h.val
    s.modCore n (fun y => ((y.modHoop h.val (fun q => { q with tail := (q.tail + 1) % q.size, o := q.o + 1 })).fly 3
      (.writeSpad (p.base + p.tail) (c.rdW w.val))).fly 7 (.hoopA h.val))
  | .hoopConfig h adr cnt =>
    s.modCore n (·.modHoop h.val (fun _ => { base := (c.rdA adr.val).toNat, size := cnt.toNat }))
  | .hoopPop h w =>
    let p := c.hoop h.val
    s.modCore n (fun y => ((y.modHoop h.val (fun q => { q with head := (q.head + 1) % q.size, a := q.a - 1 })).fly 3
      (.readSpad w.val (p.base + p.head))).fly 7 (.hoopO h.val 1))
  | .hoopPeek h w cnt =>
    let p := c.hoop h.val
    s.modCore n (·.fly 3 (.readSpad w.val (p.base + (p.head + cnt.toNat) % p.size)))
  | .hoopDrop h cnt =>
    if cnt = 0 then s
    else s.modCore n (fun y => (y.modHoop h.val (fun q => { q with head := (q.head + cnt.toNat) % q.size, a := q.a - cnt.toNat })).fly
      2 (.hoopO h.val cnt.toNat))
  | .hoopCount h x => s.modCore n (·.fly 1 (.setX x.val (BitVec.ofNat 64 (c.hoop h.val).a)))
  | .arrwait k x sub =>
    if sub then s.modCore n (fun y => { y with arr := tmod 0 y.arr k.val (· - (c.rdX x.val).toNat % 2 ^ 32) }) else s
  | .arrReset k => s.modCore n (fun y => { y with arr := tset y.arr k.val 0 })
  | .mwait x =>
    let v : Word := match c.macRes with
      | some (st, cl, r) => BitVec.ofNat 64 (st + 256 * cl + 65536 * r)
      | none => BitVec.ofNat 64 Status.okZero
    s.modCore n (fun y => ({ y with macRes := none } : Core).fly 1 (.setX x.val v))
  | _ => s

/-- The CLASS of a macro bundle (07 R226). -/
def macroClass : MacroOp → Nat
  | .matmul => 0xE0
  | .attend => 0xE1
  | .yard _ => 0xE2

/-- A macro bundle at issue, its faults met before: in flight, or completed at once (07 R227, R228; 08 R250, R255; 12 R360; 13 R370). -/
def issueMacro (s : State) (n p : Nat) (c : Core) (bundle : Nat) (m : MacroOp) (adr : AReg) (off : BitVec 12) (xs : XReg) : State :=
  match s.coreImg n with
  | none => s
  | some img =>
    match s.macroStart n p img m adr off xs with
    | .fault e => s.modCore n (fun y => { y with macRes := some (e, macroClass m, 0) })
    | .zero r => s.modCore n (fun y => { y with macRes := some (Status.okZero, macroClass m, r) })
    | .go f =>
      let s := s.modCore n (fun y => { y with mac := some ⟨bundle, f⟩, macRes := none })
      let d := rowBytes (c.rowAt ((c.rdA adr.val).toNat % 4096 + off.toNat))
      match m, f with
      | .yard op, _ => s.yardAccept (s.yardOpOf n p op d (c.rdX xs.val).toNat)
      | _, .matrix g =>
        let (s, g) := s.takeTile n g
        (s.putMat n bundle g).clobberStage n [g.a, g.b, g.c, g.d]
      | _, _ => (s.clobberStage n (attStages d)).attStep n

/-- One operation of a bundle at issue, with operands from the core as it stood (07 R209). -/
def issueSlot (s : State) (n p k : Nat) (j : Job) (c : Core) (bundle : Nat) (op : SlotOp) : State :=
  match op with
  | .mac m adr off xs => s.issueMacro n p c bundle m adr off xs
  | _ => if slotKind op = 0 then s.issueControl n p k j c op
         else if slotKind op = 1 then s.issueRow n p c op else s.issueMove n j c bundle op

/-- The program counter after a bundle, with a pending transfer one bundle nearer (07 R213). -/
def nextPc (c : Core) (x : Core) : Core :=
  match c.xfer with
  | some (k + 2, t) => { x with pc := c.pc + 1, xfer := some (k + 1, t) }
  | some (_, t) => { x with pc := t, xfer := none }
  | none => { x with pc := c.pc + 1 }

/-- A job's first and latest bundle (05 R151 START_TS, END_TS). -/
def markBundle (s : State) (p k : Nat) : State :=
  let now := s.dev.tsc.toNat
  s.modJob p k (fun j => { j with started := true, startTs := if j.started then j.startTs else now, endTs := now })

/-- A core counts as ended once everything issued before or with END has completed (07 R214). -/
def checkEnded (s : State) (n : Nat) : State :=
  let c := s.core n
  let idle (e : Nat × Strm) : Bool := e.2.settled && (e.2.loads || e.2.todo.isEmpty)
  if c.ending && !c.ended && c.flight.isEmpty && c.mac.isNone && c.strms.all idle
      && !s.semFly.any (fun f => f.src = n) && !s.hqFly.any (fun f => f.src = n) then
    s.modCore n (fun c => { c with ended := true, running := false, cause := none })
  else s

/-- The bundle issues: all its slots at once (07 R209). -/
def issueBundle (s : State) (n p k : Nat) (j : Job) (b : List SlotOp) : State :=
  let c := s.core n
  let s := s.modCore n (fun x => { x with queue := x.queue.drop 1, claimWait := 0, claimVal := none,
                                          issued := (x.issued.filter (fun t => s.dev.tsc.toNat ≤ t + 63)) ++ [s.dev.tsc.toNat] })
  let s := (s.markBundle p k).modCore n (nextPc c)
  let s := b.foldl (fun s op => s.issueSlot n p k j c c.pc op) s
  (s.countBeat n p none).checkEnded n

/-- Whether the pace gate lets a core issue at this tick (02 R50). -/
def paced (s : State) (n p : Nat) : Bool :=
  let d := s.pdk p
  !d.paceEn || ((s.core n).issued.filter (fun t => s.dev.tsc.toNat ≤ t + 63)).length < d.paceN

/-- A bubble: a beat counted under a cause, an awaited claim answer one beat nearer (07 R231, 08 R258). -/
def bubble (s : State) (n p cause : Nat) : State :=
  (s.modCore n (fun c => { c with claimWait := c.claimWait - 1 })).countBeat n p (some cause)

/-- Generate requests that a bundle makes of the DRBG: one for RAND, one for a VCVT that rounds stochastically (06 R177). -/
def drawsOf (b : List SlotOp) : Nat := (b.filter (fun o => match o with
  | .rand _ => true
  | .vcvt _ _ _ _ _ sr => sr
  | _ => false)).length

/-- The lowest cause that operations of a bundle are held for; those that draw random bits, while the DRBG does not serve them all (06 R178, 07
R231). -/
def heldFor (s : State) (n : Nat) (j : Job) (b : List SlotOp) : Option Nat :=
  (b.filterMap (s.slotHold n j)).foldl (fun m c => match m with
    | some x => some (min x c)
    | none => some c) (if drawsOf b ≠ 0 && !s.drbgServes (drawsOf b) then some 0 else none)

/-- Whether an operation is held by what its own first test sets going (08 R258, 10 R296). -/
def selfHeld : SlotOp → Bool
  | .claimTake .. | .claimArm .. | .strmgo .. => true
  | _ => false

/-- One beat of core n with its oldest waiting bundle: it issues, is held, or faults (07 R209, R215, R231, R235). A bundle that would fault
asks for no claim and ends no stream (07 R235). A transfer or END in a
delay bundle is no encoding (07 R210). A gated core takes no beat (02 R50; log 39, DEDUCED). A core with no bundle waiting faults where its program
counter has passed the last bundle (07 R215), and otherwise has nothing to test. -/
def coreBeat (s : State) (n p k : Nat) (j : Job) : Res :=
  let c := s.core n
  match c.queue with
  | [] => if s.paced n p && c.pc ≥ s.progLen n then .next ((s.tickCore n).coreFault n Status.accessDenied c.pc) else .next s
  | b :: _ =>
    if (s.bay (n / 16)).stopping.isSome then .next ((s.tickCore n).bubble n p 9)
    else if !s.paced n p then .next s
    else if c.xfer.isSome && b.any isTransfer then .refused .undefinedEncoding
    else
      let s := s.tickCore n
      if c.pc ≥ s.progLen n then .next (s.coreFault n Status.accessDenied c.pc)
      else
        match s.heldFor n j (b.filter (fun o => !selfHeld o)) with
        | some cause => .next (s.bubble n p cause)
        | none =>
          match b.findSome? (s.slotFault n p j) with
          | some e => .next (s.coreFault n e c.pc)
          | none =>
            let s := b.foldl (fun s op => s.firstTest n op) s
            match s.heldFor n j b with
            | some cause => .next (s.bubble n p cause)
            | none => .next (s.issueBundle n p k j b)

/-- A beat of a core whose job has met a fault in this beat is its last (07 R235, R236). -/
def lastBeat (s : State) (n : Nat) (j : Job) : State := if j.endWith.isSome then s.modCore n (fun c => { c with late := true }) else s

/-- A slot of a bundle reaches core n, the last one with `more` false: the bundle joins the core's queue and the core takes a beat
(log 6, DESIGN CHOICE). A core that does not run, or has issued END, takes no bundle (07 R214). -/
def slotCmd (s : State) (n : Nat) (more : Bool) (op : SlotOp) : Res :=
  let c := s.core n
  if !slotWf op || (slotKind op = 3 && !c.gather.isEmpty) then .refused .undefinedEncoding
  else match s.beatJob n with
  | none => .next s
  | some (p, k, j) =>
    if c.ending then .next s
    else
      let b := c.gather ++ [op]
      if !bundleWf b || !bundleOk ((s.pdk p).img.getD {}) b then .refused .undefinedEncoding
      else if more then .next (s.modCore n (fun c => { c with gather := b }))
      else ((s.modCore n (fun c => { c with gather := [], queue := c.queue ++ [b] })).lastBeat n j).coreBeat n p k j

/-! ### Beats without a new bundle, and what ends macros and jobs -/

/-- BUBBLE_BEAT: a beat in which no new bundle comes. The held bundle is tested again; a core that issued END waits for what is in
flight, as operand wait (07 R214, R231); a core that is being stopped counts preemption save (10 R314); a core with no bundle to test
is not held, and nothing happens. -/
def bubbleBeat (s : State) (n : Nat) : Res :=
  match s.beatJob n with
  | none => .next s
  | some (p, k, j) =>
    let s := s.lastBeat n j
    let c := s.core n
    if (s.bay (n / 16)).stopping.isSome then .next ((s.tickCore n).bubble n p 9)
    else if c.ending then
      (if c.ended then .next s else .next (((s.tickCore n).bubble n p 0).checkEnded n))
    else s.coreBeat n p k j

/-- Whether a core's macro may complete: it goes on, or it is an operation that the Yard has accepted and its bay still has its job (07 R235,
13 R370). -/
def macRuns (s : State) (n : Nat) : Bool :=
  s.macLive n || ((s.bay (n / 16)).job.isSome && match (s.core n).mac with
    | some ⟨_, .yard _⟩ => true
    | _ => false)

/-- A macro in flight completes, and its result is there for MWAIT: a matrix macro whose tiles are drained, an attention macro with no
item left, a Yard operation that the Yard has ended. An attention macro with items left takes its next one (log 37, DESIGN CHOICE). A status that
MWAIT does not return is a fault against the macro bundle (07 R228, R235; 08 R257; 12 R358; 13 R369). -/
def macroComplete (s : State) (n : Nat) : State :=
  if !s.macRuns n then s
  else
    match (s.core n).mac with
    | none => s
    | some ⟨_, .matrix f⟩ =>
      if matDone f then
        (s.modCore n (fun c => { c with mac := none, macRes := some (Status.ok, 0xE0,
          f.drained % 2 ^ 32 + f.bucket * 2 ^ 32 + b2n f.tileSrc * 2 ^ 35) })).checkEnded n
      else s
    | some ⟨_, .attention _⟩ =>
      let s := s.attStep n
      (match (s.core n).mac with
       | some ⟨_, .attention f⟩ =>
         if s.attDone n f then
           (s.modCore n (fun c => { c with mac := none, macRes := some (if f.fail = 0 then Status.ok else f.fail, 0xE1,
             f.done + f.masked * 2 ^ 24) })).checkEnded n
         else s
       | _ => s)
    | some ⟨bundle, .yard id⟩ =>
      match tfind s.yard.ops id with
      | none => s
      | some o =>
        if o.st ≠ .done then s
        else
          let s := s.modYard (fun y => { y with ops := tdel y.ops id })
          if [Status.ok, Status.okZero, Status.yardFull, Status.seqRange, Status.loftAuth].contains o.status then
            let pad := o.out ++ List.replicate ((512 - o.out.length % 512) % 512) 0
            ((s.opWrite n o.pdk 0 (512 * o.row) pad).modCore n (fun c =>
              { c with mac := none, macRes := some (o.status, 0xE2, o.result) })).checkEnded n
          else s.coreFault n o.status bundle

/-- A SEMSIG on its way lands (10 R311, 07 R225). -/
def landSem (s : State) (f : SemFly) : State :=
  ({ s with semFly := s.semFly.erase f } : State).modCore f.dst (·.semLand f.ctr f.cnt)

/-- A handle on its way lands (10 R313). -/
def landHq (s : State) (f : HqFly) : State := ({ s with hqFly := s.hqFly.erase f } : State).hqEnter f.bay f.queue f.handle

/-- Everything that a core has in flight completes, what it sent to other cores included (07 R232, R235). -/
def settleAll (s : State) (n : Nat) : State :=
  let s := s.settleCore n
  let s := (s.semFly.filter (fun f => f.src = n || f.dst = n)).foldl landSem s
  (s.hqFly.filter (fun f => f.src = n || f.bay = n / 16)).foldl landHq s

/-- CORES_STOPPED: the cores of a bay that is to stop are at rest (05 R164, 07 R232, 10 R316, 12 R362). -/
def coresStopped (s : State) (b : Nat) : State :=
  let x := s.bay b
  if x.stopping.isNone || x.stopped then s
  else
    let s := match x.job with
      | some (p, k) => s.drainJob p k
      | none => s
    let s := (coresOf b).foldl (fun s n =>
      (((s.settleAll n).haltStreams n).haltSeq n |>.cancelFetches n).modCore n (fun c =>
        { c with running := false, claimWait := 0, claimVal := none, cause := none })) s
    let s := s.modBay b (fun x => { x with stopped := true })
    match x.job with
    | some (p, k) => s.modJob p k (fun j => { j with stopTs := s.dev.tsc.toNat })
    | none => s

/-- Whether a job's macros keep it from ending after a fault: an accepted Yard operation completes, and so does the macro of an earlier
bundle on the core that faulted (07 R235, 13 R370); an attention macro of that core does not wait for splits of cores that have stopped. -/
def macsOpen (s : State) (ns : List Nat) : Bool := ns.any (fun n => match (s.core n).mac with
  | some ⟨_, .yard _⟩ => true
  | some ⟨_, .attention f⟩ => f.due.isNone && !s.ownsFold n
  | some ⟨_, .matrix _⟩ => true
  | none => false)

/-- The macros of cores that stop because of a fault on another core are over, but for what the Yard has accepted (07 R236). -/
def stopMacs (s : State) (ns : List Nat) : State := ns.foldl (fun s n =>
  if s.macRuns n then s else ((s.haltSeq n).cancelFetches n).modCore n (fun c => { c with mac := none })) s

/-- The cores of a quarantined bay fault: those that had not ended, or all where none had not (05 R163, 07 R234). -/
def quarFault (s : State) (b : Nat) : State :=
  let live := (coresOf b).filter (fun n => !(s.core n).ended)
  (if live.isEmpty then coresOf b else live).foldl (fun s n => s.nextFault n Status.quarantined) s

/-- A job's work is done: its cores and bays are left idle, with their state, and its completion falls due. A job that issued no bundle has no
END_TS that the spec states (05 R150, R151, R163, R168; 07 R236; log 9, DESIGN CHOICE). -/
def closeJob (s : State) (p k : Nat) (bays : List Nat) (j : Job) : State :=
  let s := s.drainJob p k
  let s := bays.foldl (fun s b => (coresOf b).foldl (fun s n =>
    (((s.settleAll n).haltStreams n).haltSeq n |>.cancelFetches n).modCore n (fun c =>
      { c with running := false, mac := none, gather := [], queue := [], cause := none, claimWait := 0, claimVal := none,
               strms := c.strms.map (fun e => (e.1, { e.2 with todo := [], send := [], fly := [], cur := e.2.tiles.length })) })) s) s
  let (e, s) := s.openVal
  let j' : Job := { j with status := j.endWith.getD Status.ok, endTs := if j.started then j.endTs else e.toNat,
                           result := s.jobResult p k j, lays := [] }
  let s := bays.foldl (fun s b => s.modBay b (fun x =>
    { x with job := none, resident := true, sliceDone := false, folds := [], stopped := x.stopping.isSome })) s
  s.finishJob p k j'

/-- JOB_END: every core of every bay of the job has ended, or a fault or a quarantined bay ends the job (05 R150, R151, R153, R163; 07
R235, R236). After a fault the job's macros that complete are waited for. -/
def jobEnd (s : State) (p k : Nat) : State :=
  match (s.ring p k).job with
  | none => s
  | some j =>
    let bays := (List.range 16).filter (fun b => (s.bay b).job = some (p, k))
    let quar := bays.filter (fun b => (s.bay b).stopping = some .quarantine && !(s.bay b).stopped)
    let cores := bays.flatMap coresOf
    let allEnded := bays.length = j.bays && cores.all (fun n => (s.core n).ended)
    if j.ph ≠ .running || bays.isEmpty || !(j.endWith.isSome || allEnded || !quar.isEmpty) then s
    else if j.endWith.isNone && allEnded then s.closeJob p k bays j
    else
      let s := if j.endWith.isNone then quar.foldl quarFault s else s
      let s := s.stopMacs cores
      match (s.ring p k).job with
      | some j => if s.macsOpen cores then s else s.closeJob p k bays j
      | none => s

/-- A sampling or stochastic-rounding instruction, or a macro that rounds stochastically, has waited too long for the DRBG (06 R178,
07 R234). -/
def entropyTimeout (s : State) (n : Nat) : State :=
  match s.liveJob n with
  | none => s
  | some _ =>
    let c := s.core n
    if s.sec.rng.running then s
    else if (c.queue.headD []).any (fun o => match o with
        | .rand _ => true
        | .vcvt _ _ _ _ _ sr => sr
        | _ => false) then s.coreFault n Status.entropyFault c.pc
    else match c.mac with
      | some ⟨bundle, .matrix f⟩ => if f.chain.elim false (fun ch => ch.sr) then s.coreFault n Status.entropyFault bundle else s
      | _ => s

end State

/-- BUBBLE_BEAT (02 R38, 07 R214, R231, 10 R314). -/
def execBubbleBeat (c : CoreId) (s : State) : Res := s.bubbleBeat c.val

/-- MACRO_COMPLETE (07 R227, R228; 08 R257; 12 R358; 13 R369). -/
def execMacroComplete (c : CoreId) (s : State) : Res := .next (s.macroComplete c.val)

/-- CORES_STOPPED (05 R164, 07 R232, 10 R316). -/
def execCoresStopped (b : BayId) (s : State) : Res := .next (s.coresStopped b.val)

/-- JOB_END (05 R150, R151, R163, R168; 07 R236). -/
def execJobEnd (p : PdkId) (k : Fin 256) (s : State) : Res := .next (s.jobEnd p.val k.val)

/-- ENTROPY_WAIT_TIMEOUT (06 R178, 07 R234). -/
def execEntropyWaitTimeout (c : CoreId) (s : State) : Res := .next (s.entropyTimeout c.val)

/-- REMOTE_SEMSIG_ARRIVAL (10 R311, 07 R225): the oldest SEMSIG under way from a core lands. -/
def execRemoteSemsigArrival (src : CoreId) (s : State) : Res :=
  .next (match s.semFly.find? (fun f => f.src = src.val) with
    | some f => (s.landSem f).checkEnded src.val
    | none => s)

/-- REMOTE_HQPUSH_ARRIVAL (10 R313): the oldest handle under way from a core enters its queue. -/
def execRemoteHqpushArrival (src : CoreId) (s : State) : Res :=
  .next (match s.hqFly.find? (fun f => f.src = src.val) with
    | some f => (s.landHq f).checkEnded src.val
    | none => s)

end Sys2Proof.Machine
end

