-- ==== Sys2Proof/Machine/Control.lean ====
section
/-! DEFINITION. The meanings of the operations of the control slot (07 R211-R215): each reaches the core's beat through one shared operation, where its own operands,
holds, faults and effect stand. -/

namespace Sys2Proof.Machine

/-- NOP (07 R212). -/
def execNop (c : CoreId) (more : Bool) (s : State) : Res :=
  s.slotCmd c.val more .nop

/-- ADD (07 R211, R212). -/
def execAdd (c : CoreId) (more : Bool) (rd rs1 rs2 : XReg) (s : State) : Res :=
  s.slotCmd c.val more (.alu .add rd rs1 rs2)

/-- SUB (07 R211, R212). -/
def execSub (c : CoreId) (more : Bool) (rd rs1 rs2 : XReg) (s : State) : Res :=
  s.slotCmd c.val more (.alu .sub rd rs1 rs2)

/-- AND (07 R211, R212). -/
def execAnd (c : CoreId) (more : Bool) (rd rs1 rs2 : XReg) (s : State) : Res :=
  s.slotCmd c.val more (.alu .and rd rs1 rs2)

/-- OR (07 R211, R212). -/
def execOr (c : CoreId) (more : Bool) (rd rs1 rs2 : XReg) (s : State) : Res :=
  s.slotCmd c.val more (.alu .or rd rs1 rs2)

/-- XOR (07 R211, R212). -/
def execXor (c : CoreId) (more : Bool) (rd rs1 rs2 : XReg) (s : State) : Res :=
  s.slotCmd c.val more (.alu .xor rd rs1 rs2)

/-- SLL (07 R211, R212). -/
def execSll (c : CoreId) (more : Bool) (rd rs1 rs2 : XReg) (s : State) : Res :=
  s.slotCmd c.val more (.alu .sll rd rs1 rs2)

/-- SRL (07 R211, R212). -/
def execSrl (c : CoreId) (more : Bool) (rd rs1 rs2 : XReg) (s : State) : Res :=
  s.slotCmd c.val more (.alu .srl rd rs1 rs2)

/-- SRA (07 R211, R212). -/
def execSra (c : CoreId) (more : Bool) (rd rs1 rs2 : XReg) (s : State) : Res :=
  s.slotCmd c.val more (.alu .sra rd rs1 rs2)

/-- SLT (07 R211, R212). -/
def execSlt (c : CoreId) (more : Bool) (rd rs1 rs2 : XReg) (s : State) : Res :=
  s.slotCmd c.val more (.alu .slt rd rs1 rs2)

/-- SLTU (07 R211, R212). -/
def execSltu (c : CoreId) (more : Bool) (rd rs1 rs2 : XReg) (s : State) : Res :=
  s.slotCmd c.val more (.alu .sltu rd rs1 rs2)

/-- MIN (07 R211, R212). -/
def execMin (c : CoreId) (more : Bool) (rd rs1 rs2 : XReg) (s : State) : Res :=
  s.slotCmd c.val more (.alu .min rd rs1 rs2)

/-- MAX (07 R211, R212). -/
def execMax (c : CoreId) (more : Bool) (rd rs1 rs2 : XReg) (s : State) : Res :=
  s.slotCmd c.val more (.alu .max rd rs1 rs2)

/-- MUL (07 R211, R212). -/
def execMul (c : CoreId) (more : Bool) (rd rs1 rs2 : XReg) (s : State) : Res :=
  s.slotCmd c.val more (.alu .mul rd rs1 rs2)

/-- ADDI (07 R211, R212). -/
def execAddi (c : CoreId) (more : Bool) (rd rs1 : XReg) (imm : BitVec 14) (s : State) : Res :=
  s.slotCmd c.val more (.alui .addi rd rs1 imm)

/-- ANDI (07 R211, R212). -/
def execAndi (c : CoreId) (more : Bool) (rd rs1 : XReg) (imm : BitVec 14) (s : State) : Res :=
  s.slotCmd c.val more (.alui .andi rd rs1 imm)

/-- ORI (07 R211, R212). -/
def execOri (c : CoreId) (more : Bool) (rd rs1 : XReg) (imm : BitVec 14) (s : State) : Res :=
  s.slotCmd c.val more (.alui .ori rd rs1 imm)

/-- XORI (07 R211, R212). -/
def execXori (c : CoreId) (more : Bool) (rd rs1 : XReg) (imm : BitVec 14) (s : State) : Res :=
  s.slotCmd c.val more (.alui .xori rd rs1 imm)

/-- SLLI (07 R211, R212). -/
def execSlli (c : CoreId) (more : Bool) (rd rs1 : XReg) (imm : BitVec 14) (s : State) : Res :=
  s.slotCmd c.val more (.alui .slli rd rs1 imm)

/-- SRLI (07 R211, R212). -/
def execSrli (c : CoreId) (more : Bool) (rd rs1 : XReg) (imm : BitVec 14) (s : State) : Res :=
  s.slotCmd c.val more (.alui .srli rd rs1 imm)

/-- SRAI (07 R211, R212). -/
def execSrai (c : CoreId) (more : Bool) (rd rs1 : XReg) (imm : BitVec 14) (s : State) : Res :=
  s.slotCmd c.val more (.alui .srai rd rs1 imm)

/-- SLTI (07 R211, R212). -/
def execSlti (c : CoreId) (more : Bool) (rd rs1 : XReg) (imm : BitVec 14) (s : State) : Res :=
  s.slotCmd c.val more (.alui .slti rd rs1 imm)

/-- LI (07 R211, R212). -/
def execLi (c : CoreId) (more : Bool) (rd : XReg) (imm : BitVec 19) (s : State) : Res :=
  s.slotCmd c.val more (.li rd imm)

/-- LIS (07 R211, R212). -/
def execLis (c : CoreId) (more : Bool) (rd : XReg) (k : Fin 4) (imm : BitVec 16) (s : State) : Res :=
  s.slotCmd c.val more (.lis rd k imm)

/-- BEQ (07 R212, R213). -/
def execBeq (c : CoreId) (more : Bool) (rs1 rs2 : XReg) (off : BitVec 14) (s : State) : Res :=
  s.slotCmd c.val more (.branch .eq rs1 rs2 off)

/-- BNE (07 R212, R213). -/
def execBne (c : CoreId) (more : Bool) (rs1 rs2 : XReg) (off : BitVec 14) (s : State) : Res :=
  s.slotCmd c.val more (.branch .ne rs1 rs2 off)

/-- BLT (07 R212, R213). -/
def execBlt (c : CoreId) (more : Bool) (rs1 rs2 : XReg) (off : BitVec 14) (s : State) : Res :=
  s.slotCmd c.val more (.branch .lt rs1 rs2 off)

/-- BGE (07 R212, R213). -/
def execBge (c : CoreId) (more : Bool) (rs1 rs2 : XReg) (off : BitVec 14) (s : State) : Res :=
  s.slotCmd c.val more (.branch .ge rs1 rs2 off)

/-- BLTU (07 R212, R213). -/
def execBltu (c : CoreId) (more : Bool) (rs1 rs2 : XReg) (off : BitVec 14) (s : State) : Res :=
  s.slotCmd c.val more (.branch .ltu rs1 rs2 off)

/-- BGEU (07 R212, R213). -/
def execBgeu (c : CoreId) (more : Bool) (rs1 rs2 : XReg) (off : BitVec 14) (s : State) : Res :=
  s.slotCmd c.val more (.branch .geu rs1 rs2 off)

/-- JAL (07 R212, R213). -/
def execJal (c : CoreId) (more : Bool) (rd : XReg) (off : BitVec 19) (s : State) : Res :=
  s.slotCmd c.val more (.jal rd off)

/-- JR (07 R212, R213, R215). -/
def execJr (c : CoreId) (more : Bool) (rd rs1 : XReg) (s : State) : Res :=
  s.slotCmd c.val more (.jr rd rs1)

/-- AMOV (07 R211, R212). -/
def execAmov (c : CoreId) (more : Bool) (ad : AReg) (rs1 : XReg) (s : State) : Res :=
  s.slotCmd c.val more (.amov ad rs1)

/-- AADDI (07 R211, R212). -/
def execAaddi (c : CoreId) (more : Bool) (ad asrc : AReg) (imm : BitVec 14) (s : State) : Res :=
  s.slotCmd c.val more (.aaddi ad asrc imm)

/-- XMOVA (07 R211, R212). -/
def execXmova (c : CoreId) (more : Bool) (rd : XReg) (asrc : AReg) (s : State) : Res :=
  s.slotCmd c.val more (.xmova rd asrc)

/-- GETSV (07 R207, R212). -/
def execGetsv (c : CoreId) (more : Bool) (rd : XReg) (idx : BitVec 14) (s : State) : Res :=
  s.slotCmd c.val more (.getsv rd idx)

/-- RAND (07 R212, R231; 06 R177, R178). -/
def execRand (c : CoreId) (more : Bool) (rd : XReg) (s : State) : Res :=
  s.slotCmd c.val more (.rand rd)

/-- END (07 R212, R214; 05 R150). -/
def execJobStop (c : CoreId) (more : Bool) (s : State) : Res :=
  s.slotCmd c.val more .stop

end Sys2Proof.Machine
end

