-- ==== Sys2Proof/Machine/Tambour.lean ====
section
/-! DEFINITION. The Tambour frame engines (14): frame graphs, bands of geometry, motion and packing, frame records and the signals of
edges. Each command of a band does the whole band. -/

namespace Sys2Proof.Machine

/-! ### Images -/

/-- An image that a node reads: format (14 R399, R400), size, pitch, package address and luma rows that it holds. -/
structure TImage where
  fmt   : Nat
  w     : Nat
  h     : Nat
  pitch : Nat
  base  : Nat
  rows  : Nat

/-- Bytes of a pixel; planar RGB and NV12 luma take one in each plane (14 R399, R400). -/
def pixBytes (fmt : Nat) : Nat := if fmt = 1 then 4 else if fmt = 2 then 3 else 1

/-- Planes of an output format. -/
def planes (fmt : Nat) : Nat := if fmt = 5 then 3 else 1

/-- Bytes from one row of a plane to the next in an output (14 R410). -/
def outPitch (fmt w : Nat) : Nat := roundUp (w * pixBytes fmt) 64

/-- Bytes of an output image; the planes of planar RGB follow one another (14 R410; log 41, DEDUCED). -/
def imageSize (fmt w h : Nat) : Nat := planes fmt * h * outPitch fmt w

/-- One sample of channel `c` at a pixel; outside the image, or in rows that were not delivered, the pad value (14 R398, R413). -/
def TImage.at (im : TImage) (mem : List Host.Cell) (pad c : Nat) (x y : Int) : Nat :=
  let chroma := im.fmt = 3 && c ≠ 0
  let w := if chroma then ceilDiv im.w 2 else im.w
  let h := if chroma then im.h / 2 else im.h
  let rows := if chroma then ceilDiv im.rows 2 else im.rows
  if x < 0 || y < 0 || x ≥ w || y ≥ h || y ≥ rows then (pad / 2 ^ (8 * c)) % 256
  else
    let x := x.toNat
    let y := y.toNat
    let off := if chroma then im.h * im.pitch + y * im.pitch + 2 * x + (c - 1)
      else if im.fmt = 5 then c * im.h * im.pitch + y * im.pitch + x
      else y * im.pitch + pixBytes im.fmt * x + c
    (readByte mem (im.base + off)).toNat

/-! ### Geometry (14 R398; log 42, DESIGN CHOICE for what the spec leaves open) -/

/-- A value as a rational number. -/
def FV.toRat : FV → Rat
  | .fin s m e => (if s then -1 else 1) * (m : Rat) * (if 0 ≤ e then ((2 ^ e.toNat : Nat) : Rat) else 1 / ((2 ^ (-e).toNat : Nat) : Rat))
  | _ => 0

/-- A rational number rounded to FP32. -/
def ratF32 (q : Rat) : Rat :=
  let n := q.num.natAbs * 2 ^ 100
  (f32.decode (f32.round (.fin (q.num < 0) (2 * (n / q.den) + b2n (n % q.den ≠ 0)) (-101)))).toRat

/-- A rational number rounded to the nearest integer, ties to even, within 0 to 255 (14 R398 step 4). -/
def ratByte (q : Rat) : Nat :=
  let f := q.floor
  let d := q - f
  let i := if d > 1 / 2 || (d = 1 / 2 && f % 2 ≠ 0) then f + 1 else f
  (max 0 (min 255 i)).toNat

/-- Source point of an output pixel, before the last 0.5 is taken off: the affine map, or scaling by the input-to-output ratio
(14 R398 step 1, R401). -/
def sourcePoint (nd : GNode) (im : TImage) (x y : Nat) : Rat × Rat :=
  let px : Rat := (x : Rat) + 1 / 2
  let py : Rat := (y : Rat) + 1 / 2
  let co (i : Nat) : Rat := (f32.decode (fieldAt nd.param (4 * i) 4)).toRat
  if bitAt nd.op 2 then (co 0 * px + co 1 * py + co 2, co 3 * px + co 4 * py + co 5)
  else (px * im.w / nd.outW, py * im.h / nd.outH)

/-- A bilinear sample of channel `c` in FP32 (14 R398 step 2). The chroma plane of NV12 is sampled at half the coordinates. -/
def bilinear (im : TImage) (mem : List Host.Cell) (pad c : Nat) (q : Rat × Rat) : Rat :=
  let h : Rat := if im.fmt = 3 && c ≠ 0 then 1 / 2 else 1
  let u := ratF32 (q.1 * h - 1 / 2)
  let v := ratF32 (q.2 * h - 1 / 2)
  let fx := u - u.floor
  let fy := v - v.floor
  let p (dx dy : Int) : Rat := im.at mem pad c (u.floor + dx) (v.floor + dy)
  ratF32 ((1 - fx) * (1 - fy) * p 0 0 + fx * (1 - fy) * p 1 0 + (1 - fx) * fy * p 0 1 + fx * fy * p 1 1)

/-- Luma weights of red and blue of a MATRIX value: BT.601, else BT.709 (14 R400). -/
def lumaWeights (m : Nat) : Rat × Rat := if m = 0 then (299 / 1000, 114 / 1000) else (2126 / 10000, 722 / 10000)

/-- Colour conversion from luma and chroma to RGB (14 R398 step 3, R400): limited range except for MATRIX 2. -/
def yuvToRgb (m : Nat) (y u v : Rat) : List Rat :=
  let (kr, kb) := lumaWeights m
  let kg := 1 - kr - kb
  let full := m = 2
  let y := if full then y else (y - 16) * 255 / 219
  let k : Rat := if full then 1 else 255 / 224
  let cb := (u - 128) * k
  let cr := (v - 128) * k
  [y + 2 * (1 - kr) * cr, y - 2 * (1 - kr) * kr / kg * cr - 2 * (1 - kb) * kb / kg * cb, y + 2 * (1 - kb) * cb]

/-- Luma of an RGB sample (14 R398 step 3, R400). -/
def rgbToY (m : Nat) (r g b : Rat) : Rat :=
  let (kr, kb) := lumaWeights m
  let y := kr * r + (1 - kr - kb) * g + kb * b
  if m = 2 then y else 16 + y * 219 / 255

/-- The channels of one output pixel of a geometry node (14 R398). -/
def geomPixel (mem : List Host.Cell) (pad : Nat) (nd : GNode) (im : TImage) (x y : Nat) : List Nat :=
  let q := sourcePoint nd im x y
  let sm (c : Nat) : Rat := bilinear im mem pad c q
  let m := bits nd.op 4 3
  let conv := bitAt nd.op 0
  let outs : List Rat :=
    if nd.outFmt = 4 then
      (if im.fmt = 3 || im.fmt = 4 || !conv then [sm 0] else [rgbToY m (sm 0) (sm 1) (sm 2)])
    else if im.fmt = 4 then [sm 0, sm 0, sm 0]
    else if im.fmt = 3 && conv then yuvToRgb m (sm 0) (sm 1) (sm 2)
    else [sm 0, sm 1, sm 2]
  outs.map ratByte

/-- The rows of an output image that one image row gives: one for each plane. -/
def geomRow (mem : List Host.Cell) (pad : Nat) (nd : GNode) (im : TImage) (y : Nat) : List (List Byte) :=
  let px := (List.range nd.outW).map (fun x => geomPixel mem pad nd im x y)
  if nd.outFmt = 5 then (List.range 3).map (fun c => px.map (fun l => BitVec.ofNat 8 (l.getD c 0)))
  else [(px.map (fun l => l.map (BitVec.ofNat 8))).flatten]

/-! ### Graphs -/

/-- Edge into node `i` that carries its image: from the graph input or a geometry node (14 R402, R403). -/
def imageEdge (gr : Graph) (i : Nat) : Option GEdge :=
  gr.edges.find? (fun e => e.dst = i && e.port = 0 && (e.src = 0xFE || (gr.nodes[e.src]?).elim false (fun n => n.kind = 1)))

/-- Edge into node `i` that carries motion records. -/
def motionEdge (gr : Graph) (i : Nat) : Option GEdge :=
  gr.edges.find? (fun e => e.dst = i && e.port = 0 && (gr.nodes[e.src]?).elim false (fun n => n.kind = 2))

/-- Format, width and height of node `i`'s input image; a motion node takes the Y plane of NV12 (14 R403). -/
def nodeIn (gr : Graph) (i : Nat) : Nat × Nat × Nat :=
  let motion := (gr.nodes[i]?).elim false (fun n => n.kind = 2)
  match imageEdge gr i with
  | some e =>
    if e.src = 0xFE then (if motion then 4 else gr.inFmt, gr.width, gr.height)
    else match gr.nodes[e.src]? with
      | some n => (n.outFmt, n.outW, n.outH)
      | none => (gr.inFmt, gr.width, gr.height)
  | none => (gr.inFmt, gr.width, gr.height)

/-- Rows of node `i`'s output or input that one band covers: 16, or the patch side (14 R407). -/
def bandRows (nd : GNode) : Nat := if nd.kind = 3 then nd.op else 16

/-- Bands of node `i` (14 R407). -/
def nodeBands (gr : Graph) (i : Nat) : Nat :=
  match gr.nodes[i]? with
  | none => 0
  | some nd => if nd.kind = 1 then ceilDiv nd.outH 16 else (nodeIn gr i).2.2 / bandRows nd

/-- Channels of a pack node's input (14 R412). -/
def packChannels (gr : Graph) (i : Nat) : Nat := if (nodeIn gr i).1 = 5 then 3 else 1

/-- Rows of one token (14 R412). -/
def tokenRows (gr : Graph) (i : Nat) (nd : GNode) : Nat := ceilDiv (nd.op * nd.op * packChannels gr i * 2) 512

/-- The pack node of a graph, and patches of a frame (14 R406, R412). -/
def packNode (gr : Graph) : Option (Nat × GNode) :=
  ((List.range gr.nodes.length).zip gr.nodes).find? (fun e => e.2.kind = 3)

/-- Patches in a frame (14 R406). -/
def framePatches (gr : Graph) : Nat :=
  match packNode gr with
  | some (i, nd) => let (_, w, h) := nodeIn gr i; (w / nd.op) * (h / nd.op)
  | none => 0

/-- Bytes that a mode-1 edge holds for one frame (14 R410, R415, R417). -/
def edgeBytes (gr : Graph) (e : GEdge) : Nat :=
  match gr.nodes[e.src]? with
  | none => 0
  | some nd =>
    if nd.kind = 1 then imageSize nd.outFmt nd.outW nd.outH
    else if nd.kind = 2 then (let (_, w, h) := nodeIn gr e.src; (w / 16) * (h / 16) * 8)
    else if e.port = 1 then framePatches gr * 4
    else framePatches gr * tokenRows gr e.src nd * 512

/-- Whether every band of every node of a frame is done, or the frame takes no more (14 R406). -/
def frameDone (gr : Graph) (f : GFrame) : Bool :=
  f.closed || (List.range gr.nodes.length).all (fun i => nodeBands gr i ≤ tget 0 f.bands i)

namespace State

/-- Graph g of a paddock's committed image (14 R399). -/
def graphOf (s : State) (p g : Nat) : Option Graph := match (s.pdk p).img with
  | some img => img.graphs.find? (fun x => x.graph = g)
  | none => none

/-- Package address of a paddock offset. -/
def tmbAddr (s : State) (p off : Nat) : Nat := (s.pkgAddr p off).toNat

/-- Package address of frame f's slot of an edge; an edge from the graph input has the input buffer as its slot (14 R402, R405,
R410). -/
def edgeSlot (s : State) (p : Nat) (gr : Graph) (e : GEdge) (f : Nat) : Nat :=
  if e.src = 0xFE then s.tmbAddr p (gr.inBase + (f % max 1 gr.inSlots) * gr.inSlot)
  else s.tmbAddr p (e.base + (f % max 1 e.slots) * e.slot)

/-- The image that node `i` reads for a frame. -/
def nodeImage (s : State) (p : Nat) (gr : Graph) (f : GFrame) (i : Nat) : Option TImage :=
  (imageEdge gr i).map (fun e =>
    let (fmt, w, h) := nodeIn gr i
    if e.src = 0xFE then
      { fmt := fmt, w := w, h := h, pitch := gr.inPitch, base := s.edgeSlot p gr e f.f, rows := min f.rows gr.height }
    else { fmt := fmt, w := w, h := h, pitch := outPitch fmt w, base := s.edgeSlot p gr e f.f, rows := h })

/-- A core that runs a job of the paddock at a logical bay and position (14 R410, R411; log 43, DESIGN CHOICE: the lowest bay that does). -/
def pdkCore (s : State) (p lbay pos : Nat) : Option Nat :=
  ((List.range 16).find? (fun b =>
    let x := s.bay b
    x.lbay = lbay && !x.stopped && match x.job with
      | some (q, k) => q = p && (match (s.ring p k).job with
          | some j => j.ph = .running && j.endWith.isNone
          | none => false)
      | none => false)).map (fun b => 16 * b + pos)

/-- Bytes written into a frame's slot of a mode-1 edge, those past the slot's end left out (log 41, DEDUCED). -/
def edgeWrite (s : State) (p : Nat) (gr : Graph) (e : GEdge) (f off : Nat) (d : List Byte) : State :=
  s.writeFrom (s.edgeSlot p gr e f + off) (d.take (e.slot - off))

/-- Whole rows pushed into the Hoop of a mode-2 edge, each counted if the edge names a counter (14 R411). -/
def edgePush (s : State) (p : Nat) (e : GEdge) (d : List Byte) : State :=
  match s.pdkCore p e.lbay e.pos with
  | none => s
  | some n =>
    (List.range (ceilDiv d.length 512)).foldl (fun s i => s.modCore n (fun c =>
      let c := c.hoopDeliver (e.sig % 16) (rowOf ((d.drop (512 * i)).take 512))
      if bitAt e.arrival 7 then c.arrive (e.arrival % 128) 1 else c)) s

/-- Output edges of node `i` on a port, the data of an edge placed by mode. -/
def emit (s : State) (p : Nat) (gr : Graph) (f i port off : Nat) (d : List Byte) : State :=
  (gr.edges.filter (fun e => e.src = i && e.port = port)).foldl (fun s e =>
    if e.mode = 2 then s.edgePush p e d else s.edgeWrite p gr e f off d) s

/-! ### Failure -/

/-- Bytes that the spec calls undefined (14 R419; log 9, DESIGN CHOICE). -/
def undefRange (s : State) (a n : Nat) : State :=
  ({ s with free := s.free + n } : State).writeFrom a ((List.range n).map (fun k => Config.undefByte (s.free + k)))

/-- A frame of a graph changed, by its place in the order of submission. -/
def modFrame (s : State) (p g order : Nat) (f : GFrame → GFrame) : State :=
  s.modGraph p g (fun x => { x with frames := x.frames.map (fun y => if y.order = order then f y else y) })

/-- A frame ends with a status: its outputs are undefined and the reference is invalid (14 R419). -/
def endFrame (s : State) (p g : Nat) (gr : Graph) (f : GFrame) (status : Nat) : State :=
  let s := (gr.edges.filter (fun e => e.src ≠ 0xFE && e.mode = 1)).foldl (fun s e =>
    s.undefRange (s.edgeSlot p gr e f.f) (min e.slot (edgeBytes gr e))) s
  (s.modFrame p g f.order (fun f => { f with closed := true, status := status })).modGraph p g (fun x => { x with refOk := false })

/-- A quarantined engine ends the frames that it has started (14 R419). -/
def tmbQuarantine (s : State) (e : Nat) : State :=
  s.tmb.graphs.foldl (fun s x =>
    let p := x.1 / 16
    let g := x.1 % 16
    match s.graphOf p g with
    | none => s
    | some gr => x.2.frames.foldl (fun s f =>
        if f.engines.contains e && !frameDone gr f then s.endFrame p g gr f Status.quarantined else s) s) s

/-- The extents of the rows `lo` to `hi` of an image, as far as they are read (14 R399, R413). -/
def imageExt (im : TImage) (lo hi : Nat) : List (Nat × Nat) :=
  let top := min (hi + 1) im.rows
  if top ≤ lo then []
  else if im.fmt = 5 then (List.range 3).map (fun c => (im.base + (c * im.h + lo) * im.pitch, (top - lo) * im.pitch))
  else if im.fmt = 3 then
    [(im.base + lo * im.pitch, (top - lo) * im.pitch),
     (im.base + (im.h + lo / 2) * im.pitch, (ceilDiv top 2 - lo / 2) * im.pitch)]
  else [(im.base + lo * im.pitch, (top - lo) * im.pitch)]

/-- Whether the rows of an image that a band reads touch a poisoned granule or a quarantined stack; the status that this gives the frame
(14 R419, 16 R460, R463). -/
def imageBad (s : State) (im : TImage) (lo hi : Nat) : Option Nat :=
  let ext := imageExt im lo hi
  if ext.any (fun e => s.quarTouch e.1 e.2) then some Status.quarantined
  else if ext.any (fun e => s.poisonTouch e.1 e.2) then some Status.rowRetired else none

/-- A band's reads of an image go to the memory controllers (14 R397, 10 R306). -/
def imageRead (s : State) (im : TImage) (lo hi : Nat) : State :=
  (imageExt im lo hi).foldl (fun s e => s.traffic false e.1 [] e.2) s

/-- Whether what a band writes into its package-memory edges touches a quarantined stack; `outs` holds port, offset and length (14 R419, 16
R463). -/
def edgeBad (s : State) (p : Nat) (gr : Graph) (f i : Nat) (outs : List (Nat × Nat × Nat)) : Option Nat :=
  if (gr.edges.filter (fun e => e.src = i && e.mode = 1)).any (fun e => outs.any (fun o =>
      o.1 = e.port && o.2.2 ≠ 0 && s.quarTouch (s.edgeSlot p gr e f + o.2.1) o.2.2)) then some Status.quarantined else none

/-! ### Bands -/

/-- First and last source row that a geometry band samples, from the corners of the band (14 R398, R407). -/
def geomRows (nd : GNode) (im : TImage) (b : Nat) : Nat × Nat :=
  let y0 := 16 * b
  let y1 := min (16 * b + 15) (nd.outH - 1)
  let vs := [(0, y0), (nd.outW - 1, y0), (0, y1), (nd.outW - 1, y1)].map (fun c => ((sourcePoint nd im c.1 c.2).2 - 1 / 2).floor)
  let lo := vs.foldl min (vs.headD 0)
  let hi := vs.foldl max (vs.headD 0) + 1
  (min lo.toNat (im.h - 1), min hi.toNat (im.h - 1))

/-- Whether a node's inputs for band `b` of a frame are written (14 R407). -/
def inputsReady (s : State) (p : Nat) (gr : Graph) (f : GFrame) (i : Nat) (nd : GNode) (b : Nat) : Bool :=
  (gr.edges.filter (fun e => e.dst = i && e.port = 0)).all (fun e =>
    if e.src = 0xFE then true
    else
      let doneBands := tget 0 f.bands e.src
      nodeBands gr e.src ≤ doneBands ||
      match nd.kind, s.nodeImage p gr f i with
      | 1, some im => (geomRows nd im b).2 < 16 * doneBands
      | _, _ => bandRows nd * (b + 1) ≤ 16 * doneBands)

/-- Whether patch `k` of a frame is to be emitted: without SKIP every one, with SKIP one whose block is CHANGED (14 R416). -/
def patchEmits (s : State) (p : Nat) (gr : Graph) (f : GFrame) (i k : Nat) : Bool :=
  !gr.skip || match motionEdge gr i with
    | some e => bitAt (readByte s.mem (s.edgeSlot p gr e f.f + 8 * k + 2)).toNat 0
    | none => true

/-- Patches of patch row `b` that are emitted, in raster order (14 R412, R416). -/
def bandPatches (s : State) (p : Nat) (gr : Graph) (f : GFrame) (i : Nat) (nd : GNode) (b : Nat) : List Nat :=
  let n := (nodeIn gr i).2.1 / nd.op
  ((List.range n).map (· + b * n)).filter (s.patchEmits p gr f i)

/-- Rows that a band pushes into the Hoop of a mode-2 edge (14 R411; log 41, DEDUCED). -/
def pushRows (s : State) (p : Nat) (gr : Graph) (f : GFrame) (i : Nat) (nd : GNode) (b : Nat) : Nat :=
  if nd.kind = 1 then (min (16 * b + 16) nd.outH - 16 * b) * planes nd.outFmt * ceilDiv (nd.outW * pixBytes nd.outFmt) 512
  else if nd.kind = 2 then ceilDiv ((nodeIn gr i).2.1 / 16 * 8) 512
  else (s.bandPatches p gr f i nd b).length * tokenRows gr i nd

/-- Rows that a band pushes into Hoop h of core n, by all the edges that lead there (09 R278, 14 R411). -/
def hoopLoad (s : State) (p : Nat) (gr : Graph) (f : GFrame) (i : Nat) (nd : GNode) (b n h : Nat) : Nat :=
  ((gr.edges.filter (fun e => e.src = i && e.mode = 2 && e.sig % 16 = h && s.pdkCore p e.lbay e.pos = some n)).length)
    * s.pushRows p gr f i nd b

/-- Whether every output edge can take band `b` of a frame: a slot between nodes only after its consumer has finished the earlier frames
that used it, a Hoop only with room for all the rows that the band brings it (09 R278; 14 R407, R408, R411). -/
def outputsReady (s : State) (p : Nat) (gr : Graph) (earlier : List GFrame) (f : GFrame) (i : Nat) (nd : GNode) (b : Nat) : Bool :=
  (gr.edges.filter (fun e => e.src = i)).all (fun e =>
    if e.mode = 2 then
      match s.pdkCore p e.lbay e.pos with
      | some n => (s.core n).hoopRoom (e.sig % 16) (s.hoopLoad p gr f i nd b n (e.sig % 16))
      | none => false
    else if e.dst = 0xFD then true
    else earlier.all (fun h => h.closed || h.f % max 1 e.slots ≠ f.f % max 1 e.slots || nodeBands gr e.dst ≤ tget 0 h.bands e.dst))

/-- Whether an engine may take the next band of node `i` of a frame (14 R400, R407, R408). -/
def bandReady (s : State) (e p : Nat) (gr : Graph) (earlier : List GFrame) (f : GFrame) (i : Nat) (nd : GNode) : Bool :=
  let b := tget 0 f.bands i
  !f.closed && b < nodeBands gr i && (nd.engine = e || (nd.engine = 0xFF && e < 2))
    && earlier.all (fun h => h.closed || nodeBands gr i ≤ tget 0 h.bands i)
    && s.inputsReady p gr f i nd b && s.outputsReady p gr earlier f i nd b

/-- The frames of a list, each with those before it. -/
def withEarlier : List GFrame → List GFrame → List (List GFrame × GFrame)
  | _, [] => []
  | pre, f :: t => (pre, f) :: withEarlier (pre ++ [f]) t

/-- The bands that an engine may take: submission, paddock, graph, node (14 R407). -/
def eligibleBands (s : State) (e : Nat) : List (Nat × Nat × Nat × Nat) :=
  (s.tmb.graphs.map (fun x =>
    let p := x.1 / 16
    let g := x.1 % 16
    match s.graphOf p g with
    | none => []
    | some gr => ((withEarlier [] x.2.frames).map (fun hf =>
        (((List.range gr.nodes.length).zip gr.nodes).filter (fun n => s.bandReady e p gr hf.1 hf.2 n.1 n.2)).map
          (fun n => (hf.2.order, p, g, n.1)))).flatten)).flatten

/-- The band that comes first: the oldest submission, and of its nodes the lowest (14 R407; log 44, DESIGN CHOICE). -/
def firstBand (l : List (Nat × Nat × Nat × Nat)) : Option (Nat × Nat × Nat × Nat) :=
  match l with
  | [] => none
  | a :: t => some (t.foldl (fun m x => if x.1 < m.1 || (x.1 = m.1 && x.2.2.2 < m.2.2.2) then x else m) a)

/-- A geometry band (14 R398, R407, R410, R411). -/
def geomBand (s : State) (p g : Nat) (gr : Graph) (f : GFrame) (i : Nat) (nd : GNode) (b : Nat) : State :=
  match s.nodeImage p gr f i with
  | none => s
  | some im =>
    let r := geomRows nd im b
    let rows := min (16 * b + 16) nd.outH - 16 * b
    let pitch := outPitch nd.outFmt nd.outW
    let outs := (List.range (planes nd.outFmt)).map (fun c => (0, (c * nd.outH + 16 * b) * pitch, rows * pitch))
    match (s.imageBad im r.1 r.2).or (s.edgeBad p gr f.f i outs) with
    | some st => s.endFrame p g gr f st
    | none =>
      let s := s.imageRead im r.1 r.2
      ((List.range (min (16 * b + 16) nd.outH - 16 * b)).map (· + 16 * b)).foldl (fun s' y =>
        let rows := geomRow s.mem gr.padval nd im y
        ((List.range rows.length).zip rows).foldl (fun s' cr =>
          s'.emit p gr f.f i 0 ((cr.1 * nd.outH + y) * outPitch nd.outFmt nd.outW) cr.2) s') s

/-- Sum of absolute differences of the block at (x, y) and the reference block displaced by (dx, dy) (14 R414). -/
def sad (im : TImage) (mem : List Host.Cell) (pad ref x y : Nat) (dx dy : Int) : Nat :=
  (List.range 256).foldl (fun t k =>
    let px := x + k % 16
    let py := y + k / 16
    let rx := ((px : Int) + dx).toNat
    let ry := ((py : Int) + dy).toNat
    t + ((im.at mem pad 0 px py : Int) - ((readByte mem (ref + ry * im.w + rx)).toNat : Int)).natAbs) 0

/-- The best displacement of a block within ±R, whose block lies inside the reference image (14 R414; log 45, DEDUCED): smallest SAD, then smallest
|dx| + |dy|, then dy, then dx. -/
def bestMove (im : TImage) (mem : List Host.Cell) (pad ref x y r : Nat) : Nat × Int × Int :=
  let ds : List Int := (List.range (2 * r + 1)).map (fun (k : Nat) => (k : Int) - (r : Int))
  let cands := (ds.map (fun dy => ds.map (fun dx => (dx, dy)))).flatten.filter (fun d =>
    0 ≤ (x : Int) + d.1 && (x : Int) + d.1 + 16 ≤ im.w && 0 ≤ (y : Int) + d.2 && (y : Int) + d.2 + 16 ≤ im.h)
  let key (d : Int × Int) : Nat × Int × Int := (sad im mem pad ref x y d.1 d.2, d)
  let less (a b : Nat × Int × Int) : Bool :=
    let la := a.2.1.natAbs + a.2.2.natAbs
    let lb := b.2.1.natAbs + b.2.2.natAbs
    a.1 < b.1 || (a.1 = b.1 && (la < lb || (la = lb && (a.2.2 < b.2.2 || (a.2.2 = b.2.2 && a.2.1 < b.2.1)))))
  cands.foldl (fun m d => let k := key d; if less k m then k else m) (key (0, 0))

/-- One motion block: compared, copied into the reference if it is changed, and its record (14 R414, R415). -/
def motionBlock (im : TImage) (pad ref thresh range : Nat) (all : Bool) (x y : Nat) (s : State) : State × List Byte :=
  let s0 := sad im s.mem pad ref x y 0 0
  let changed := all || s0 > thresh
  let (best, dx, dy) := if range = 0 then (s0, 0, 0) else bestMove im s.mem pad ref x y range
  let rec_ := leBytes 1 (unsignedOf 8 dx) ++ leBytes 1 (unsignedOf 8 dy) ++ leBytes 1 (b2n changed) ++ leBytes 1 0
    ++ leBytes 2 (min s0 65535) ++ leBytes 2 (min best 65535)
  if changed then
    ((List.range 16).foldl (fun t j => t.writeFrom (ref + (y + j) * im.w + x)
      ((List.range 16).map (fun k => BitVec.ofNat 8 (im.at s.mem pad 0 ((x + k : Nat) : Int) ((y + j : Nat) : Int))))) s, rec_)
  else (s, rec_)

/-- Whether a frame that its motion node starts is a key frame (14 R414 and its decided case: the frame after an invalid reference). -/
def keyFrame (x : GraphSt) (keyint : Nat) : Bool := x.processed = 0 || !x.refOk || (keyint ≠ 0 && keyint ≤ x.sinceKey)

/-- A motion band: one row of blocks (14 R414, R415). -/
def motionBand (s : State) (p g : Nat) (gr : Graph) (f : GFrame) (i : Nat) (nd : GNode) (b : Nat) : State :=
  match s.nodeImage p gr f i with
  | none => s
  | some im =>
    let x := s.graph p g
    let key := if b = 0 then keyFrame x (fieldAt nd.param 6 2) else f.key
    let ref := s.tmbAddr p (fieldAt nd.param 8 8)
    let refIm : TImage := { im with fmt := 4, pitch := im.w, base := ref, rows := im.h }
    let reach := fieldAt nd.param 4 1
    let bad := [s.imageBad im (16 * b) (16 * b + 15), s.imageBad refIm (16 * b - reach) (16 * b + 15 + reach),
                s.edgeBad p gr f.f i [(0, b * (im.w / 16) * 8, im.w / 16 * 8)]].findSome? id
    match bad with
    | some st => s.endFrame p g gr f st
    | none =>
      let s := (s.imageRead im (16 * b) (16 * b + 15)).imageRead refIm (16 * b - reach) (16 * b + 15 + reach)
      let s := s.modFrame p g f.order (fun f => { f with key := key })
      let n := im.w / 16
      let (s, recs) := (List.range n).foldl (fun (t : State × List Byte) bx =>
        let r := motionBlock im gr.padval ref (fieldAt nd.param 0 4) (fieldAt nd.param 4 1) (key || !x.refOk) (16 * bx) (16 * b) t.1
        (r.1, t.2 ++ r.2)) (s, [])
      let s := s.emit p gr f.f i 0 (b * n * 8) recs
      let s := if b = 0 then s.modGraph p g (fun x => { x with sinceKey := if key then 0 else x.sinceKey + 1 }) else s
      if b + 1 = nodeBands gr i && key then s.modGraph p g (fun x => { x with refOk := true }) else s

/-- A token of the patch at (px, py): BF16 elements, rows filled up with zeros (14 R412). -/
def token (im : TImage) (mem : List Host.Cell) (pad side chans : Nat) (param : List Byte) (px py : Nat) : List Byte :=
  let el (c v : Nat) : Nat :=
    bf16.round (((FV.ofInt v).mul (f32.decode (fieldAt param (4 * c) 4))).add (f32.decode (fieldAt param (12 + 4 * c) 4)))
  let es := (List.range (side * side * chans)).map (fun k =>
    let c := k % chans
    let x := (k / chans) % side
    let y := k / chans / side
    leBytes 2 (el c (im.at mem pad c ((px + x : Nat) : Int) ((py + y : Nat) : Int))))
  let d := es.flatten
  d ++ List.replicate (roundUp d.length 512 - d.length) 0

/-- A pack band: one row of patches, with tokens, positions and map records (14 R412, R416, R417). -/
def packBand (s : State) (p g : Nat) (gr : Graph) (f : GFrame) (i : Nat) (nd : GNode) (b : Nat) : State :=
  match s.nodeImage p gr f i with
  | none => s
  | some im =>
    let n := im.w / nd.op
    let emits := s.bandPatches p gr f i nd b
    let size := tokenRows gr i nd * 512
    let outs := [(0, f.emitted * size, emits.length * size), (1, 4 * b * n, 4 * n)]
    match (s.imageBad im (nd.op * b) (nd.op * b + nd.op - 1)).or (s.edgeBad p gr f.f i outs) with
    | some st => s.endFrame p g gr f st
    | none =>
      let s := s.imageRead im (nd.op * b) (nd.op * b + nd.op - 1)
      let x := s.graph p g
      let s := s.modFrame p g f.order (fun f => { f with first := some (f.first.getD x.pos) })
      ((List.range n).map (· + b * n)).foldl (fun s k =>
        let x := s.graph p g
        let em := ((x.frames.find? (fun y => y.order = f.order)).map (·.emitted)).getD 0
        if emits.contains k then
          let d := token im s.mem gr.padval nd.op (packChannels gr i) nd.param (k % n * nd.op) (b * nd.op)
          let s := s.emit p gr f.f i 0 (em * tokenRows gr i nd * 512) d
          let s := s.emit p gr f.f i 1 (4 * k) (leBytes 4 (x.pos % 2 ^ 31))
          (s.modFrame p g f.order (fun f => { f with emitted := f.emitted + 1 })).modGraph p g
            (fun x => { x with pos := x.pos + 1, patchPos := tset x.patchPos k x.pos })
        else s.emit p gr f.f i 1 (4 * k) (leBytes 4 (tget 0 x.patchPos k % 2 ^ 31 + 2 ^ 31))) s

/-- A Tambour engine takes its next band and processes it (14 R407-R412, R419). -/
def bandTake (s : State) (e : Nat) : State :=
  if (s.engine e).unit_ ≠ .online then s
  else
    match firstBand (s.eligibleBands e) with
    | none => s
    | some (order, p, g, i) =>
      match s.graphOf p g, (s.graph p g).frames.find? (fun f => f.order = order) with
      | some gr, some f =>
        match gr.nodes[i]? with
        | none => s
        | some nd =>
          let b := tget 0 f.bands i
          let fresh := f.bands.isEmpty
          let s : State := { s with tmb := { s.tmb with engines := tmod {} s.tmb.engines e (fun x => { x with lastPdk := some p }) } }
          let s := s.modFrame p g order (fun f => { f with
            bands := tset f.bands i (b + 1), endTs := some s.dev.tsc.toNat,
            engines := if f.engines.contains e then f.engines else f.engines ++ [e] })
          let s := if fresh && !(gr.nodes.any (fun n => n.kind = 2)) then
              s.modFrame p g order (fun f => { f with key := (s.graph p g).processed = 0 }) else s
          let s := if nd.kind = 1 then s.geomBand p g gr f i nd b
            else if nd.kind = 2 then s.motionBand p g gr f i nd b else s.packBand p g gr f i nd b
          if fresh then s.modGraph p g (fun x => { x with processed := x.processed + 1 }) else s
      | _, _ => s

/-! ### Arming, submitting, recording -/

/-- A write of TMB_FG_CTRL with EN = 1 (14 R404): a 1 in REFUSED clears it before the write is applied or refused (00 R8). -/
def graphArm (s : State) (p g v : Nat) : State :=
  let s := s.modGraph p g (fun x => { x with refused := x.refused && !bitAt v 32 })
  let x := s.graph p g
  let st := (s.pdk p).st
  if x.en || !(st = .runnable || st = .running || st = .suspended) || (s.graphOf p g).isNone then
    s.modGraph p g (fun x => { x with refused := true })
  else s.modGraph p g (fun x => { x with
    en := true, posBase := bits v 31 8, done := 0, next := 0, pos := bits v 31 8, refOk := false, processed := 0,
    sinceKey := 0, patchPos := [] })

/-- EN cleared: frames that no engine has started are dropped (14 R404). -/
def graphDisarm (s : State) (p g : Nat) : State :=
  if (s.graph p g).en then
    s.modGraph p g (fun x => { x with en := false, frames := x.frames.filter (fun f => !f.engines.isEmpty) })
  else s

/-- A submission (14 R405, R406, R413). -/
def frameSubmit (s : State) (p g rows : Nat) : State :=
  let x := s.graph p g
  match s.graphOf p g with
  | none => s
  | some gr =>
    if !x.en then s
    else if gr.inSlots ≤ x.frames.length then s.modGraph p g (fun x => { x with overrun := true })
    else
      let odd := rows ≠ gr.height
      let f : GFrame := { f := x.next, rows := rows, order := s.tmb.order,
                          status := if rows = 0 then Status.okZero else if rows < gr.height then Status.frameShort
                            else if rows > gr.height then Status.frameLong else Status.ok,
                          closed := rows = 0 || (odd && gr.strict), dropped := rows ≠ 0 && odd && gr.strict }
      (({ s with tmb := { s.tmb with order := s.tmb.order + 1 } } : State)).modGraph p g (fun x =>
        { x with next := (x.next + 1) % 2 ^ 32, frames := x.frames ++ [f] })

/-- An edge signal: added to the counter of the core that runs the job, or kept (14 R410). -/
def edgeSignal (s : State) (p : Nat) (e : GEdge) : State :=
  let ctr := e.sig % 64 + 64 * b2n (bitAt e.sig 6)
  match s.pdkCore p e.lbay e.pos with
  | some n => s.modCore n (·.semLand ctr 1)
  | none =>
    let same (k : Kept) : Bool := k.pdk = p && k.lbay = e.lbay && k.pos = e.pos && k.ctr = ctr
    let l := s.tmb.signals
    let l := if l.any same then l.map (fun k => if same k then { k with cnt := k.cnt + 1 } else k)
      else l ++ [{ pdk := p, ring := none, lbay := e.lbay, pos := e.pos, ctr := ctr, cnt := 1 }]
    { s with tmb := { s.tmb with signals := l } }

/-- The 32 bytes of a frame record (14 R406). -/
def recordBytes (gr : Graph) (f : GFrame) (first endTs : Nat) : List Byte :=
  let mapIx := match gr.edges.find? (fun e => e.port = 1) with
    | some e => f.f % max 1 e.slots * (e.slot / 4)
    | none => 0
  leBytes 1 f.status ++ leBytes 1 (b2n f.dropped + 2 * b2n f.key) ++ leBytes 2 f.rows ++ leBytes 4 f.f ++ leBytes 4 first
    ++ leBytes 4 f.emitted ++ leBytes 4 (framePatches gr) ++ leBytes 4 mapIx ++ leBytes 8 endTs

/-- The oldest frame's record, when all its outputs are written: then its vector fires and its core edges signal; a frame of no rows has
nothing but the record (14 R406, R410; logs 9, 46). -/
def frameRecord (s : State) (p g : Nat) : State :=
  match s.graphOf p g, (s.graph p g).frames with
  | some gr, f :: t =>
    if !frameDone gr f || (s.pdk p).st = .teardown then s
    else
      let (ts, s) := match f.endTs with
        | some e => (e, s)
        | none => let r := s.openVal; (r.1.toNat, r.2)
      let s := s.writeFrom (s.tmbAddr p (gr.recBase + 32 * (f.f % max 1 gr.inSlots)))
        (recordBytes gr f (f.first.getD (s.graph p g).pos) ts)
      let s := s.modGraph p g (fun x => { x with frames := t, done := (x.done + 1) % 2 ^ 32 })
      if f.rows = 0 then s
      else
        let s := if gr.vector = 0 then s else s.msix (p + 1) gr.vector
        (gr.edges.filter (fun e => e.mode = 1 && e.dst = 0xFD && bitAt e.sig 7)).foldl (fun s e => s.edgeSignal p e) s
  | _, _ => s

/-- The signals kept for a core whose job holds its logical bay now (14 R410). -/
def deliverSignals (s : State) (n : Nat) : State :=
  match (s.bay (n / 16)).job with
  | none => s
  | some (p, _) =>
    let mine (k : Kept) : Bool := k.pdk = p && s.pdkCore p k.lbay k.pos = some n
    let s' : State := { s with tmb := { s.tmb with signals := s.tmb.signals.filter (fun k => !mine k) } }
    (s.tmb.signals.filter mine).foldl (fun s k => s.modCore n (·.semLand k.ctr k.cnt)) s'

/-- Teardown's fence of a paddock's graphs: no further band and no further record (14 R419). -/
def tmbFence (s : State) (p : Nat) : State :=
  { s with tmb := { s.tmb with
      graphs := s.tmb.graphs.map (fun x => if x.1 / 16 = p then (x.1, { x.2 with en := false, frames := [] }) else x)
      signals := s.tmb.signals.filter (fun k => k.pdk ≠ p) } }

end State

/-- GRAPH_ARM (14 R404). -/
def execGraphArm (p : PdkId) (g : Fin 16) (val : Word) (ide : Option Nat) (s : State) : Res :=
  .next (s.vfWrite p.val (0x800 + g.val * 0x20) ide (fun s => s.graphArm p.val g.val val.toNat))

/-- GRAPH_DISARM (14 R404). -/
def execGraphDisarm (p : PdkId) (g : Fin 16) (ide : Option Nat) (s : State) : Res :=
  .next (s.vfWrite p.val (0x800 + g.val * 0x20) ide (fun s => s.graphDisarm p.val g.val))

/-- FRAME_SUBMIT (14 R405, R413). -/
def execFrameSubmit (p : PdkId) (g : Fin 16) (val : Word) (ide : Option Nat) (s : State) : Res :=
  .next (s.vfWrite p.val (0x808 + g.val * 0x20) ide (fun s => s.frameSubmit p.val g.val (bits val.toNat 13 0)))

/-- BAND_TAKE (14 R407-R419). -/
def execBandTake (e : EngineId) (s : State) : Res := .next (s.bandTake e.val)

/-- FRAME_RECORD (14 R406, R410). -/
def execFrameRecord (p : PdkId) (g : Fin 16) (s : State) : Res := .next (s.frameRecord p.val g.val)

/-- DEFERRED_SIGNAL_DELIVERY (14 R410). -/
def execDeferredSignalDelivery (c : CoreId) (s : State) : Res := .next (s.deliverSignals c.val)

end Sys2Proof.Machine
end

