-- ==== Sys2Proof/Machine/Health.lean ====
section
/-! DEFINITION. Health of the units: quarantine (16 R462-R464), the scratchpad's ECC, patrol and repair (09 R283-R291), the memory
controllers and their patrol (01 R28-R31, 10 R305-R308, 16 R459-R461). -/

namespace Sys2Proof.Machine

namespace State

/-! ### Quarantine -/

/-- A bay leaves scheduling as DRAINING: its job stops, unless a fault has ended it already (05 R163, 16 R463). -/
def bayOut (s : State) (b : Nat) : State :=
  let s := s.setUnitBoth (.bay (Fin.ofNat 16 b)) .draining
  if (s.jobOn b).elim false (fun j => j.endWith.isSome) then s.modBay b (fun x => { x with stopping := some .quarantine })
  else s.stopBay b .quarantine

/-- A unit forced to QUARANTINED, with its cause: 1 fault, 2 disagreement, 3 command, 4 self-test failure (16 R454, R463). A bay leaves
scheduling as DRAINING; its job stops, is saved and the bay scrubbed by BAY_SWITCH, and it reads QUARANTINED from then on. A core takes
its bay with it: bays are scheduled whole (log 66, DESIGN CHOICE). -/
def quarantine (s : State) (u : UnitId) (cause : Nat) : State :=
  if s.unitSt u = .quarantined then s
  else
    let (k, i) := unitKind u
    let s := s.logRec k i Status.quarantined 2 0x0030 0 [cause]
    match u with
    | .bay b => s.bayOut b.val
    | .core c =>
      let s := s.setUnitBoth u .quarantined
      if s.unitSt (.bay (Fin.ofNat 16 (c.val / 16))) = .online then s.bayOut (c.val / 16) else s
    | .engine e => (s.setUnitBoth u .quarantined).tmbQuarantine e.val
    | _ => s.setUnitBoth u .quarantined

/-! ### Scratchpad -/

/-- A check of a row that corrected `words` code words: each counts, and the row is marked at its third such check (09 R284, R286). -/
def spadCorrected (s : State) (n r words : Nat) : State :=
  s.modCore n (fun c =>
    let k := tget 0 c.corrected r + 1
    { c with ce := min (c.ce + words) 65535, corrected := tset c.corrected r k
             marked := if 3 ≤ k && !c.marked.contains r then c.marked ++ [r] else c.marked })

/-- An uncorrectable error faults its core, against the reading, macro or STRMGO bundle, else the core's next (07 R235, 09 R287). -/
def ueFault (s : State) (n status : Nat) : UeFinder → State
  | .program b | .sequencer b | .stream b => s.coreFault n status b
  | _ => s.nextFault n status

/-- An uncorrectable error: the row is retired to a zeroed spare of its bank, and who found it decides what follows; without a spare
the bay is quarantined (09 R287-R290). -/
def spadUncorrectable (s : State) (n r : Nat) (f : UeFinder) : State :=
  let b := n / 16
  let s := s.modCore n (fun c => { c with ue := min (c.ue + 1) 255 })
  let v := s.spare n (r % 8)
  let faults (s : State) (e : Nat) : State := if (s.bay b).job.isSome then s.ueFault n e f else s
  match f with
  | .patrolSpare j =>
    if (s.spareRows n (r % 8)).contains j.val then
      (s.retireRow n (4096 + 8 * (r % 8) + j.val)).logRec 2 n Status.rowRetired 2 0x0010 0 [r % 8, 4096 + 8 * (r % 8) + j.val]
    else s
  | _ =>
    if v = 0 then (faults s Status.quarantined).quarantine (.bay (Fin.ofNat 16 b)) 1
    else
      let s := (s.retireRow n r).modCore n (fun c => c.setRow r 0)
      let p := match (s.bay b).holder with
        | some p => p + 1
        | none => 0
      let s := s.logRec 2 n Status.rowRetired 2 0x0010 p [r % 8, r]
      let s := if v = 1 then s.logRec 2 n Status.rowRetired 2 0x0011 p [r % 8] else s
      let lose (s : State) : State := s.modBay b (fun x => { x with lossMark := true })
      match f with
      | .save => lose s
      | .patrol => if (s.bay b).job.isNone && (s.bay b).holder.isSome then lose s else faults s Status.rowRetired
      | _ => faults s Status.rowRetired

/-- The row that a bank's patrol checks next: 0 to 511 a visible row, 512 + j unused spare j. Spares that have gone out of use are passed over,
and after the last one the bank starts again (09 R285). -/
def patrolRow (s : State) (n k : Nat) : Nat :=
  let i := tget 0 (s.core n).patrol k
  if i < 512 then i
  else match (s.spareRows n k).find? (fun j => i - 512 ≤ j) with
    | some j => 512 + j
    | none => 0

/-- One check of the patrol: the next row of a bank, visible rows first, then its unused spares (09 R285). -/
def spadPatrol (s : State) (n k : Nat) (e : EccResult) : State :=
  if !s.dev.computeRails || !(s.bay (n / 16)).powered then s
  else
    let i := s.patrolRow n k
    let s := s.modCore n (fun c => { c with patrol := tset c.patrol k (i + 1) })
    match e with
    | .clean => s
    | .corrected w =>
      if i < 512 then
        (s.spadCorrected n (8 * i + k) w).modCore n (fun c =>
          { c with dirty := if c.dirty.contains (8 * i + k) then c.dirty else c.dirty ++ [8 * i + k] })
      else s.spadCorrected n (4096 + 8 * k + (i - 512)) w
    | .uncorrectable => if i < 512 then s.spadUncorrectable n (8 * i + k) .patrol
                        else s.spadUncorrectable n k (.patrolSpare (Fin.ofNat 8 (i - 512)))

/-- A corrected row is written back: one that the patrol found, unless a write has come since; or one that a read of another agent found
with so many corrected code words, which count (09 R284; log 40, DESIGN CHOICE). -/
def eccWriteback (s : State) (n r : Nat) (found : Option Nat) : State :=
  match found with
  | some w => s.spadCorrected n r w
  | none => s.modCore n (fun c => { c with dirty := c.dirty.filter (· != r) })

/-! ### Memory controllers -/

/-- Whether a requester may reach frames of an owner ID (06 R192). A core acts for the paddock of its job; zeroing for a teardown reaches the
paddock's frames and its save slots. -/
def mayReach (s : State) (o : Nat) : Requester → Bool
  | .core c _ => (s.bay (c.val / 16)).job.elim false (fun e => o = e.1 + 1)
  | .tambour p => o = p.val + 1
  | .host p => o = p.val + 1
  | .loader p => o = p.val + 1
  | .fabric p => o = p.val + 1
  | .yard => o = 0x80
  | .save => o = 0x81
  | .zero p => o = p.val + 1 || o = 0x81

/-- The paddock whose locked frames a requester's writes must leave alone (04 R113). -/
def writerOf (s : State) : Requester → Option Nat
  | .core c _ => (s.bay (c.val / 16)).job.map (·.1)
  | .tambour p => some p.val
  | .host p => some p.val
  | .fabric p => some p.val
  | _ => none

/-- A request in its controller's terms: the class and dry time of the stream that sends it, and its place in the order (10 R304-R308). -/
def memWaiting (s : State) (rq : MemReq) : Waiting :=
  let w : Waiting := { Waiting.plain with tag := rq.tag, write := rq.write, addr := rq.addr, len := rq.len }
  match rq.by_ with
  | .core c st =>
    let n := c.val
    let w : Waiting := { w with bay := n / 16, core := n }
    if st.val < 16 then
      (if ((s.core n).strm st.val).deadline then { w with cls := .deadline, dry := s.dev.tsc.toNat + s.runway n st.val } else w)
    else match (s.core n).mac with
      | some ⟨_, .matrix f⟩ => { w with cls := .deadline, dry := s.dev.tsc.toNat + seqRunway f f.pos }
      | _ => w
  | .save => { w with cls := .save }
  | _ => w

/-- A request reaches package memory: refused as a whole, or accepted piece by piece (01 R27-R31, 04 R113, 06 R192, 16 R463). -/
def pkgAccess (s : State) (rq : MemReq) : State :=
  if !s.dev.memRails then s
  else if rq.len = 0 then s.send (.memDone rq.tag Status.okZero [])
  else
    let lock := if rq.write then (s.writerOf rq.by_).bind (fun p => s.lockFault p rq.addr rq.len) else none
    match s.checkOwners (fun o => s.mayReach o rq.by_) rq.addr rq.len, lock with
    | some e, _ => s.send (.memDone rq.tag e [])
    | none, some e => s.send (.memDone rq.tag e [])
    | none, none =>
      let w := s.memWaiting rq
      (piecesOf rq.addr rq.len).foldl (fun s e =>
        s.acceptPiece { w with addr := e.1, len := e.2 } ((rq.data.drop (e.1 - rq.addr)).take e.2)) s

/-- A fetch whose slots have all been granted completes: every merged request is answered, or sees ROW_RETIRED (01 R30; 16 R460). -/
def fetchComplete (s : State) (st tag : Nat) (e : EccResult) (row : Nat) : State :=
  match (s.mc st).fetches.find? (fun f => f.tags.contains tag) with
  | none => s
  | some f =>
    if (s.mc st).queue.any (fun w => !w.write && f.tags.contains w.tag) then s
    else
      let s := s.modMc st (fun m => { m with fetches := m.fetches.filter (fun g => g ≠ f) })
      let s := if e = .uncorrectable then s.poisonGranule (f.addr / 4096) row else s
      s.answerFetch f (e = .uncorrectable || f.status ≠ Status.ok)

/-- A write whose last row slot has ended completes (01 R31). -/
def writeComplete (s : State) (st tag : Nat) : State :=
  match (s.mc st).writing.find? (fun r => r.tag = tag) with
  | none => s
  | some r =>
    let s := s.modMc st (fun m => { m with writing := m.writing.erase r })
    if ownTags ≤ tag then s.answerOwn tag 0 [] false else s.send (.memDone tag Status.ok [])

/-- Granules of a stack (01 R26, R27). -/
def stackGranules : Nat := 4194304

/-- The patrol reads a stack's next granule (16 R459, R460): a row with corrected errors on three passes, however many granules of one pass
showed them, is queued for repair; an uncorrectable error poisons the granule. -/
def memPatrol (s : State) (st : Nat) (e : EccResult) (row : Nat) : State :=
  if !s.dev.memRails then s
  else
    let g := (s.mc st).granule
    let pass := (s.mc st).pass
    let s := s.modMc st (fun m => { m with granule := (g + 1) % stackGranules, pass := if g + 1 = stackGranules then pass + 1 else pass })
    match e with
    | .clean => s
    | .corrected _ =>
      let old := tget [] s.ras.rowHits row
      let hits := if old.contains pass then old else old ++ [pass]
      let s : State := { s with ras := { s.ras with rowHits := tset s.ras.rowHits row hits } }
      if 3 ≤ hits.length then s.queueRow st row else s
    | .uncorrectable => s.poisonGranule (g * 6 + st) row

end State

/-- ECC_WRITEBACK (09 R284, R286). -/
def execEccWriteback (c : CoreId) (row : CorrectedRow) (s : State) : Res := .next (s.eccWriteback c.val row.row.val row.words)

/-- SPAD_PATROL (09 R285-R287). -/
def execSpadPatrol (c : CoreId) (bank : Fin 8) (ecc : EccResult) (s : State) : Res := .next (s.spadPatrol c.val bank.val ecc)

/-- SPAD_UNCORRECTABLE (09 R287-R290). -/
def execSpadUncorrectable (c : CoreId) (row : Fin 4096) (by_ : UeFinder) (s : State) : Res :=
  .next (s.spadUncorrectable c.val row.val by_)

/-- PKG_MEM_ACCESS (01 R27-R31; 06 R192; 10 R305, R310; 16 R463). -/
def execPkgMemAccess (rq : MemReq) (s : State) : Res := .next (s.pkgAccess rq)

/-- ROW_SLOT_GRANT (10 R305-R308). -/
def execRowSlotGrant (st : StackId) (s : State) : Res := .next (s.grantSlot st.val)

/-- PKG_MEM_FETCH_COMPLETE (01 R30, R31; 16 R460). -/
def execPkgMemFetchComplete (st : StackId) (tag : Nat) (ecc : EccResult) (dramRow : Nat) (s : State) : Res :=
  .next (s.fetchComplete st.val tag ecc dramRow)

/-- PKG_MEM_WRITE_COMPLETE (01 R31). -/
def execPkgMemWriteComplete (st : StackId) (tag : Nat) (s : State) : Res := .next (s.writeComplete st.val tag)

/-- MEM_PATROL (16 R459, R460). A write since the read drops the write-back, which changes no byte either way. -/
def execMemPatrol (st : StackId) (ecc : EccResult) (dramRow : Nat) (_writtenSince : Bool) (s : State) : Res :=
  .next (s.memPatrol st.val ecc dramRow)

end Sys2Proof.Machine
end

