-- ==== Sys2Proof/Machine/Fabric.lean ====
section
/-! DEFINITION. The fabric (15): ports and HELLOs, frames and flows, job slots, eyelets, posts, transfers and collectives. Log 47 says
what of the frames the spec leaves open and how the model numbers them. -/

namespace Sys2Proof.Machine

/-! ### Ports and frames -/

/-- Bytes of a fabric header (15 R423). -/
def hdrBytes (ty : Nat) (h : FrameHdr) (plen : Nat) : List Byte :=
  leBytes 1 (ty + 16) ++ leBytes 1 (b2n h.first + 2 * b2n h.last + 4 * b2n h.enc + 8 * b2n h.notReady) ++ leBytes 2 h.src ++ leBytes 2 h.dst
    ++ leBytes 1 h.srcPdk ++ leBytes 1 h.dstPdk ++ leBytes 4 h.jobId ++ leBytes 4 h.seq ++ leBytes 8 h.ctr ++ leBytes 2 h.xfer
    ++ leBytes 2 plen ++ leBytes 4 h.offset

/-- Nonce of a protected frame (15 R424). -/
def frameNonce (h : FrameHdr) : List Byte := leBytes 2 h.src ++ leBytes 1 h.srcPdk ++ leBytes 1 0 ++ leBytes 8 h.ctr

/-- Tag of a protected frame over its header and its encrypted payload (15 R424). -/
def frameTag (key : List Byte) (ty : Nat) (h : FrameHdr) (payload : List Byte) : List Byte :=
  Crypto.gcmTag key (frameNonce h) (hdrBytes ty h payload.length) payload

/-- Bytes of a target block (15 R423). -/
def targetBytes (t : TargetBlk) : List Byte :=
  leBytes 1 (if t.get then 2 else 1) ++ leBytes 1 (b2n t.rspace) ++ leBytes 2 0 ++ leBytes 4 t.len ++ leBytes 8 t.raddr ++ leBytes 16 0

/-- Payload of a COLL frame: kind, length, records (15 R441; log 47, DESIGN CHOICE). -/
def collBytes (kind len : Nat) (d : List Byte) : List Byte := leBytes 4 kind ++ leBytes 4 len ++ d

/-- Settings of PLAT_FABRIC; without it every port is disabled (04 R109). -/
def State.fabCfg (s : State) : FabCfg := match s.plat with
  | some pl => pl.fabric.getD { ethertype := 0, device := 0, portEn := 0, protect := 0 }
  | none => { ethertype := 0, device := 0, portEn := 0, protect := 0 }

namespace State

/-- This device's ID (15 R426). -/
def device (s : State) : Nat := s.fabCfg.device

/-- Whether a port carries frames: up, ONLINE, not faulted (15 R421, R427). -/
def portLive (s : State) (pt : Nat) : Bool := (s.port pt).up && (s.port pt).unit_ = .online && (s.port pt).mode ≠ .faulted

/-- Ports in a mode that carry frames, ascending. -/
def portsIn (s : State) (m : PortMode) : List Nat := (List.range 8).filter (fun pt => s.portLive pt && (s.port pt).mode = m)

/-- The port that a frame to a device takes (15 R428, R440): its direct port unless the flow has moved on, else a switched port. -/
def pickPort (s : State) (d jobId xfer shift : Nat) : Option Nat :=
  let direct := (s.portsIn .direct).find? (fun pt => (s.port pt).peer = d)
  let sw := s.portsIn .switched
  match direct with
  | some pt =>
    if shift = 0 || sw.isEmpty then some pt else sw[(jobId + d + xfer + (shift - 1)) % sw.length]?
  | none => if sw.isEmpty then none else sw[(jobId + d + xfer + shift) % sw.length]?

/-- Whether a job slot may be used: active, its activation acknowledged (15 R429). -/
def jobUsable (s : State) (p j : Nat) : Bool := (s.fabJob p j).st = .active && epochDone s.sec.ack (s.fabJob p j).epoch

/-- The 32 bytes of a job key, from its four registers (15 FAB_JOB_KEY). -/
def jobKey (s : State) (p j : Nat) : List Byte := (List.range 4).flatMap (fun k => leBytes 8 (tget 0 (s.fabJob p j).key k).toNat)

/-- Key of a flow. -/
def flowKey (p j rank : Nat) : Nat := (p * 16 + j) * 64 + rank
/-- A flow. -/
def flow (s : State) (p j rank : Nat) : Flow := tget {} s.fab.flows (flowKey p j rank)
/-- A flow changed. -/
def modFlow (s : State) (p j rank : Nat) (f : Flow → Flow) : State :=
  { s with fab := { s.fab with flows := tmod {} s.fab.flows (flowKey p j rank) f } }

/-- Rank of a device and paddock in a job slot (15 R429). -/
def rankOf (s : State) (p j dev pdk : Nat) : Option Nat :=
  let x := s.fabJob p j
  (List.range x.nMembers).find? (fun r => tget (0, 0) x.members r = (dev, pdk))

/-- This paddock's own rank. -/
def ownRank (s : State) (p j : Nat) : Nat := (s.rankOf p j s.device (p + 1)).getD 0

/-- A frame of a job sent to a member, protected as PROTECT says, under the next frame counter (15 R424, R428). Without a port nothing is
sent. -/
def sendFrame (s : State) (p j rank ty : Nat) (h : FrameHdr) (payload : List Byte) : State :=
  let x := s.fabJob p j
  let m := tget (0, 0) x.members rank
  let prot := s.fabCfg.protect = 1
  let s := s.modFabJob p j (fun x => { x with ctr := x.ctr + 1 })
  let h : FrameHdr := { h with vlanTags := 0, enc := prot, src := s.device, dst := m.1, srcPdk := p + 1, dstPdk := m.2, jobId := x.jobId,
                               ctr := x.ctr + 1 }
  match s.pickPort m.1 x.jobId h.xfer (s.flow p j rank).shift with
  | none => s
  | some pt =>
    if prot then
      s.send (.frame pt ty { h with tag := frameTag (s.jobKey p j) ty h payload }
        (Crypto.gcmCrypt (s.jobKey p j) (frameNonce h) payload))
    else s.send (.frame pt ty { h with tag := [] } payload)

/-- Whether the flow to a member has a port. -/
def hasPort (s : State) (p j rank : Nat) : Bool :=
  (s.pickPort (tget (0, 0) (s.fabJob p j).members rank).1 (s.fabJob p j).jobId 0 0).isSome

end State

/-- A header with every field zero. -/
def hdr0 : FrameHdr :=
  { vlanTags := 0, first := false, last := false, enc := false, notReady := false, src := 0, dst := 0, srcPdk := 0, dstPdk := 0, jobId := 0,
    seq := 0, ctr := 0, xfer := 0, offset := 0, tag := [] }

namespace State

/-- A frame sent under the flow's next SEQ and kept until it is acknowledged (15 R440). -/
def sendSeq (s : State) (p j rank ty : Nat) (h : FrameHdr) (payload : List Byte) : State :=
  let h : FrameHdr := { h with seq := (s.flow p j rank).nextSend }
  (s.modFlow p j rank (fun f => { f with nextSend := (f.nextSend + 1) % 2 ^ 32,
                                         unacked := f.unacked ++ [{ ty := ty, hdr := h, payload := payload }] })).sendFrame p j rank ty h payload

/-- The frames of a byte string, 4,096 bytes each, the first and the last marked; `mk` makes a frame's payload of its data and place
(15 R423). -/
def sendAll (s : State) (p j rank ty xfer : Nat) (mark : Bool) (d : List Byte) (mk : Nat → List Byte → List Byte) : State :=
  let n := max 1 (ceilDiv d.length 4096)
  (List.range n).foldl (fun s i =>
    s.sendSeq p j rank ty { hdr0 with first := mark && i = 0, last := i + 1 = n, xfer := xfer, offset := 4096 * i }
      (mk i ((d.drop (4096 * i)).take 4096))) s

/-- An acknowledgement of everything accepted on a flow (15 R440). -/
def sendAck (s : State) (p j rank : Nat) : State :=
  s.sendFrame p j rank 2 { hdr0 with seq := ((s.flow p j rank).nextRecv + 2 ^ 32 - 1) % 2 ^ 32 } []

/-- A refusal of a transfer, with its status and the bytes that were written (15 R433, R442). -/
def sendNak (s : State) (p j rank xfer seq status moved : Nat) (notReady : Bool) : State :=
  s.sendFrame p j rank 3 { hdr0 with seq := seq, xfer := xfer, offset := moved, notReady := notReady } (leBytes 1 status)

/-- A frame dropped and counted (15 R422, R425). -/
def dropFrame (s : State) (pt : Nat) : State := s.modPort pt (fun x => { x with drops := satAdd 65535 x.drops 1 })

/-- The job slot of paddock p that a frame's JOB_ID names, in some state. -/
def jobSlot (s : State) (p jobId : Nat) (f : Nat → Bool) : Option Nat :=
  (List.range 16).find? (fun j => (s.fabJob p j).jobId = jobId && f j)

/-- The checks of a received frame (15 R421, R422, R425, R429; 06 R203): the paddock, job slot and rank it belongs to, if it stands. -/
def rxCheck (s : State) (pt ty : Nat) (h : FrameHdr) (payload : List Byte) : Option (Nat × Nat × Nat) × State :=
  let p := h.dstPdk - 1
  if !s.portLive pt then (none, s)
  else if h.vlanTags ≥ 2 || h.dst ≠ s.device || h.dstPdk = 0 || h.dstPdk > 64 then (none, s.dropFrame pt)
  else if h.enc ≠ (s.fabCfg.protect = 1) then (none, s.dropFrame pt)
  else
    match s.jobSlot p h.jobId (s.jobUsable p) with
    | none =>
      if (s.jobSlot p h.jobId (fun j => (s.fabJob p j).st = .retired)).isSome then (none, s.countRetired) else (none, s.dropFrame pt)
    | some j =>
      match s.rankOf p j h.src h.srcPdk with
      | none => (none, s.dropFrame pt)
      | some r =>
        if h.enc && h.tag ≠ frameTag (s.jobKey p j) ty h payload then (none, s.dropFrame pt)
        else (some (p, j, r), s)

/-! ### Eyelets (15 R432-R435) -/

end State

/-- Rights and target of an eyelet, from the bits of FAB_EYE_CFG. -/
def eyeW (c : Nat) : Bool := bitAt c 1
/-- Remote reads allowed. -/
def eyeR (c : Nat) : Bool := bitAt c 2
/-- Scratchpad window. -/
def eyeSpace (c : Nat) : Bool := bitAt c 3
/-- Job slot. -/
def eyeJob (c : Nat) : Nat := bits c 7 4
/-- Window length. -/
def eyeLen (c : Nat) : Nat := bits c 63 32

/-- Granules of 512 bytes, or their parts in the extent, whose last byte lies in the bytes written: `x` to `y - 1` of an extent that ends
at `hi` (15 R435). -/
def granules (x y hi : Nat) : Nat := y / 512 - x / 512 + b2n (y = hi && y % 512 ≠ 0 && x < y)

namespace State

/-- The core at a position of a logical bay of a ring's job, while the job holds the bay (15 R434, R436). -/
def ringCore (s : State) (p ring lbay pos : Nat) : Option Nat :=
  ((List.range 16).find? (fun b =>
    let x := s.bay b
    x.job = some (p, ring) && x.lbay = lbay && !x.stopped)).map (fun b => 16 * b + pos)

/-- The core that an eyelet's settings name (15 R432). -/
def eyeCore (s : State) (p c : Nat) : Option Nat := s.ringCore p (bits c 15 8) (bits c 19 16) (bits c 23 20)

/-- The resolution of a transfer against the eyelets (15 R433): the eyelet, or the status of the refusal. -/
def resolve (s : State) (p jobId : Nat) (t : TargetBlk) : Nat ⊕ Nat :=
  let holds (e : Nat) : Bool :=
    let x := s.eyelet p e
    x.en && eyeSpace x.cfg = t.rspace && s.jobUsable p (eyeJob x.cfg) && (s.fabJob p (eyeJob x.cfg)).jobId = jobId
      && x.base ≤ t.raddr && t.raddr < x.base + eyeLen x.cfg
  match ((s.fab.eyes.filter (fun e => e.1 / 4096 = p)).map (fun e => e.1 % 4096)).find? holds with
  | none => .inr Status.accessDenied
  | some e =>
    let x := s.eyelet p e
    if (if t.get then !eyeR x.cfg else !eyeW x.cfg) then .inr Status.accessDenied
    else if t.raddr + t.len > x.base + eyeLen x.cfg then .inr Status.accessSpan
    else if t.rspace then .inl e
    else
      let a := (s.pkgAddr p t.raddr).toNat
      match s.checkOwner (p + 1) a t.len, (if t.get then none else s.lockFault p a t.len) with
      | some st, _ => .inr st
      | none, some st => .inr st
      | none, none => if t.get && s.poisonTouch a t.len then .inr Status.rowRetired else .inl e

/-- Bytes of a core's scratchpad. -/
def spadBytes (s : State) (n a len : Nat) : List Byte :=
  (List.range len).map (fun i => BitVec.ofNat 8 (((s.core n).rowAt ((a + i) / 512)).toNat / 2 ^ (8 * ((a + i) % 512))))

/-- Whole rows written into a core's scratchpad (15 R434). -/
def spadWrite (s : State) (n a : Nat) (d : List Byte) : State :=
  (List.range (ceilDiv d.length 512)).foldl (fun s i => s.modCore n (fun c => c.setRow (a / 512 + i) (rowOf ((d.drop (512 * i)).take 512)))) s

/-- Arrivals counted for the target core, or kept while its job does not hold the bay (15 R435). -/
def countArrivals (s : State) (p c n : Nat) : State :=
  if !bitAt c 24 || n = 0 then s
  else
    let k := bits c 31 25
    match s.eyeCore p c with
    | some q => s.modCore q (·.arrive k n)
    | none => { s with fab := { s.fab with kept := s.fab.kept ++
        [{ pdk := p, ring := some (bits c 15 8), lbay := bits c 19 16, pos := bits c 23 20, ctr := k, cnt := n }] } }

/-- Bytes of an accepted PUT written at their place, and counted (15 R434, R435). The answer says whether the target core was there. -/
def putBytes (s : State) (p c raddr len off : Nat) (d : List Byte) : Bool × State :=
  let a := raddr + off
  let n := granules a (a + d.length) (raddr + len)
  if eyeSpace c then
    match s.eyeCore p c with
    | none => (false, s)
    | some q => (true, (s.spadWrite q a d).countArrivals p c n)
  else (true, (s.writeFrom (s.pkgAddr p a).toNat d).countArrivals p c n)

/-- What a GET reads from an eyelet's window; nothing while the target core is away (15 R433, R434). A window in package memory is read
through its controllers (10 R306). -/
def getBytes (s : State) (p c raddr len : Nat) : Option (List Byte × State) :=
  if eyeSpace c then (s.eyeCore p c).map (fun q => (s.spadBytes q raddr len, s))
  else
    let a := (s.pkgAddr p raddr).toNat
    some (s.memRead a len, s.traffic false a [] len)

/-! ### Posts (15 R436-R439) -/

/-- Open posts changed where a test holds. -/
def modPosts (s : State) (f : Post → Bool) (g : Post → Post) : State :=
  { s with fab := { s.fab with posts := s.fab.posts.map (fun x => if f x then g x else x) } }

/-- Posts that have no status yet and satisfy a test get one. -/
def endPosts (s : State) (f : Post → Bool) (status : Nat) : State :=
  s.modPosts (fun x => x.status.isNone && f x) (fun x => { x with status := some status, endTs := s.dev.tsc.toNat })

/-- A post of a paddock by its transfer number. -/
def isPost (p xfer : Nat) (x : Post) : Bool := x.pdk = p && x.xfer = xfer

/-- Bytes of a collective's record (15 R441). -/
def recBytes (kind : Nat) : Nat := if kind = 3 then 8 else 4

/-- Bytes that a post moves. -/
def postBytes (x : Post) : Nat := if x.op ≤ 2 then x.len else x.len * recBytes x.op

/-- Data written at a post's local side; `none` while its core's job is off its bay. A post whose job has ended has no core left to
write (15 R434, R436, R441; log 47, DESIGN CHOICE). -/
def putLocal (s : State) (x : Post) (off : Nat) (d : List Byte) : Option State :=
  if x.lspace = 0 then some (s.writeFrom (s.pkgAddr x.pdk (x.laddr + off)).toNat d)
  else if x.gone then some s
  else (s.ringCore x.pdk x.ring x.lbay x.pos).map (fun n => s.spadWrite n (x.laddr + off) d)

/-- Whether a post has no other row checks against it: reserved fields, operation, lengths, member (15 R437, R438 check 1). -/
def postShapeOk (s : State) (p : Nat) (d : List Byte) (x : Post) : Bool :=
  1 ≤ x.op && x.op ≤ 5 && x.job < 16 && bits x.cpl 6 4 = 0 && x.lspace ≤ 1 && x.rspace ≤ 1 && zeroAt d 0x13 5 && zeroAt d 0x22 478
    && fieldAt d 0x0D 3 = 0 && fieldAt d 0x1D 3 = 0
    && (if x.op ≤ 2 then x.len ≤ 1048576 && x.member < (s.fabJob p x.job).nMembers else x.len ≤ 4096 && x.lspace = 1)

/-- The checks of a post up to its local extent (15 R438 checks 1 to 5). -/
def postCheck (s : State) (p : Nat) (d : List Byte) (x : Post) : Option Nat :=
  let n := postBytes x
  if !s.postShapeOk p d x then some Status.shapeIllegal
  else if (s.fabJob p x.job).st = .retired then some Status.keyRetired
  else if !s.jobUsable p x.job then some Status.accessDenied
  else if x.len = 0 then some Status.okZero
  else if x.laddr % 64 ≠ 0 || (x.op ≤ 2 && x.raddr % 64 ≠ 0) || (x.lspace = 1 && (x.laddr % 512 ≠ 0 || n % 512 ≠ 0))
      || (x.op ≤ 2 && x.rspace = 1 && (x.raddr % 512 ≠ 0 || n % 512 ≠ 0)) then some Status.alignFault
  else if x.lspace = 1 then
    (if x.laddr ≥ 4096 * 512 then some Status.accessDenied else if x.laddr + n > 4096 * 512 then some Status.accessSpan else none)
  else
    let a := (s.pkgAddr p x.laddr).toNat
    match s.checkOwner (p + 1) a n with
    | some st => some st
    | none => if x.op = 1 && s.poisonTouch a n then some Status.rowRetired else none

/-- The target block of a PUT or GET. -/
def postTarget (x : Post) : TargetBlk := { get := x.op = 2, rspace := x.rspace = 1, len := x.len, raddr := x.raddr }

/-- A PUT or GET to the paddock's own rank, with the same checks and without leaving the device (15 R438); while the eyelet's or the
posting core is away it stays outstanding as for NOT_READY (15 R434). -/
def selfTransfer (s : State) (x : Post) (d : List Byte) : State :=
  let p := x.pdk
  let wait (s : State) : State := (s.modPosts (isPost p x.xfer) (fun x => { x with result := some d })).modFlow p x.job (s.ownRank p x.job)
    (fun f => { f with notReady := true })
  let ok (s : State) : State := (s.modPosts (isPost p x.xfer) (fun y => { y with moved := x.len, result := none })).endPosts
    (isPost p x.xfer) Status.ok
  match s.resolve p (s.fabJob p x.job).jobId (postTarget x) with
  | .inr st => s.endPosts (isPost p x.xfer) st
  | .inl e =>
    let c := (s.eyelet p e).cfg
    if x.op = 1 then
      match s.putBytes p c x.raddr x.len 0 d with
      | (true, s) => ok s
      | (false, _) => wait s
    else
      match s.getBytes p c x.raddr x.len with
      | none => wait s
      | some (b, s) => match s.putLocal x 0 b with
        | some s => ok s
        | none => wait s

/-- Bytes of a post's local side. A GET reads none; package memory is read through its controllers (10 R306). -/
def localBytes (s : State) (x : Post) (n : Nat) : List Byte × State :=
  if x.op = 2 then ([], s)
  else if x.lspace = 1 then (s.spadBytes n x.laddr (postBytes x), s)
  else
    let a := (s.pkgAddr x.pdk x.laddr).toNat
    (s.memRead a (postBytes x), s.traffic false a [] (postBytes x))

/-! ### Collectives (15 R441, 11 R334) -/

/-- The collective with a number, made where it is new. -/
def collRecord (l : List Coll) (p j num kind len rank off : Nat) (d : List Byte) (last : Bool) : List Coll :=
  let hit (c : Coll) : Bool := c.pdk = p && c.job = j && c.num % 2 ^ 15 = num % 2 ^ 15
  let l := if l.any hit then l else l ++ [{ pdk := p, job := j, num := num, kind := kind, len := len }]
  l.map (fun c => if hit c then
      { c with bad := c.bad || c.kind ≠ kind || c.len ≠ len
               recs := tmod [] c.recs rank (fun r => r.take off ++ d)
               whole := if last && !c.whole.contains rank then c.whole ++ [rank] else c.whole } else c)

/-- One record folded onto another (15 R441, 11 R334). -/
def foldRec (kind a b : Nat) : Nat :=
  let f (g : BitVec 32 → BitVec 32 → BitVec 32) : Nat := (g (BitVec.ofNat 32 (a % 2 ^ 32)) (BitVec.ofNat 32 (b % 2 ^ 32))).toNat
  if kind = 3 then f fadd + min (a / 2 ^ 32 + b / 2 ^ 32) (2 ^ 32 - 1) * 2 ^ 32
  else if kind = 4 then f fadd else f fmax

/-- Every record folded in ascending rank (15 R441). -/
def foldAll (kind len : Nat) (recs : List (List Byte)) : List Byte :=
  let n := recBytes kind
  ((List.range len).map (fun i =>
    leBytes n (match recs.map (fun r => fieldAt r (n * i) n) with
      | [] => 0
      | a :: t => t.foldl (foldRec kind) a))).flatten

/-- XFER of a collective's frames (log 47, DESIGN CHOICE). -/
def collXfer (num : Nat) : Nat := 2 ^ 15 + num % 2 ^ 15

/-- The first collective of a slot that every member has posted is folded at rank 0, and the result goes to every member; where members
differ every one completes with SHAPE_ILLEGAL (15 R441). -/
def collFold (s : State) (p j : Nat) : State :=
  let x := s.fabJob p j
  match s.fab.colls.find? (fun c => c.pdk = p && c.job = j && (List.range x.nMembers).all c.whole.contains) with
  | none => s
  | some c =>
    let s : State := { s with fab := { s.fab with colls := s.fab.colls.erase c } }
    let mine (y : Post) : Bool := y.pdk = p && y.job = j && 3 ≤ y.op && y.num % 2 ^ 15 = c.num % 2 ^ 15 && y.status.isNone
    let others := (List.range x.nMembers).filter (· ≠ s.ownRank p j)
    if c.bad then
      (others.foldl (fun s r => s.sendNak p j r (collXfer c.num) ((s.flow p j r).nextRecv) Status.shapeIllegal 0 false) s).endPosts mine
        Status.shapeIllegal
    else
      let d := foldAll c.kind c.len ((List.range x.nMembers).map (fun r => tget [] c.recs r))
      let s := others.foldl (fun s r => s.sendAll p j r 6 (collXfer c.num) true d (fun _ b => collBytes c.kind c.len b)) s
      match s.fab.posts.find? mine with
      | none => s
      | some y =>
        match s.putLocal y 0 d with
        | some s => (s.modPosts mine (fun y => { y with moved := d.length })).endPosts mine Status.ok
        | none => s.modPosts mine (fun y => { y with result := some d })

/-! ### Popping posts -/

/-- A post that has passed its checks goes out (15 R438-R441). -/
def startPost (s : State) (x : Post) (n : Nat) : State :=
  let p := x.pdk
  let (d, s) := s.localBytes x n
  let own := s.ownRank p x.job
  if x.op ≤ 2 then
    if x.member = own then s.selfTransfer x d
    else if !s.hasPort p x.job x.member then s.endPosts (isPost p x.xfer) Status.quarantined
    else if x.op = 1 then
      s.sendAll p x.job x.member 1 x.xfer true d (fun i b => if i = 0 then targetBytes (postTarget x) ++ b else b)
    else s.sendAll p x.job x.member 1 x.xfer true [] (fun _ _ => targetBytes (postTarget x))
  else
    let s := s.modFabJob p x.job (fun y => { y with colls := y.colls + 1 })
    if own = 0 then
      { s with fab := { s.fab with colls := collRecord s.fab.colls p x.job x.num x.op x.len 0 0 d true } }
    else if !s.hasPort p x.job 0 then s.endPosts (isPost p x.xfer) Status.quarantined
    else s.sendAll p x.job 0 6 (collXfer x.num) true d (fun _ b => collBytes x.op x.len b)

/-- The post in a row (15 R437). -/
def postOf (p q : Nat) (pq : PostQ) (d : List Byte) (xfer : Nat) : Post :=
  { pdk := p, q := q, op := fieldAt d 0 1, job := fieldAt d 1 1, cpl := fieldAt d 2 1, lspace := fieldAt d 3 1, len := fieldAt d 4 4,
    laddr := fieldAt d 8 5, member := fieldAt d 0x10 2, rspace := fieldAt d 0x12 1, raddr := fieldAt d 0x18 5, tag := fieldAt d 0x20 2,
    ring := pq.ring, lbay := pq.lbay, pos := pq.pos, xfer := xfer }

/-- The engine pops the head row of a post queue whose operation is `want`, checks it and starts it; a row of an operation that is not
defined is PUT's (15 R436-R438; log 47, DESIGN CHOICE). -/
def popPost (s : State) (p q want : Nat) : State :=
  let pq := tget {} s.fab.postqs (p * 16 + q)
  if !pq.en || (s.pdk p).st = .teardown then s
  else
    match s.ringCore p pq.ring pq.lbay pq.pos with
    | none => s
    | some n =>
      let h := (s.core n).hoop pq.hoop
      if h.size = 0 || h.a = 0 then s
      else
        let d := rowBytes ((s.core n).rowAt ((h.base + h.head) % 4096))
        let op := fieldAt d 0 1
        if op ≠ want && !(want = 1 && (op = 0 || op > 5)) then s
        else
          let s := s.modCore n (·.modHoop pq.hoop (fun h => { h with head := (h.head + 1) % h.size, a := h.a - 1, o := h.o - 1 }))
          let x := postOf p q pq d (s.fab.nextXfer % 2 ^ 15)
          let x : Post := { x with num := (s.fabJob p x.job).colls }
          let s : State := { s with fab := { s.fab with nextXfer := s.fab.nextXfer + 1, posts := s.fab.posts ++ [x] } }
          match s.postCheck p d x with
          | some st => s.endPosts (isPost p x.xfer) st
          | none => s.startPost x n

/-- The completion row of a post (15 R439). -/
def cplRow (x : Post) (st : Nat) : Row :=
  rowOf (leBytes 1 st ++ leBytes 1 0 ++ leBytes 2 x.tag ++ leBytes 4 x.moved ++ leBytes 8 x.endTs)

/-- The oldest post of a queue completes: its row enters the completion Hoop of the posting core if it asked for one, once the core runs
and the Hoop has room (15 R436, R439; 09 R278). -/
def postCompletion (s : State) (p q : Nat) : State :=
  match s.fab.posts.find? (fun x => x.pdk = p && x.q = q) with
  | none => s
  | some x =>
    let (s, x) := match x.status, x.result with
      | none, some d =>
        if x.op ≤ 2 then (s, x)
        else match s.putLocal x 0 d with
          | some s => (s.modPosts (· = x) (fun _ => { x with status := some Status.ok, result := none, moved := d.length,
                                                              endTs := s.dev.tsc.toNat }),
                       { x with status := some Status.ok, result := none, moved := d.length, endTs := s.dev.tsc.toNat })
          | none => (s, x)
      | _, _ => (s, x)
    match x.status with
    | none => s
    | some st =>
      let done : State := { s with fab := { s.fab with posts := s.fab.posts.erase x } }
      if !bitAt x.cpl 7 || x.gone then done
      else
        match s.ringCore p x.ring x.lbay x.pos with
        | none => s
        | some n => if (s.core n).hoopRoom (x.cpl % 16) 1 then done.modCore n (·.hoopDeliver (x.cpl % 16) (cplRow x st)) else s

/-! ### Receiving -/

/-- A frame is accepted in its flow: SEQ moves on and is acknowledged (15 R440). -/
def acceptSeq (s : State) (p j r : Nat) : State :=
  (s.modFlow p j r (fun f => { f with nextRecv := (f.nextRecv + 1) % 2 ^ 32 })).sendAck p j r

/-- The first frame of a transfer (15 R433, R434). -/
def firstFrame (s : State) (p j r : Nat) (h : FrameHdr) (t : TargetBlk) (d : List Byte) : State :=
  match s.resolve p h.jobId t with
  | .inr st => (s.acceptSeq p j r).sendNak p j r h.xfer h.seq st 0 false
  | .inl e =>
    let c := (s.eyelet p e).cfg
    if t.get then
      match s.getBytes p c t.raddr t.len with
      | none => s.sendNak p j r h.xfer h.seq 0 0 true
      | some (b, s) => (s.acceptSeq p j r).sendAll p j r 1 (h.xfer + 2 ^ 15) false b (fun _ x => x)
    else
      match s.putBytes p c t.raddr t.len 0 d with
      | (false, _) => s.sendNak p j r h.xfer h.seq 0 0 true
      | (true, s) =>
        let s := s.acceptSeq p j r
        if d.length < t.len then
          { s with fab := { s.fab with rx := s.fab.rx ++ [{ pdk := p, job := j, rank := r, xfer := h.xfer, eye := e, cfg := c, raddr := t.raddr,
                                                            len := t.len, epoch := s.sec.epoch, got := d.length }] } }
        else s

/-- A later frame: data of a GET of this device, or of a PUT that was accepted, or dropped (15 R434, R439, R442). -/
def laterFrame (s : State) (p j r : Nat) (h : FrameHdr) (d : List Byte) : State :=
  let mine (x : Post) : Bool := x.pdk = p && x.job = j && x.member = r && x.op = 2 && x.status.isNone && x.xfer + 2 ^ 15 = h.xfer
  match s.fab.posts.find? mine with
  | some x =>
    match s.putLocal x h.offset d with
    | none => s.sendNak p j r h.xfer h.seq 0 0 true
    | some s =>
      let s := (s.acceptSeq p j r).modPosts mine (fun x => { x with moved := x.moved + d.length })
      if x.moved + d.length ≥ x.len then s.endPosts mine Status.ok else s
  | none =>
    match s.fab.rx.find? (fun x => x.pdk = p && x.job = j && x.rank = r && x.xfer = h.xfer && x.got = h.offset) with
    | none => s.acceptSeq p j r
    | some x =>
      match s.putBytes p x.cfg x.raddr x.len x.got d with
      | (false, _) => s.sendNak p j r h.xfer h.seq 0 0 true
      | (true, s) =>
        let s := s.acceptSeq p j r
        let g := x.got + d.length
        { s with fab := { s.fab with rx := if g ≥ x.len then s.fab.rx.erase x
                                           else s.fab.rx.map (fun y => if y = x then { y with got := g } else y) } }

/-- A DATA frame (15 R425, R433-R435, R440, R442). -/
def dataFrame (s : State) (pt : Nat) (h : FrameHdr) (t : Option TargetBlk) (d : List Byte) : State :=
  match s.rxCheck pt 1 h (t.elim [] targetBytes ++ d) with
  | (none, s) => s
  | (some (p, j, r), s) =>
    if h.seq ≠ (s.flow p j r).nextRecv then s.sendAck p j r
    else match h.first, t with
      | true, some t => s.firstFrame p j r h t d
      | _, _ => s.laterFrame p j r h d

/-- Every frame of a flow up to a SEQ is acknowledged; a PUT with no frame left completes (15 R439, R440). -/
def ackFlow (s : State) (p j r seq : Nat) : State :=
  let keep (f : SentFrame) : Bool := !((seq + 2 ^ 32 - f.hdr.seq) % 2 ^ 32 < 2 ^ 31)
  let old := (s.flow p j r).unacked
  let left := old.filter keep
  let s := s.modFlow p j r (fun f => { f with unacked := left, resends := if left.length = old.length then f.resends else 0,
                                              notReady := if left.length = old.length then f.notReady else false })
  let hit (x : Post) : Bool := x.pdk = p && x.job = j && x.member = r && x.op = 1 && x.status.isNone && x.result.isNone
    && !(left.any (fun f => f.ty = 1 && f.hdr.xfer = x.xfer)) && r ≠ s.ownRank p j
  (s.modPosts hit (fun x => { x with moved := x.len })).modPosts hit (fun x => { x with status := some Status.ok, endTs := s.dev.tsc.toNat })

/-- Whether an ACK answers a RETIRE frame of this device (15 R431). -/
def isClosing (h : FrameHdr) (c : Closing) : Bool :=
  c.pdk + 1 = h.dstPdk && c.hdr.jobId = h.jobId && c.hdr.dst = h.src && c.hdr.dstPdk = h.srcPdk

/-- An ACK frame (15 R431, R440). -/
def ackFrame (s : State) (pt : Nat) (h : FrameHdr) : State :=
  if s.portLive pt && s.fab.closing.any (isClosing h) then
    { s with fab := { s.fab with closing := s.fab.closing.filter (fun c => !isClosing h c) } }
  else
    match s.rxCheck pt 2 h [] with
    | (none, s) => s
    | (some (p, j, r), s) => s.ackFlow p j r h.seq

/-- A NAK frame: NOT_READY keeps the post outstanding, any other status ends it (15 R433, R434, R441, R442). A status byte that 00 R16 does
not list ends it as INTERNAL, as R17 has a code read (log 81, DEDUCED). -/
def nakFrame (s : State) (pt : Nat) (h : FrameHdr) (status : Nat) : State :=
  match s.rxCheck pt 3 h (leBytes 1 status) with
  | (none, s) => s
  | (some (p, j, r), s) =>
    if h.notReady then s.modFlow p j r (fun f => { f with notReady := true })
    else
      let hit (x : Post) : Bool := x.pdk = p && x.job = j && x.status.isNone &&
        (if h.xfer < 2 ^ 15 then x.op ≤ 2 && x.member = r && x.xfer = h.xfer else 3 ≤ x.op && collXfer x.num = h.xfer)
      let s := (s.modPosts hit (fun x => { x with moved := h.offset })).endPosts hit (Status.read status)
      if h.xfer < 2 ^ 15 then s.ackFlow p j r h.seq else s

/-- A COLL frame: records for rank 0, or rank 0's result (15 R441). -/
def collFrame (s : State) (pt : Nat) (h : FrameHdr) (kind len : Nat) (d : List Byte) : State :=
  match s.rxCheck pt 6 h (collBytes kind len d) with
  | (none, s) => s
  | (some (p, j, r), s) =>
    if h.seq ≠ (s.flow p j r).nextRecv then s.sendAck p j r
    else if s.ownRank p j = 0 then
      let s : State := { s with fab := { s.fab with colls := collRecord s.fab.colls p j (h.xfer % 2 ^ 15) kind len r h.offset d h.last } }
      s.acceptSeq p j r
    else
      let mine (x : Post) : Bool := x.pdk = p && x.job = j && 3 ≤ x.op && x.status.isNone && collXfer x.num = h.xfer
      match s.fab.posts.find? mine with
      | none => s.acceptSeq p j r
      | some x =>
        match s.putLocal x h.offset d with
        | none => s.sendNak p j r h.xfer h.seq 0 0 true
        | some s =>
          let s := (s.acceptSeq p j r).modPosts mine (fun x => { x with moved := x.moved + d.length })
          if h.last then s.endPosts mine Status.ok else s

/-! ### Job slots (15 R429-R431) -/

/-- A job slot retires: its key is destroyed, its open posts complete with KEY_RETIRED, and where this device began it a RETIRE frame
goes to every other member (15 R431). -/
def retireJob (s : State) (p j : Nat) (tell : Bool) : State :=
  let x := s.fabJob p j
  if x.st ≠ .active then s.modFabJob p j (fun x => { x with key := [], keyMask := 0 })
  else
    let own := s.ownRank p j
    let others := (List.range x.nMembers).filter (· ≠ own)
    let s := if !tell then s else others.foldl (fun s r =>
      let y := s.fabJob p j
      let m := tget (0, 0) y.members r
      let prot := s.fabCfg.protect = 1
      let h : FrameHdr := { hdr0 with seq := (s.flow p j r).nextSend, enc := prot, src := s.device, dst := m.1, srcPdk := p + 1,
                                      dstPdk := m.2, jobId := y.jobId, ctr := y.ctr + 1 }
      let h : FrameHdr := if prot then { h with tag := frameTag (s.jobKey p j) 5 h [] } else h
      let s := s.modFabJob p j (fun y => { y with ctr := y.ctr + 1 })
      let s : State := { s with fab := { s.fab with closing := s.fab.closing ++
        [{ pdk := p, job := j, rank := r, hdr := h, payload := [], again := 0 }] } }
      match s.pickPort m.1 y.jobId 0 0 with
      | some pt => s.send (.frame pt 5 h [])
      | none => s) s
    let s := s.endPosts (fun y => y.pdk = p && y.job = j) Status.keyRetired
    let s := s.modFabJob p j (fun y => { y with st := .retired, key := [], keyMask := 0 })
    { s with fab := { s.fab with flows := s.fab.flows.filter (fun f => f.1 / 64 ≠ p * 16 + j)
                                 rx := s.fab.rx.filter (fun y => !(y.pdk = p && y.job = j))
                                 colls := s.fab.colls.filter (fun y => !(y.pdk = p && y.job = j)) } }

/-- A RETIRE frame (15 R431). -/
def retireFrame (s : State) (pt : Nat) (h : FrameHdr) : State :=
  match s.rxCheck pt 5 h [] with
  | (none, s) => s
  | (some (p, j, r), s) => (s.sendFrame p j r 2 { hdr0 with seq := h.seq } []).retireJob p j false

/-- RETIRE frames of a slot that no member has acknowledged are sent again, at most for 1 ms (15 R431). -/
def retireAgain (s : State) (p j : Nat) : State :=
  let mine (c : Closing) : Bool := c.pdk = p && c.job = j
  let s := (s.fab.closing.filter mine).foldl (fun s c =>
    if c.again ≥ 50 then s
    else match s.pickPort c.hdr.dst c.hdr.jobId 0 0 with
      | some pt => s.send (.frame pt 5 c.hdr c.payload)
      | none => s) s
  { s with fab := { s.fab with closing := (s.fab.closing.filter (fun c => !mine c || c.again < 50)).map (fun c =>
      if mine c then { c with again := c.again + 1 } else c) } }

/-- Whether the registers of a job slot may be written by a paddock in this state (15 R429). -/
def fabWritable (s : State) (p : Nat) : Bool :=
  (s.pdk p).st = .runnable || (s.pdk p).st = .running || (s.pdk p).st = .suspended

/-- A feature of the paddock's committed image (04 R119). -/
def feature (s : State) (p i : Nat) : Bool := match (s.pdk p).img with
  | some img => bitAt img.features i
  | none => false

/-- Whether a slot may be activated (15 R429). -/
def activateOk (s : State) (p j : Nat) (x : FabJob) : Bool :=
  let ms := (List.range x.nMembers).map (fun r => tfind x.members r)
  let devs := ms.filterMap id
  x.jobId ≠ 0 && 1 ≤ x.nMembers && x.nMembers ≤ 64
    && !(List.range 16).any (fun k => k ≠ j && (s.fabJob p k).st = .active && (s.fabJob p k).jobId = x.jobId)
    && ms.all Option.isSome && (devs.zip (devs.drop 1)).all (fun e => e.1.1 < e.2.1)
    && (devs.filter (fun m => m = (s.device, p + 1))).length = 1
    && (s.fabCfg.protect ≠ 1 || x.keyMask = 15) && s.feature p 2

/-- A refused write of a job slot's registers. -/
def refuseJob (s : State) (p j : Nat) : State := s.modFabJob p j (fun x => { x with refused := true })

/-- A write of FAB_JOB_CFG (15 R429, R431): a 1 in REFUSED clears it before the write is applied or refused, a 0 leaves it (00 R8). A
retired slot becomes idle by a new configuration (log 47, DESIGN CHOICE). -/
def jobCfgWrite (s : State) (p v : Nat) : State :=
  let j := (s.pdk p).jobSel
  let s := s.modFabJob p j (fun x => { x with refused := x.refused && !bitAt v 44 })
  let x := s.fabJob p j
  if bitAt v 41 && x.st = .active then s.retireJob p j true
  else if bitAt v 41 || x.st = .active || !s.fabWritable p then s.refuseJob p j
  else
    let x : FabJob := { x with jobId := bits v 31 0, nMembers := bits v 38 32, st := .idle,
                               keyMask := if x.st = .retired then 0 else x.keyMask }
    if !bitAt v 40 then s.modFabJob p j (fun _ => x)
    else if s.activateOk p j x then
      let s := s.newEpoch (some (p + 1))
      let s : State := { s with fab := { s.fab with flows := s.fab.flows.filter (fun f => f.1 / 64 ≠ p * 16 + j) } }
      s.modFabJob p j (fun _ => { x with st := .active, ctr := 0, colls := 0, epoch := s.sec.epoch })
    else s.refuseJob p j

/-- A write of FAB_JOB_MEMBER (15 R429). -/
def jobMemberWrite (s : State) (p v : Nat) : State :=
  let j := (s.pdk p).jobSel
  if (s.fabJob p j).st = .idle && s.fabWritable p then
    s.modFabJob p j (fun x => { x with members := tset x.members (bits v 5 0) (bits v 15 6, bits v 22 16) })
  else s.refuseJob p j

/-- A write of FAB_JOB_KEY0 to FAB_JOB_KEY3 (15 R429, R430). -/
def jobKeyWrite (s : State) (p k : Nat) (v : Word) : State :=
  let j := (s.pdk p).jobSel
  if (s.fabJob p j).st = .idle && s.fabWritable p then
    s.modFabJob p j (fun x => { x with key := tset x.key k v, keyMask := if bitAt x.keyMask k then x.keyMask else x.keyMask + 2 ^ k })
  else s.refuseJob p j

/-! ### Eyelet registers -/

/-- Whether the selected eyelet may be opened with these settings (15 R432). -/
def eyeOpenOk (s : State) (p e v : Nat) : Bool :=
  let len := eyeLen v
  let base := (s.eyelet p e).base
  e < (s.quota p).eyelets && 512 ≤ len && len % 512 = 0 && base % 512 = 0 && s.feature p 2
    && (if eyeSpace v then base + len ≤ 4096 * 512 else (s.checkSpan p false base ((base + len : Nat) - 1)).isNone)

/-- The selected eyelet closes: a rule change (15 R432, R442). -/
def eyeClose (s : State) (p e : Nat) : State :=
  let s := s.newEpoch (some (p + 1))
  s.modEyelet p e (fun x => { x with en := false, cfg := x.cfg / 2 * 2, shut := s.sec.epoch })

/-- A write of FAB_EYE_CFG (15 R432). -/
def eyeCfgWrite (s : State) (p v : Nat) : State :=
  let e := (s.pdk p).eyeSel
  if (s.eyelet p e).en then
    (if bitAt v 0 then s.modEyelet p e (fun x => { x with refused := true }) else s.eyeClose p e)
  else if !bitAt v 0 then s.modEyelet p e (fun x => { x with cfg := v })
  else if s.eyeOpenOk p e v then (s.newEpoch (some (p + 1))).modEyelet p e (fun x => { x with en := true, cfg := v })
  else s.modEyelet p e (fun x => { x with refused := true })

/-- A write of FAB_EYE_BASE (15 R432). -/
def eyeBaseWrite (s : State) (p v : Nat) : State :=
  let e := (s.pdk p).eyeSel
  s.modEyelet p e (fun x => if x.en then { x with refused := true } else
    { x with base := bits v 39 0, refused := x.refused && !bitAt v 48 })

/-- 180 µs after a close, transfers that the eyelet accepted before it and that are incomplete are abandoned (15 R442). -/
def eyeAbandon (s : State) (p e : Nat) : State :=
  let sh := (s.eyelet p e).shut
  let old (x : RxXfer) : Bool := x.pdk = p && x.eye = e && x.epoch ≠ sh && epochDone sh x.epoch
  let s' : State := { s with fab := { s.fab with rx := s.fab.rx.filter (fun x => !old x) } }
  (s.fab.rx.filter old).foldl (fun s x =>
    s.sendNak p x.job x.rank x.xfer (((s.flow p x.job x.rank).nextRecv + 2 ^ 32 - 1) % 2 ^ 32) Status.accessDenied x.got false) s'

/-- A write of FAB_POSTQ (15 R436, 04 R119): setting EN without the fabric feature is ignored. -/
def postqWrite (s : State) (p q v : Nat) : State :=
  if bitAt v 0 && !s.feature p 2 then s
  else
    let x : PostQ := { en := bitAt v 0, hoop := bits v 4 1, pos := bits v 8 5, lbay := bits v 12 9, ring := bits v 23 16 }
    { s with fab := { s.fab with postqs := tset s.fab.postqs (p * 16 + q) x } }

/-! ### Recovery -/

/-- Every open post of a flow ends: those to its member, and collectives between it and rank 0 (15 R440). -/
def failFlow (s : State) (p j r status : Nat) : State :=
  let own := s.ownRank p j
  (s.endPosts (fun x => x.pdk = p && x.job = j && (if x.op ≤ 2 then x.member = r && r ≠ own else r = 0 || own = 0)) status).modFlow p j r
    (fun f => { f with unacked := [], resends := 0 })

/-- 20 µs without an acknowledgement: every unacknowledged frame is sent again; after the fourth resend the flow moves to the next port,
after the sixteenth it gives up (15 R440). A flow that waits for NOT_READY waits for its own retry. -/
def resend (s : State) (p j r : Nat) : State :=
  let f := s.flow p j r
  if f.unacked.isEmpty || f.notReady then s
  else if !s.hasPort p j r then s.failFlow p j r Status.quarantined
  else if f.resends ≥ 16 then s.failFlow p j r Status.internal
  else
    let s := s.modFlow p j r (fun f => { f with resends := f.resends + 1, shift := if f.resends = 4 then f.shift + 1 else f.shift })
    f.unacked.foldl (fun s x => s.sendFrame p j r x.ty x.hdr x.payload) s

/-- 10 µs after NOT_READY the refused frame is offered again; a transfer within the device is tried again (15 R434). -/
def retryNotReady (s : State) (p j r : Nat) : State :=
  if !(s.flow p j r).notReady then s
  else
    let s := s.modFlow p j r (fun f => { f with notReady := false })
    if r = s.ownRank p j then
      (s.fab.posts.filter (fun x => x.pdk = p && x.job = j && x.op ≤ 2 && x.member = r && x.status.isNone && x.result.isSome)).foldl
        (fun s x => s.selfTransfer x (x.result.getD [])) s
    else match (s.flow p j r).unacked with
      | x :: _ => s.sendFrame p j r x.ty x.hdr x.payload
      | [] => s

/-- Arrivals kept for a core whose job holds its bay now (15 R435). -/
def deliverArrivals (s : State) (n : Nat) : State :=
  let mine (k : Kept) : Bool := s.ringCore k.pdk (k.ring.getD 0) k.lbay k.pos = some n
  let s' : State := { s with fab := { s.fab with kept := s.fab.kept.filter (fun k => !mine k) } }
  (s.fab.kept.filter mine).foldl (fun s k => s.modCore n (·.arrive k.ctr k.cnt)) s'

/-! ### Links and HELLOs (15 R427) -/

/-- What a HELLO makes of a port: direct to its peer, or faulted. -/
def hello (s : State) (pt : Nat) (h : Hello) : State :=
  let c := s.fabCfg
  if !(s.port pt).up || (s.port pt).unit_ ≠ .online then s
  else if h.device = c.device || h.protect ≠ c.protect || h.ethertype ≠ c.ethertype then s.modPort pt (fun x => { x with mode := .faulted })
  else s.modPort pt (fun x => { x with mode := .direct, peer := h.device, peerPort := h.port })

/-- No HELLO for long enough: the port is switched (15 R427). A faulted port stays so. -/
def helloTimeout (s : State) (pt : Nat) : State :=
  let x := s.port pt
  if !x.up || x.unit_ ≠ .online || x.mode = .faulted then s
  else s.modPort pt (fun x => { x with mode := .switched, peer := 0, peerPort := 0 })

/-- Teardown's fence of the fabric: the paddock's post queues stop (05 R170 step 2). -/
def fabFence (s : State) (p : Nat) : State :=
  { s with fab := { s.fab with postqs := s.fab.postqs.map (fun e => if e.1 / 16 = p then (e.1, { e.2 with en := false }) else e) } }

/-- Teardown's step 4: every active slot retires (15 R431, 06 R202). -/
def fabRetireAll (s : State) (p : Nat) : State := (List.range 16).foldl (fun s j => s.retireJob p j true) s

/-- What a teardown leaves of a paddock's fabric: its job slots retired, its eyelets and post queues closed, nothing open; RETIRE frames
go on (15 R431). -/
def fabClear (s : State) (p : Nat) : State :=
  { s with fab := { s.fab with
      eyes := s.fab.eyes.filter (fun e => e.1 / 4096 ≠ p)
      postqs := s.fab.postqs.filter (fun e => e.1 / 16 ≠ p)
      posts := s.fab.posts.filter (fun x => x.pdk ≠ p)
      flows := s.fab.flows.filter (fun e => e.1 / 1024 ≠ p)
      rx := s.fab.rx.filter (fun x => x.pdk ≠ p)
      colls := s.fab.colls.filter (fun x => x.pdk ≠ p)
      kept := s.fab.kept.filter (fun x => x.pdk ≠ p) } }

end State

/-! ### The commands -/

/-- HELLO_SEND (15 R427). -/
def execHelloSend (pt : PortId) (s : State) : Res :=
  .next (if (s.port pt.val).up && (s.port pt.val).unit_ = .online then
      s.send (.hello pt.val { device := s.device, port := pt.val, protect := s.fabCfg.protect, ethertype := s.fabCfg.ethertype })
    else s)

/-- HELLO (15 R427). -/
def execHello (pt : PortId) (h : Hello) (s : State) : Res := .next (s.hello pt.val h)

/-- HELLO_TIMEOUT (15 R427). -/
def execHelloTimeout (pt : PortId) (s : State) : Res := .next (s.helloTimeout pt.val)

/-- PAUSE_FRAME (15 R420): ignored and dropped. -/
def execPauseFrame (_pt : PortId) (s : State) : Res := .next s

/-- OTHER_ETHERTYPE_FRAME (15 R422): dropped and counted. -/
def execOtherEthertypeFrame (pt : PortId) (s : State) : Res := .next (if s.portLive pt.val then s.dropFrame pt.val else s)

/-- DATA_FRAME (15 R425, R433-R435, R440, R442). -/
def execDataFrame (pt : PortId) (h : FrameHdr) (t : Option TargetBlk) (payload : List Byte) (s : State) : Res :=
  .next (s.dataFrame pt.val h t payload)

/-- ACK_FRAME (15 R431, R439, R440). -/
def execAckFrame (pt : PortId) (h : FrameHdr) (s : State) : Res := .next (s.ackFrame pt.val h)

/-- NAK_FRAME (15 R433, R434, R442). -/
def execNakFrame (pt : PortId) (h : FrameHdr) (status : Nat) (s : State) : Res := .next (s.nakFrame pt.val h status)

/-- RETIRE_FRAME (15 R431). -/
def execRetireFrame (pt : PortId) (h : FrameHdr) (s : State) : Res := .next (s.retireFrame pt.val h)

/-- COLL_FRAME (15 R441). -/
def execCollFrame (pt : PortId) (h : FrameHdr) (kind len : Nat) (payload : List Byte) (s : State) : Res :=
  .next (s.collFrame pt.val h kind len payload)

/-- ACTIVATE (15 R429): a write of FAB_JOB_CFG with ACTIVATE = 1. -/
def execActivate (p : PdkId) (val : Word) (ide : Option Nat) (s : State) : Res :=
  .next (s.vfWrite p.val 0x20208 ide (fun s => s.jobCfgWrite p.val ((val ||| 0x10000000000).toNat)))

/-- RETIRE (15 R431): a write of FAB_JOB_CFG with RETIRE = 1. -/
def execRetire (p : PdkId) (ide : Option Nat) (s : State) : Res :=
  .next (s.vfWrite p.val 0x20208 ide (fun s => s.jobCfgWrite p.val (2 ^ 41)))

/-- FAB_JOB_MEMBER_WRITE (15 R429). -/
def execFabJobMemberWrite (p : PdkId) (val : Word) (ide : Option Nat) (s : State) : Res :=
  .next (s.vfWrite p.val 0x20210 ide (fun s => s.jobMemberWrite p.val val.toNat))

/-- FAB_JOB_KEY_WRITE (15 R429, R430). -/
def execFabJobKeyWrite (p : PdkId) (k : Fin 4) (val : Word) (ide : Option Nat) (s : State) : Res :=
  .next (s.vfWrite p.val (0x20220 + 8 * k.val) ide (fun s => s.jobKeyWrite p.val k.val val))

/-- EYELET_OPEN (15 R432): a write of FAB_EYE_CFG with EN = 1. -/
def execEyeletOpen (p : PdkId) (val : Word) (ide : Option Nat) (s : State) : Res :=
  .next (s.vfWrite p.val 0x20108 ide (fun s => s.eyeCfgWrite p.val (val ||| 1).toNat))

/-- EYELET_CLOSE (15 R432, R442). -/
def execEyeletClose (p : PdkId) (ide : Option Nat) (s : State) : Res :=
  .next (s.vfWrite p.val 0x20108 ide (fun s =>
    if (s.eyelet p.val (s.pdk p.val).eyeSel).en then s.eyeClose p.val (s.pdk p.val).eyeSel else s))

/-- EYELET_ABANDON (15 R442). -/
def execEyeletAbandon (p : PdkId) (e : Nat) (s : State) : Res := .next (s.eyeAbandon p.val e)

/-- FAB_POSTQ_WRITE (15 R436). -/
def execFabPostqWrite (p : PdkId) (q : Fin 16) (val : Word) (ide : Option Nat) (s : State) : Res :=
  .next (s.vfWrite p.val (0x20000 + 8 * q.val) ide (fun s => s.postqWrite p.val q.val val.toNat))

/-- PUT (15 R436-R440). -/
def execPut (p : PdkId) (q : Fin 16) (s : State) : Res := .next (s.popPost p.val q.val 1)

/-- GET (15 R436-R440). -/
def execGet (p : PdkId) (q : Fin 16) (s : State) : Res := .next (s.popPost p.val q.val 2)

/-- STAT_SUM (15 R436-R438, R441; 11 R334). -/
def execStatSum (p : PdkId) (q : Fin 16) (s : State) : Res := .next (s.popPost p.val q.val 3)

/-- SUM_F32 (15 R436-R438, R441). -/
def execSumF32 (p : PdkId) (q : Fin 16) (s : State) : Res := .next (s.popPost p.val q.val 4)

/-- MAX_F32 (15 R436-R438, R441). -/
def execMaxF32 (p : PdkId) (q : Fin 16) (s : State) : Res := .next (s.popPost p.val q.val 5)

/-- COLLECTIVE_FOLD (15 R441). -/
def execCollectiveFold (p : PdkId) (j : Fin 16) (s : State) : Res :=
  .next (if s.jobUsable p.val j.val && s.ownRank p.val j.val = 0 then s.collFold p.val j.val else s)

/-- POST_COMPLETION (15 R436, R439). -/
def execPostCompletion (p : PdkId) (q : Fin 16) (s : State) : Res := .next (s.postCompletion p.val q.val)

/-- RESEND_TIMEOUT (15 R440). -/
def execResendTimeout (f : FlowId) (s : State) : Res := .next (s.resend f.pdk.val f.job.val f.rank.val)

/-- NOT_READY_RETRY (15 R434). -/
def execNotReadyRetry (f : FlowId) (s : State) : Res := .next (s.retryNotReady f.pdk.val f.job.val f.rank.val)

/-- RETIRE_RESEND (15 R431). -/
def execRetireResend (p : PdkId) (j : Fin 16) (s : State) : Res := .next (s.retireAgain p.val j.val)

/-- DEFERRED_ARRIVAL (15 R435). -/
def execDeferredArrival (c : CoreId) (s : State) : Res := .next (s.deliverArrivals c.val)

/-- FABRIC_LINK_UP (15 R421, R427): the port of an enabled link comes up without a mode yet. -/
def execFabricLinkUp (pt : PortId) (s : State) : Res :=
  .next (if bitAt s.fabCfg.portEn pt.val then s.modPort pt.val (fun x => { x with up := true, mode := .none, peer := 0, peerPort := 0 }) else s)

/-- FABRIC_LINK_DOWN (15 R428). -/
def execFabricLinkDown (pt : PortId) (s : State) : Res :=
  .next (s.modPort pt.val (fun x => { x with up := false, mode := .none, peer := 0, peerPort := 0 }))

end Sys2Proof.Machine
end

