-- ==== Sys2Proof/Machine/Bundle.lean ====
section
/-! DEFINITION. The bits of a bundle: its three slots read field by field (07 R208-R226), for the loader's check 13 (04 R111, R124). An
undefined encoding reads as nothing. -/

namespace Sys2Proof.Machine

namespace Bundle

/-- A scalar register field. -/
def xr (v : Nat) : XReg := Fin.ofNat 32 v
/-- An address register field. -/
def ar (v : Nat) : AReg := Fin.ofNat 16 v
/-- A row register field. -/
def wr (v : Nat) : WReg := Fin.ofNat 16 v

/-- `x` where a condition holds. -/
def only {α : Type} (c : Bool) (x : α) : Option α := if c then some x else none

/-- R-form operations 0x01 to 0x0D (07 R212). -/
def aluOps : List AluOp := [.add, .sub, .and, .or, .xor, .sll, .srl, .sra, .slt, .sltu, .min, .max, .mul]
/-- I-form operations 0x10 to 0x17 (07 R212). -/
def immOps : List AluImmOp := [.addi, .andi, .ori, .xori, .slli, .srli, .srai, .slti]
/-- B-form operations 0x20 to 0x25 (07 R212). -/
def conds : List Cond := [.eq, .ne, .lt, .ge, .ltu, .geu]

/-- The control slot, bits [31:0] of a bundle (07 R211, R212). -/
def control (v : Nat) : Option SlotOp :=
  let op := v % 256
  let rd := xr (bits v 12 8)
  let rs1 := xr (bits v 17 13)
  let imm14 := BitVec.ofNat 14 (bits v 31 18)
  let imm19 := BitVec.ofNat 19 (bits v 31 13)
  if op = 0 then only (bits v 31 8 = 0) .nop
  else if op ≤ 0x0D then only (bits v 31 23 = 0) (.alu (aluOps.getD (op - 1) .add) rd rs1 (xr (bits v 22 18)))
  else if 0x10 ≤ op && op ≤ 0x17 then some (.alui (immOps.getD (op - 0x10) .addi) rd rs1 imm14)
  else if op = 0x18 then some (.li rd imm19)
  else if op = 0x19 then only (bits v 31 31 = 0) (.lis rd (Fin.ofNat 4 (bits v 14 13)) (BitVec.ofNat 16 (bits v 30 15)))
  else if 0x20 ≤ op && op ≤ 0x25 then some (.branch (conds.getD (op - 0x20) .eq) rd rs1 imm14)
  else if op = 0x28 then some (.jal rd imm19)
  else if op = 0x29 then only (imm14 = 0) (.jr rd rs1)
  else if op = 0x30 then only (imm14 = 0 && bits v 12 12 = 0) (.amov (ar (bits v 11 8)) rs1)
  else if op = 0x31 then only (bits v 12 12 = 0 && bits v 17 17 = 0) (.aaddi (ar (bits v 11 8)) (ar (bits v 16 13)) imm14)
  else if op = 0x32 then only (imm14 = 0 && bits v 17 17 = 0) (.xmova rd (ar (bits v 16 13)))
  else if op = 0x38 then only (bits v 17 13 = 0) (.getsv rd imm14)
  else if op = 0x39 then only (bits v 31 13 = 0) (.rand rd)
  else if op = 0x3F then only (bits v 31 8 = 0) .stop
  else none

/-- Row-slot operations 0x01 to 0x0B (07 R218). -/
def laneOps : List LaneOp := [.add, .sub, .mul, .fma, .max, .min, .and, .or, .xor, .cmplt, .sel]

/-- The row slot, bits [79:32] of a bundle (07 R216-R219). -/
def row (v : Nat) : Option SlotOp :=
  let op := v % 256
  let wd := wr (bits v 11 8)
  let w1 := wr (bits v 15 12)
  let w2 := wr (bits v 19 16)
  let w3 := wr (bits v 23 20)
  let fmt : Fin 16 := Fin.ofNat 16 (bits v 27 24)
  let xs := bits v 32 28
  let sr := bits v 33 33
  let imm := bits v 47 34
  let plain : Bool := xs = 0 && sr = 0 && imm = 0
  if op = 0 then only (bits v 47 8 = 0) .vnop
  else if op ≤ 0x0B then
    let o := laneOps.getD (op - 1) .add
    only (plain && (op = 0x04 || op = 0x0B || w3 = 0)) (.lane o wd w1 w2 w3 fmt)
  else if op = 0x10 then
    only (w2 = 0 && w3 = 0 && xs = 0 && bits imm 13 6 = 0)
      (.vcvt wd w1 fmt (Fin.ofNat 16 (bits imm 3 0)) (Fin.ofNat 4 (bits imm 5 4)) (sr = 1))
  else if op = 0x11 then only (w1 = 0 && w2 = 0 && w3 = 0 && sr = 0 && imm = 0) (.vbcast wd (xr xs) fmt)
  else if op = 0x12 then
    only (wd = 0 && w2 = 0 && w3 = 0 && sr = 0 && imm ≤ 2)
      (.vred (xr xs) w1 fmt (if imm = 0 then .sum else if imm = 1 then .max else .min))
  else if op = 0x13 then
    only (w2 = 0 && w3 = 0 && xs = 0 && sr = 0 && imm < 64) (.vsfu wd w1 fmt (Fin.ofNat 64 imm))
  else none

/-- The move slot, bits [127:80] of a bundle (07 R221, R222; 08 R258; 09 R275, R281). -/
def move (v : Nat) : Option SlotOp :=
  let op := v % 256
  let reg := bits v 12 8
  let a := bits v 16 13
  let off := bits v 28 17
  let cnt := bits v 40 29
  let id := bits v 47 41
  let w := wr reg
  let x := xr reg
  let ad := ar a
  let off12 := BitVec.ofNat 12 off
  let cnt12 := BitVec.ofNat 12 cnt
  let h : Fin 16 := Fin.ofNat 16 id
  let pair : Fin 64 := Fin.ofNat 64 id
  let ctr : Fin 2 := Fin.ofNat 2 (id / 64)
  let q : Fin 128 := Fin.ofNat 128 id
  let isW : Bool := reg < 16
  match op with
  | 0x00 => only (v = 0) .mnop
  | 0x01 => only (isW && cnt = 0 && id = 0) (.ldr w ad off12)
  | 0x02 => only (isW && cnt = 0 && id = 0) (.str w ad off12)
  | 0x03 => only (isW && cnt = 0 && id = 0) (.lda w ad off12)
  | 0x04 => only (isW && cnt = 0 && id = 0) (.sta w ad off12)
  | 0x05 => only (id = 0) (.fill x ad off12 cnt12)
  | 0x06 => only (id = 0) (.copy x ad off12 cnt12)
  | 0x08 => only (a = 0 && ((off = 0 && reg = 0) || off = 1)) (.semsig pair ctr cnt12 (off = 1) x)
  | 0x09 => only (reg = 0 && a = 0 && off = 0) (.semwait pair ctr cnt12)
  | 0x0A => only (a = 0 && off = 0 && cnt = 0) (.hqpush q x)
  | 0x0B => only (a = 0 && off = 0 && cnt = 0) (.hqpop q x)
  | 0x0C =>
    if off = 0 then only (a = 0 && id < 64) (.claimTake pair cnt12 x)
    else only (off = 1 && a = 0 && cnt = 0 && id < 64) (.claimArm pair x)
  | 0x10 => only (reg = 0 && off = 0 && id < 16) (.strmgo h cnt12 ad)
  | 0x11 => only (reg = 0 && a = 0 && off = 0 && cnt = 0 && id < 16) (.strmswap h)
  | 0x12 => only (a = 0 && off = 0 && cnt = 0 && id < 16) (.strmwait h x)
  | 0x14 =>
    if off = 0 then only (isW && a = 0 && cnt = 0 && id < 16) (.hoopPush h w)
    else only (off = 1 && reg = 0 && id < 16) (.hoopConfig h ad cnt12)
  | 0x15 =>
    match off with
    | 0 => only (isW && a = 0 && cnt = 0 && id < 16) (.hoopPop h w)
    | 1 => only (isW && a = 0 && id < 16) (.hoopPeek h w cnt12)
    | 2 => only (reg = 0 && a = 0 && id < 16) (.hoopDrop h cnt12)
    | 3 => only (a = 0 && cnt = 0 && id < 16) (.hoopCount h x)
    | _ => none
  | 0x18 =>
    if off ≤ 1 then only (a = 0 && cnt = 0) (.arrwait q x (off = 1))
    else only (off = 2 && reg = 0 && a = 0 && cnt = 0) (.arrReset q)
  | 0x1C => only (a = 0 && off = 0 && cnt = 0 && id = 0) (.mwait x)
  | _ => none

/-- Operations of a Yard descriptor are chosen in the descriptor; the bundle names only the class (07 R226, 13 R368). -/
def macroBundle (v : Nat) : Option (List SlotOp) :=
  let m : MacroOp := if v % 256 = 0xE0 then .matmul else if v % 256 = 0xE1 then .attend else .yard .create
  only (bits v 31 29 = 0 && v / 2 ^ 32 = 0) [.mac m (ar (bits v 11 8)) (BitVec.ofNat 12 (bits v 23 12)) (xr (bits v 28 24))]

/-- Whether a bundle is a macro-instruction (07 R208). -/
def isMacro (v : Nat) : Bool := 0xE0 ≤ v % 256 && v % 256 ≤ 0xE2

/-- A whole bundle (07 R208-R226); nothing where it is an undefined encoding by itself (07 R210). -/
def decode (v : Nat) : Option (List SlotOp) :=
  if isMacro v then macroBundle v
  else match control (v % 2 ^ 32), row (v / 2 ^ 32 % 2 ^ 48), move (v / 2 ^ 80) with
    | some c, some r, some m => only (bundleWf [c, r, m]) [c, r, m]
    | _, _, _ => none

/-- Byte of a bundle where its first undefined slot starts: control 0, row 4, move 10; 0 for the bundle as a whole (04 R125; log 51, DESIGN CHOICE). -/
def badByte (v : Nat) : Nat :=
  if isMacro v then 0
  else if (control (v % 2 ^ 32)).isNone then 0
  else if !((row (v / 2 ^ 32 % 2 ^ 48)).elim false slotWf) then 4
  else if !((move (v / 2 ^ 80)).elim false slotWf) then 10
  else 0

/-- The target of a branch or JAL at bundle `i` (07 R212). -/
def target (i : Nat) : SlotOp → Option Int
  | .branch _ _ _ off => some (i + off.toInt)
  | .jal _ off => some (i + off.toInt)
  | _ => none

/-- Whether a bundle transfers: a branch, JAL or JR (07 R210, R213). -/
def transfers : SlotOp → Bool
  | .branch .. | .jal .. | .jr .. => true
  | _ => false

/-- First bundle of a program that the loader refuses, with the byte in it (07 R210, R213): the bundles from index `i` on, a program of
`n` bundles, the two bundles before. -/
def firstBad (img : TenImage) (n : Nat) : Nat → List Nat → Bool → Bool → Option (Nat × Nat)
  | _, [], _, _ => none
  | i, v :: t, t1, t2 =>
    match decode v with
    | none => some (i, badByte v)
    | some ops =>
      let far := ops.any (fun o => (target i o).elim false (fun k => k < 0 || (n : Int) ≤ k))
      let delayed := (t1 || t2) && ops.any isTransfer
      if far || delayed then some (i, 0)
      else if !State.bundleOk img ops then
        some (i, if ops.any (fun o => match o with
          | .vsfu .. => !State.bundleOk img [o]
          | _ => false) then 4 else 10)
      else firstBad img n (i + 1) t (ops.any transfers) t1

end Bundle

end Sys2Proof.Machine
end

