-- ==== Sys2Proof/Machine/Image.lean ====
section
/-! DEFINITION. Bolpa images: their layout, and the loader's checks 8 to 16 over an image's bytes (04 R98-R119, R124, R125; 05 R139). -/

namespace Sys2Proof.Machine

/-- One entry of the section table with its index (04 R100). -/
structure Sect where
  idx : Nat
  typ : Nat
  off : Nat
  len : Nat
  cnt : Nat
deriving DecidableEq, Repr

/-- What the loader knows beside the image's bytes: the versions it compares with, the enrolled key digests, and for a tenant load the
platform, the paddock's quota and where the image lies in the paddock (04 R116, R118, R124). -/
structure LoadCtx where
  kind    : Nat
  fwMinor : Nat
  fwMajor : Nat
  ucMinor : Nat
  ucMajor : Nat
  keys    : List (List Byte)
  plat    : Platform
  quota   : Quota
  src     : Nat
deriving DecidableEq, Repr

/-- A failing field: its offset in the image, its section, its code (04 R125). -/
abbrev Bad := Nat × Nat × Nat

namespace Img

/-- A failure where a condition fails to hold. -/
def need (ok : Bool) (off sec : Nat) (code : Nat := Status.imageInvalid) : List Bad := if ok then [] else [(off, sec, code)]

/-- The failing field that comes first in image order (04 R125). -/
def first : List Bad → Option Bad
  | [] => none
  | b :: t => match first t with
    | some c => some (if c.1 < b.1 then c else b)
    | none => some b

/-- Field `k`, `n` bytes, of an item that starts at `off`, held to a range. -/
def rng (it : List Byte) (off sec k n lo hi : Nat) : List Bad := need (lo ≤ fieldAt it k n && fieldAt it k n ≤ hi) (off + k) sec

/-- A reserved field: zero. -/
def zero (it : List Byte) (off sec k n : Nat) : List Bad := need (zeroAt it k n) (off + k) sec

/-! ### Header and section table (04 R98-R101) -/

/-- Index used for the header and the section table (LDR_STATUS.SECTION). -/
def hdr : Nat := 0xFF

/-- Check 8 (04 R99, R124). -/
def check8 (d : List Byte) (kind len : Nat) : List Bad :=
  need (fieldAt d 0 8 = 0x41504C4F42) 0 hdr ++ need (fieldAt d 0x0A 1 = kind) 0x0A hdr
    ++ zero d 0 hdr 0x0B 1 ++ rng d 0 hdr 0x0C 2 2 64 ++ zero d 0 hdr 0x0E 2 ++ need (fieldAt d 0x10 8 = len) 0x10 hdr
    ++ need (fieldAt d 0x18 4 = 128) 0x18 hdr ++ zero d 0 hdr 0x1C 4 ++ zero d 0 hdr 0x50 48

/-- Check 9 (04 R124). -/
def check9 (d : List Byte) : List Bad :=
  need (fieldAt d 8 1 ≤ Config.bolpaMinor.toNat) 8 hdr Status.versionUnsupported ++ need (fieldAt d 9 1 = 1) 9 hdr Status.versionUnsupported

/-- A section type: kind (1 platform, 2 tenant, 3 either), least and most occurrences, item size (0 variable), least and most items
(04 R101). -/
structure SType where
  typ  : Nat
  kind : Nat
  lo   : Nat
  hi   : Nat
  size : Nat
  imin : Nat
  imax : Nat
deriving DecidableEq, Repr

/-- The section types (04 R101). -/
def types : List SType :=
  [⟨0x0101, 1, 1, 1, 64, 64, 64⟩, ⟨0x0102, 1, 1, 1, 8, 240, 240⟩, ⟨0x0103, 1, 1, 1, 64, 1, 1⟩, ⟨0x0104, 1, 1, 1, 528, 0, 32⟩,
   ⟨0x0105, 1, 0, 1, 64, 1, 1⟩, ⟨0x0201, 2, 1, 16, 16, 1, 65536⟩, ⟨0x0202, 2, 1, 1, 16, 1, 256⟩, ⟨0x0203, 2, 0, 1, 256, 1, 1024⟩,
   ⟨0x0204, 2, 0, 1, 32, 1, 128⟩, ⟨0x0205, 2, 0, 1, 64, 1, 256⟩, ⟨0x0206, 2, 0, 1, 16, 1, 2048⟩, ⟨0x0207, 2, 0, 1, 0, 1, 16⟩,
   ⟨0x0208, 2, 1, 1, 32, 0, 4096⟩, ⟨0x0209, 2, 0, 1, 4, 1, 32⟩, ⟨0x020A, 2, 1, 1, 64, 1, 1⟩, ⟨0x0F00, 3, 0, 8, 1, 0, 2 ^ 32⟩,
   ⟨0x0FFF, 3, 1, 1, 256, 1, 1⟩]

/-- Whether a type may stand in an image of a kind. -/
def fits (t : SType) (kind : Nat) : Bool := t.kind = 3 || t.kind = kind

/-- The entries of the section table (04 R100). -/
def sects (d : List Byte) (n : Nat) : List Sect :=
  (List.range n).map (fun i => let a := 128 + 16 * i
    { idx := i, typ := fieldAt d a 2, off := fieldAt d (a + 4) 4, len := fieldAt d (a + 8) 4, cnt := fieldAt d (a + 12) 4 })

/-- The walk over the graphs of a TEN_FRAMEGRAPH section: where it fails, the table's LENGTH field if it does not end there (04 R101). -/
def walkBad (d : List Byte) (stop lenField : Nat) : Nat → Nat → Option Nat
  | 0, pos => if pos = stop then none else some lenField
  | n + 1, pos =>
    let l := fieldAt d pos 4
    if l % 32 ≠ 0 || l < 96 || stop < pos + l then some pos else walkBad d stop lenField n (pos + l)

/-- Starts of the graphs of a section that the walk accepts. -/
def graphStarts (d : List Byte) : Nat → Nat → List Nat
  | 0, _ => []
  | n + 1, pos => pos :: graphStarts d n (pos + fieldAt d pos 4)

/-- Failures of one entry that follows `before` earlier entries, the last of which ends at `prev` (04 R98, R100, R101). The entry's reserved
field belongs to check 13 (R124). -/
def entryBad (d : List Byte) (kind len n prev : Nat) (before : List Sect) (e : Sect) : List Bad :=
  let a := 128 + 16 * e.idx
  match types.find? (fun t => t.typ = e.typ && fits t kind) with
  | none => [(a, e.idx, Status.imageInvalid)]
  | some t =>
    let earlier := (before.filter (fun x => x.typ = e.typ)).length
    need (earlier < t.hi && (e.typ ≠ 0x0FFF || e.idx + 1 = n)) a e.idx
      ++ need (e.off % 64 = 0 && prev ≤ e.off && e.off ≤ len) (a + 4) e.idx
      ++ need (e.off + e.len ≤ len && (e.typ ≠ 0x0FFF || e.off + e.len = len) && (t.size = 0 || e.len = e.cnt * t.size)) (a + 8) e.idx
      ++ need (t.imin ≤ e.cnt && e.cnt ≤ t.imax) (a + 12) e.idx
      ++ (if t.size = 0 then (match walkBad d (e.off + e.len) (a + 8) e.cnt e.off with
            | some p => [(p, e.idx, Status.imageInvalid)]
            | none => []) else [])
      ++ need (e.off < prev || zeroAt d prev (e.off - prev)) (128 + 16 * n) hdr

/-- Failures of the entries in order. -/
def tableBad (d : List Byte) (kind len n : Nat) : List Sect → List Sect → Nat → List Bad
  | _, [], _ => []
  | before, e :: t, prev => entryBad d kind len n prev before e ++ tableBad d kind len n (before ++ [e]) t (e.off + e.len)

/-- Check 10 (04 R98-R101, R124, R125). -/
def check10 (d : List Byte) (kind len n : Nat) : List Bad :=
  let es := sects d n
  let end_ := 128 + 16 * n
  need (end_ ≤ len) end_ hdr ++ tableBad d kind len n [] es end_
    ++ types.flatMap (fun t => need (!fits t kind || t.lo ≤ (es.filter (fun e => e.typ = t.typ)).length) end_ hdr)

/-- The sections of a type. -/
def ofType (es : List Sect) (typ : Nat) : List Sect := es.filter (fun e => e.typ = typ)

/-- The items of every section of a type: section, offset, bytes. -/
def items (d : List Byte) (es : List Sect) (typ size : Nat) : List (Nat × Nat × List Byte) :=
  (ofType es typ).flatMap (fun e => (List.range e.cnt).map (fun i => let o := e.off + size * i
    (e.idx, o, (d.drop o).take size)))

/-- Offset and index of the SIG section (04 R114). -/
def sig (es : List Sect) : Nat × Nat := match (ofType es 0x0FFF).head? with
  | some e => (e.off, e.idx)
  | none => (0, 0)

/-- The 96 key bytes of the SIG section. -/
def sigKey (d : List Byte) (es : List Sect) : List Byte := (d.drop ((sig es).1 + 8)).take 96

/-- The signed bytes, which are also the measured bytes (04 R115). -/
def signed (d : List Byte) (es : List Sect) : List Byte := d.take (sig es).1

/-- The measurement of an image (04 R115). -/
def meas (d : List Byte) (es : List Sect) : BitVec 384 := Crypto.sha384 (signed d es)

/-- Check 11 (04 R114-R117). An ALG that R114 does not list fails here, as an image whose signature cannot verify (log 79, DEDUCED). -/
def check11 (x : LoadCtx) (d : List Byte) (es : List Sect) : List Bad :=
  let (o, i) := sig es
  let key := sigKey d es
  need (fieldAt d o 2 = 1) o i
    ++ need (x.kind ≠ 1 || x.keys.contains (leBytes 48 (Crypto.sha384 key).toNat)) (o + 8) i
    ++ need (Crypto.ecdsaVerify key ((d.drop (o + 0x68)).take 96) (signed d es)) (o + 0x68) i

/-- Check 12 (04 R118, R132). -/
def check12 (x : LoadCtx) (d : List Byte) : List Bad :=
  let v (ok : Bool) (k : Nat) : List Bad := need ok k hdr Status.versionUnsupported
  v (fieldAt d 0x20 2 = 0x0256) 0x20 ++ v (fieldAt d 0x22 1 ≤ 0xB0) 0x22 ++ v (zeroAt d 0x23 1) 0x23
    ++ v (fieldAt d 0x24 1 ≤ x.fwMinor) 0x24 ++ v (fieldAt d 0x25 1 = x.fwMajor) 0x25 ++ v (fieldAt d 0x26 1 ≤ x.ucMinor) 0x26
    ++ v (fieldAt d 0x27 1 = x.ucMajor) 0x27 ++ v (fieldAt d 0x28 4 < 16) 0x28 ++ v (zeroAt d 0x2C 20) 0x2C

/-- The reserved fields of the section table and of SIG (04 R100, R114, R124 check 13). -/
def reservedBad (d : List Byte) (es : List Sect) : List Bad :=
  let (o, i) := sig es
  es.flatMap (fun e => zero d 0 e.idx (130 + 16 * e.idx) 2) ++ zero d 0 i (o + 2) 6 ++ zero d 0 i (o + 0xC8) 56

/-! ### Platform images (04 R103-R109) -/

/-- The fields that PLAT_QUOTA and TEN_NEEDS share (04 R103, R110). -/
def quotaOf (it : List Byte) (base count : Nat) : Quota :=
  { frameBase := base, frameCount := count, sequences := fieldAt it 0x08 4, pages := fieldAt it 0x0C 4, loftMib := fieldAt it 0x10 4,
    mangerSlots := fieldAt it 0x14 2, rings := fieldAt it 0x16 2, eyelets := fieldAt it 0x18 2, bays := fieldAt it 0x1A 1,
    loftGrants := fieldAt it 0x1B 1, mcastGroups := fieldAt it 0x1C 1 }

/-- Ranges of those shared fields. -/
def quotaRng (it : List Byte) (o i : Nat) : List Bad :=
  rng it o i 0x08 4 0 65536 ++ rng it o i 0x0C 4 0 4194304 ++ rng it o i 0x10 4 0 1048576 ++ rng it o i 0x14 2 0 16384
    ++ rng it o i 0x16 2 0 256 ++ rng it o i 0x18 2 0 4096 ++ rng it o i 0x1A 1 0 16 ++ rng it o i 0x1B 1 0 16 ++ rng it o i 0x1C 1 0 64
    ++ zero it o i 0x1D 35

/-- Whether a frame range meets none of some others. -/
def apart (b n : Nat) (rs : List (Nat × Nat)) : Bool := n = 0 || rs.all (fun r => r.2 = 0 || b + n ≤ r.1 || r.1 + r.2 ≤ b)

/-- Steps that the published programs take (11 R324). -/
def publishedLen : Nat → Option Nat
  | 1 => some 6
  | 2 => some 12
  | 3 => some 13
  | 4 => some 18
  | 5 => some 7
  | 6 => some 8
  | 7 => some 14
  | _ => none

/-- What a native program gives at −∞, −0, +0 and +∞ (11 R325). -/
def specials : Nat → List (Nat × Nat)
  | 1 => [(0xFF800000, 0), (0x80000000, 0x3F800000), (0, 0x3F800000), (0x7F800000, 0x7F800000)]
  | 2 => [(0xFF800000, 0), (0x80000000, 0x3F000000), (0, 0x3F000000), (0x7F800000, 0x3F800000)]
  | 3 => [(0xFF800000, 0x80000000), (0x80000000, 0x80000000), (0, 0), (0x7F800000, 0x7F800000)]
  | 4 => [(0xFF800000, 0x80000000), (0x80000000, 0x80000000), (0, 0), (0x7F800000, 0x7F800000)]
  | 5 => [(0xFF800000, 0x80000000), (0x80000000, 0xFF800000), (0, 0x7F800000), (0x7F800000, 0)]
  | 6 => [(0xFF800000, 0x7FC00000), (0x80000000, 0xFF800000), (0, 0x7F800000), (0x7F800000, 0)]
  | 7 => [(0xFF800000, 0), (0x80000000, 0x3F317218), (0, 0x3F317218), (0x7F800000, 0x7F800000)]
  | _ => []

/-- Whether a program is as long as R324 says and gives the special results of R325: those of `specials`, the canonical NaN for every NaN,
and for RSQRT also for every input below zero. -/
def meetsTable (f : Nat) (w : List Word) : Bool :=
  let ev (k : Nat) : BitVec 32 := sfEval false (.prog w) (BitVec.ofNat 32 k)
  publishedLen f = some w.length && (specials f).all (fun e => ev e.1 = BitVec.ofNat 32 e.2)
    && (List.range (2 ^ 32)).all (fun k => !(isNan (BitVec.ofNat 32 k) || (f = 6 && 2 ^ 31 < k)) || ev k = qnan)

/-- A step word (11 R321): operation, destination, sources A and B, modifier, immediate. -/
def step (op d a b md imm : Nat) : Word := BitVec.ofNat 64 (op + d * 2 ^ 8 + a * 2 ^ 12 + b * 2 ^ 16 + md * 2 ^ 24 + imm * 2 ^ 32)

/-- t1 ← 1 ÷ (1 + 2^(k x)) for an FP32 constant k: e^−x for k = −log₂ e. -/
def logistic (k : Nat) : List Word :=
  [step 5 1 0 7 0 k, step 8 1 1 0 0 0, step 1 2 0 0 0 0x3F800000, step 2 1 1 2 0 0, step 9 1 1 0 0 0, step 8 1 1 0 2 0]

/-- x times t1, with the limits −0 and +∞ at the infinities (SELF takes C = t3 where x is not finite). -/
def gated : List Word := [step 1 3 0 0 0 0x80000000, step 6 3 0 3 0 0, step 3 1 0 1 0 0, step 11 0 0 1 0 0 + BitVec.ofNat 64 (3 * 2 ^ 20)]

/-- A program that gives the special results of R325, before it is brought to its length. It stands where the published words, which the
manual does not print, would not meet that table (log 8, PRESUMED). -/
def standIn : Nat → List Word
  | 1 => [step 5 1 0 7 0 0x3FB8AA3B, step 8 0 1 0 0 0]
  | 2 => logistic 0xBFB8AA3B ++ [step 2 0 1 7 0 0]
  | 3 => logistic 0xBFB8AA3B ++ gated
  | 4 => logistic 0xC01D2F9F ++ gated
  | 6 => [step 9 1 0 0 0 0, step 5 1 1 7 0 0xBF000000, step 8 1 1 0 0 0, step 12 0 1 0 0 0]
  | 7 => [step 5 1 0 7 0 0x3FB8AA3B, step 8 1 1 0 0 0, step 1 2 0 0 0 0x3F800000, step 2 1 1 2 0 0, step 9 1 1 0 0 0, step 5 0 1 7 0 0x3F317218]
  | _ => []

/-- Otveda's published program for a FUNC (11 R324): RCP is printed in the manual. The words of the others are not, so they are free, within
what R324 and R325 say of the native ones: their length and their results at special inputs (log 8, PRESUMED). -/
def published (f : Nat) : List Word :=
  if f = 5 then rcpSteps
  else match publishedLen f with
    | some n => if meetsTable f (Config.publishedSteps f) then Config.publishedSteps f else
        standIn f ++ List.replicate (n - (standIn f).length) (step 1 6 0 0 0 0)
    | none => Config.publishedSteps f

/-- Whether a FUNC is that of a published program. -/
def isPublished (f : Nat) : Bool := (1 ≤ f && f ≤ 7) || (0x101 ≤ f && f ≤ 0x107)

/-- Whether a step word is an encoding (11 R321-R323): its OP, the fields that the OP uses, zero elsewhere. -/
def stepOk (w : Nat) : Bool :=
  let op := w % 256
  let a := bits w 14 12
  let b := bits w 18 16
  let c := bits w 22 20
  let md := bits w 31 24
  let imm := bits w 63 32
  bits w 11 11 = 0 && bits w 15 15 = 0 && bits w 19 19 = 0 && bits w 23 23 = 0 && md < 4
    && (match op with
      | 0x01 => a = 0 && b = 0 && c = 0 && md = 0
      | 0x02 => c = 0 && imm = 0
      | 0x03 => c = 0 && imm = 0
      | 0x04 => imm = 0
      | 0x05 => c = 0
      | 0x06 => c = 0 && imm = 0
      | 0x07 => c = 0 && imm = 0
      | 0x08 => b = 0 && c = 0 && imm = 0
      | 0x09 => b = 0 && c = 0 && imm = 0
      | 0x0A => imm = 0
      | 0x0B => imm = 0
      | 0x0C => c = 0 && imm = 0
      | _ => false)

/-- The step words of a PLAT_SFU item. -/
def sfuSteps (it : List Byte) : List Word := (List.range (fieldAt it 3 1)).map (fun i => BitVec.ofNat 64 (fieldAt it (16 + 8 * i) 8))

/-- Failures of a PLAT_SFU item (04 R108; 11 R323, R324). -/
def sfuBad (named : List Nat) (o i : Nat) (it : List Byte) : List Bad :=
  let f := fieldAt it 1 2
  let n := fieldAt it 3 1
  need (fieldAt it 0 1 ≤ 31 && !named.contains (fieldAt it 0 1)) o i
    ++ need (isPublished f || 0x8000 ≤ f) (o + 1) i
    ++ need (n ≤ 64 && (!isPublished f || n = (published f).length)) (o + 3) i
    ++ zero it o i 4 12
    ++ (List.range 64).flatMap (fun k => let w := fieldAt it (16 + 8 * k) 8
      need (if n ≤ k then w = 0 else stepOk w && (!isPublished f || BitVec.ofNat 64 w = (published f).getD k 0)) (o + 16 + 8 * k) i)

/-- Failures of the items of a section one after another, each told the keys of those before it. -/
def uniqueBad (key : List Byte → Nat) (f : List Nat → Nat → Nat → List Byte → List Bad) :
    List Nat → List (Nat × Nat × List Byte) → List Bad
  | _, [] => []
  | seen, (i, o, it) :: t => f seen o i it ++ uniqueBad key f (seen ++ [key it]) t

/-- Failures of a PLAT_ROUTE entry; `seen` holds source × 16 + destination of the entries before it (04 R107). -/
def routeBad (seen : List Nat) (o i : Nat) (it : List Byte) : List Bad :=
  let src := fieldAt it 0 1
  let dst := fieldAt it 1 1
  need (src ≤ 15 && !seen.contains (src * 256 + dst)) o i ++ need (dst ≤ 15 && src ≠ dst) (o + 1) i
    ++ rng it o i 2 1 0 3 ++ rng it o i 3 1 1 100 ++ zero it o i 4 4

/-- Where the shares of a source bay and plane pass 100 percent (04 R107). -/
def shareBad (rs : List (Nat × Nat × List Byte)) : List Bad :=
  (List.range rs.length).flatMap (fun k => match rs[k]? with
    | none => []
    | some (i, o, it) =>
      let same := (rs.take (k + 1)).filter (fun r => fieldAt r.2.2 0 1 = fieldAt it 0 1 && fieldAt r.2.2 2 1 = fieldAt it 2 1)
      need ((same.map (fun r => fieldAt r.2.2 3 1)).foldl (· + ·) 0 ≤ 100) (o + 3) i)

/-- Check 13 of a platform image (04 R103-R109, R124; 11 R323, R324). -/
def platBad (d : List Byte) (es : List Sect) : List Bad :=
  let qs := items d es 0x0101 64
  let ys := items d es 0x0103 64
  let rs := items d es 0x0102 8
  let ranges := qs.map (fun q => (fieldAt q.2.2 0 4, fieldAt q.2.2 4 4)) ++ ys.map (fun y => (fieldAt y.2.2 4 4, fieldAt y.2.2 8 4))
  let others (k : Nat) : List (Nat × Nat) := ranges.eraseIdx k
  reservedBad d es
    ++ ((List.range qs.length).zip qs).flatMap (fun e => let (k, i, o, it) := e
      rng it o i 0 4 0 49151 ++ rng it o i 4 4 0 49152 ++ quotaRng it o i
        ++ need (fieldAt it 0 4 + fieldAt it 4 4 ≤ 49152) (o + 4) i
        ++ need (apart (fieldAt it 0 4) (fieldAt it 4 4) (others k)) o i)
    ++ ys.flatMap (fun e => let (i, o, it) := e
      rng it o i 0 1 1 64 ++ zero it o i 1 3 ++ rng it o i 8 4 1 49152 ++ zero it o i 12 52
        ++ need (fieldAt it 4 4 + fieldAt it 8 4 ≤ 49152) (o + 8) i
        ++ need (apart (fieldAt it 4 4) (fieldAt it 8 4) (others qs.length)) (o + 4) i)
    ++ uniqueBad (fun it => fieldAt it 0 1 * 256 + fieldAt it 1 1) routeBad [] rs ++ shareBad rs
    ++ uniqueBad (fun it => fieldAt it 0 1) sfuBad [] (items d es 0x0104 528)
    ++ (items d es 0x0105 64).flatMap (fun e => let (i, o, it) := e
      rng it o i 0 2 0x600 0xFFFF ++ rng it o i 2 2 0 1023 ++ rng it o i 5 1 1 2 ++ zero it o i 6 58)

/-- What a platform image fixes (04 R102-R109). -/
def platOf (d : List Byte) (es : List Sect) : Platform :=
  let y := match (items d es 0x0103 64).head? with
    | some e => e.2.2
    | none => []
  { quotas := (items d es 0x0101 64).map (fun e => quotaOf e.2.2 (fieldAt e.2.2 0 4) (fieldAt e.2.2 4 4))
    stride := fieldAt y 0 1
    poolBase := fieldAt y 4 4
    poolFrames := fieldAt y 8 4
    routes := (items d es 0x0102 8).map (fun e => { src := fieldAt e.2.2 0 1, dst := fieldAt e.2.2 1 1, plane := fieldAt e.2.2 2 1,
                                                    share := fieldAt e.2.2 3 1 })
    sfu := ((items d es 0x0104 528).filter (fun e => fieldAt e.2.2 3 1 ≠ 0)).map (fun e =>
      { slot := fieldAt e.2.2 0 1, func := fieldAt e.2.2 1 2, steps := sfuSteps e.2.2 })
    fabric := (items d es 0x0105 64).head?.map (fun e =>
      { ethertype := fieldAt e.2.2 0 2, device := fieldAt e.2.2 2 2, portEn := fieldAt e.2.2 4 1, protect := fieldAt e.2.2 5 1 })
    meas := meas d es }

/-- The entry at which the sum of a quota field passes its limit (04 R104, R125). -/
def sumBad (qs : List (Nat × Nat × List Byte)) (k n limit : Nat) : List Bad :=
  (List.range qs.length).flatMap (fun j => match qs[j]? with
    | none => []
    | some (i, o, _) => need (((qs.take (j + 1)).map (fun q => fieldAt q.2.2 k n)).foldl (· + ·) 0 ≤ limit) (o + k) i Status.resourceShort)

/-- Check 16 of a platform image (04 R104, R106). -/
def platSums (d : List Byte) (es : List Sect) : List Bad :=
  let qs := items d es 0x0101 64
  let pl := platOf d es
  let page := 16 * 128 * pl.stride
  sumBad qs 0x08 4 65536 ++ sumBad qs 0x0C 4 (min (pl.poolFrames * frameSize / page) 4194304) ++ sumBad qs 0x14 2 (33554432 / page)
    ++ sumBad qs 0x16 2 256 ++ sumBad qs 0x18 2 4096 ++ sumBad qs 0x1C 1 64 ++ sumBad qs 0x10 4 1048576

/-! ### Tenant images (04 R110-R119) -/

/-- A Pricking instruction (10 R298); nothing where it is undefined. -/
def insnOf (w : Nat) : Option PrickInsn :=
  let hi := (BitVec.ofNat 32 (w / 2 ^ 32)).toInt
  match w % 256 with
  | 1 =>
    let x := bitAt w 8
    let n := if x then bits w 20 16 else bits w 31 16
    if bits w 15 9 = 0 && (!x || bits w 31 21 = 0) && hi % 64 = 0 then some (.loop x n hi) else none
  | 2 => if w / 256 = 0 then some .endl else none
  | 3 => let l := bits w 31 8; if l % 64 = 0 && l ≤ 65536 && w / 2 ^ 32 = 0 then some (.xfer l) else none
  | 4 => if w / 256 = 0 then some .tile else none
  | 5 => if bits w 31 8 = 0 && hi % 64 = 0 then some (.adda hi) else none
  | _ => none

/-- Where the nesting of loops goes wrong: a LOOP deeper than four, or an ENDL without one (10 R298). -/
def nestBad : Nat → Nat → List PrickInsn → Option Nat
  | k, depth, [] => if depth = 0 then none else some (k - 1)
  | k, depth, .loop .. :: t => if 4 ≤ depth then some k else nestBad (k + 1) (depth + 1) t
  | k, depth, .endl :: t => if depth = 0 then some k else nestBad (k + 1) (depth - 1) t
  | k, depth, _ :: t => nestBad (k + 1) depth t

/-- The instructions of a TEN_PRICK item, undefined ones left out. -/
def insnsOf (it : List Byte) : List PrickInsn := (List.range (min 28 (fieldAt it 2 1))).filterMap (fun k => insnOf (fieldAt it (32 + 8 * k) 8))

/-- Failures of a TEN_PRICK item (10 R297, R298). -/
def prickBad (groups o i : Nat) (it : List Byte) : List Bad :=
  let dir := fieldAt it 0 1
  let n := fieldAt it 2 1
  rng it o i 0 1 0 3 ++ need (fieldAt it 1 1 = 0 || (fieldAt it 1 1 = 1 && dir ≠ 1 && dir ≠ 3)) (o + 1) i ++ rng it o i 2 1 0 28
    ++ need (dir ≠ 1 || fieldAt it 3 1 = 0) (o + 3) i ++ rng it o i 4 2 0 4095 ++ rng it o i 6 2 1 2048
    ++ need (if dir = 2 then fieldAt it 8 1 < groups else fieldAt it 8 1 = 0) (o + 8) i
    ++ need (dir = 3 || fieldAt it 9 1 = 0) (o + 9) i ++ zero it o i 10 22
    ++ (List.range 28).flatMap (fun k => let w := fieldAt it (32 + 8 * k) 8
      need (if n ≤ k then w = 0 else (insnOf w).isSome) (o + 32 + 8 * k) i)
    ++ (match nestBad 0 0 (insnsOf it) with
      | some k => [(o + 32 + 8 * k, i, Status.imageInvalid)]
      | none => [])

/-- A TEN_PRICK item (10 R297). -/
def prickOf (it : List Byte) : Prick :=
  { dir := fieldAt it 0 1, deadline := fieldAt it 1 1 = 1, arrival := fieldAt it 3 1, bufRow := fieldAt it 4 2, halfRows := fieldAt it 6 2,
    group := fieldAt it 8 1, target := fieldAt it 9 1, insns := insnsOf it }

/-- A TEN_BUCKET item (08 R248). -/
def bucketOf (it : List Byte) : Bucket :=
  { program := fieldAt it 0 1, vary := fieldAt it 1 1, order := fieldAt it 2 1, db := bitAt (fieldAt it 3 1) 0, size := fieldAt it 4 4,
    dim1 := fieldAt it 8 4, dim2 := fieldAt it 12 4, tm := fieldAt it 16 2, tn := fieldAt it 18 2, tk := fieldAt it 20 2,
    fmtA := fieldAt it 22 1, fmtB := fieldAt it 23 1, aRows := fieldAt it 24 2, bRows := fieldAt it 26 2, cRows := fieldAt it 28 2 }

/-- Failures of a TEN_BUCKET item at check 13; `prev` are the buckets of its program before it (04 R111; 08 R238, R241, R248). -/
def bucketBad (progs : Nat) (prev : List Bucket) (o i : Nat) (it : List Byte) : List Bad :=
  let abf := [1, 3, 4, 5, 6, 7, 8]
  let b := bucketOf it
  need (b.program < progs && prev.length < 8) o i ++ rng it o i 1 1 0 2 ++ rng it o i 2 1 0 5 ++ rng it o i 3 1 0 1
    ++ need (1 ≤ b.size && b.size < 2 ^ 24 && prev.all (fun c => c.size < b.size)) (o + 4) i ++ rng it o i 8 4 0 (2 ^ 24 - 1)
    ++ rng it o i 12 4 0 (2 ^ 24 - 1) ++ rng it o i 16 2 1 512
    ++ need (b.tn % 128 = 0 && 128 ≤ b.tn && b.tn ≤ 65408) (o + 18) i ++ need (b.tk % 128 = 0 && 128 ≤ b.tk && b.tk ≤ 65408) (o + 20) i
    ++ need (abf.contains b.fmtA) (o + 22) i ++ need (abf.contains b.fmtB && (b.fmtA = 3) = (b.fmtB = 3)) (o + 23) i ++ zero it o i 30 2

/-- Failures of the buckets in image order. -/
def bucketsBad (progs : Nat) : List Bucket → List (Nat × Nat × List Byte) → List Bad
  | _, [] => []
  | prev, (i, o, it) :: t =>
    bucketBad progs (prev.filter (fun c => c.program = fieldAt it 0 1)) o i it ++ bucketsBad progs (prev ++ [bucketOf it]) t

/-- Check 14 on one bucket: the legality of R245 with its own shape, C as BF16 and no GATE (08 R245, R248). -/
def bucketLegal (b : Bucket) : Bool :=
  let m := if b.vary = 0 then b.size else b.dim1
  let n := if b.vary = 1 then b.size else if b.vary = 0 then b.dim1 else b.dim2
  let stage (rows fmt r c : Nat) : Bool := rows = 0 || 2 * ceilDiv (stageBytes fmt r c) 512 ≤ rows
  tileLegal b.order b.tm b.tn b.tk m n b.db false
    && stage b.aRows b.fmtA b.tm b.tk && stage b.bRows b.fmtB b.tk b.tn && stage b.cRows 1 b.tm b.tn

/-- Step `k` of a TEN_PICOT item (08 R261). -/
def stepOf (it : List Byte) (k : Nat) : PicotStep :=
  { kind := fieldAt it (16 + 6 * k) 1, sel := fieldAt it (17 + 6 * k) 1, imm := BitVec.ofNat 32 (fieldAt it (18 + 6 * k) 4) }

/-- A TEN_PICOT item (08 R261). -/
def chainOf (it : List Byte) : Chain :=
  { outFmt := fieldAt it 1 1, sr := bitAt (fieldAt it 2 1) 0, steps := (List.range (min 8 (fieldAt it 0 1))).map (stepOf it) }

/-- Whether a selector is a built-in or a slot that TEN_SFU_REQ lists (07 R210, 08 R263). -/
def selOk (req : List (Nat × Nat)) (sel : Nat) : Bool := sel ≤ 1 || (sel ≤ 33 && req.any (fun e => e.1 = sel - 2))

/-- Failures of a TEN_PICOT item (08 R261-R263). -/
def chainBad (req : List (Nat × Nat)) (o i : Nat) (it : List Byte) : List Bad :=
  let c := chainOf it
  let n := fieldAt it 0 1
  let gates (k : Nat) : Nat := ((c.steps.take k).filter (fun s => s.kind = 9)).length
  rng it o i 0 1 0 8 ++ need ([0, 1, 3, 4, 5, 6, 7, 8].contains c.outFmt) (o + 1) i
    ++ need (fieldAt it 2 1 ≤ 1 && (!c.sr || [1, 4, 5, 6, 7, 8].contains c.outFmt)) (o + 2) i ++ zero it o i 3 13
    ++ (List.range 8).flatMap (fun k => let s := stepOf it k
      if n ≤ k then zero it o i (16 + 6 * k) 6
      else need (1 ≤ s.kind && s.kind ≤ 9 && (s.kind ≠ 9 || gates k = 0)) (o + 16 + 6 * k) i
        ++ need (!(s.kind = 8 || s.kind = 9) || selOk req (bits s.imm.toNat 5 0)) (o + 18 + 6 * k) i)

/-- A TEN_STAGE item (10 R312). -/
def stageOf (it : List Byte) : StageItem :=
  if fieldAt it 0 1 = 1 then .mcast (fieldAt it 1 1) (fieldAt it 2 1) (fieldAt it 4 2)
  else .bind (fieldAt it 1 1) (fieldAt it 2 1) (fieldAt it 3 1) (fieldAt it 4 1)

/-- Failures of a TEN_STAGE item; `seen` holds the queues bound before it (04 R111, 10 R312). -/
def stageBad (q : Quota) (seen : List Nat) (o i : Nat) (it : List Byte) : List Bad :=
  let key := fieldAt it 2 1 * 256 + fieldAt it 1 1
  rng it o i 0 1 1 2
    ++ (if fieldAt it 0 1 = 1 then need (fieldAt it 1 1 < q.mcastGroups) (o + 1) i ++ need (fieldAt it 2 1 < q.bays) (o + 2) i
          ++ zero it o i 3 1
        else need (fieldAt it 1 1 ≤ 127 && !seen.contains key) (o + 1) i ++ need (fieldAt it 2 1 < q.bays) (o + 2) i
          ++ need (fieldAt it 3 1 < q.bays) (o + 3) i ++ rng it o i 4 1 0 127 ++ zero it o i 5 1)
    ++ zero it o i 6 10

/-- Key of a queue binding; above every real key for a multicast item. -/
def stageKey (it : List Byte) : Nat := if fieldAt it 0 1 = 2 then fieldAt it 2 1 * 256 + fieldAt it 1 1 else 65536

/-- A graph node record (14 R400). -/
def nodeOf (d : List Byte) (o : Nat) : GNode :=
  { kind := fieldAt d o 1, engine := fieldAt d (o + 1) 1, op := fieldAt d (o + 2) 1, outFmt := fieldAt d (o + 3) 1,
    outW := fieldAt d (o + 4) 2, outH := fieldAt d (o + 6) 2, param := (d.drop (o + 8)).take 24 }

/-- A graph edge record (14 R402). -/
def edgeOf (d : List Byte) (o : Nat) : GEdge :=
  { src := fieldAt d o 1, port := fieldAt d (o + 1) 1, dst := fieldAt d (o + 2) 1, mode := fieldAt d (o + 3) 1, lbay := fieldAt d (o + 4) 1,
    pos := fieldAt d (o + 5) 1, sig := fieldAt d (o + 6) 1, arrival := fieldAt d (o + 7) 1, base := fieldAt d (o + 8) 8,
    slot := fieldAt d (o + 16) 4, slots := fieldAt d (o + 20) 2 }

/-- Node and edge counts kept to their ranges (14 R399). -/
def graphSizes (d : List Byte) (o : Nat) : Nat × Nat := (min 4 (fieldAt d (o + 5) 1), min 8 (fieldAt d (o + 6) 1))

/-- A graph that starts at `o` (14 R399). -/
def graphOf (d : List Byte) (o : Nat) : Graph :=
  let (n, e) := graphSizes d o
  { graph := fieldAt d (o + 4) 1, strict := bitAt (fieldAt d (o + 7) 1) 0, skip := bitAt (fieldAt d (o + 7) 1) 1,
    width := fieldAt d (o + 8) 2, height := fieldAt d (o + 10) 2, inFmt := fieldAt d (o + 12) 1, vector := fieldAt d (o + 13) 1,
    inSlots := fieldAt d (o + 14) 2, padval := fieldAt d (o + 16) 4, inPitch := fieldAt d (o + 20) 4, inBase := fieldAt d (o + 24) 8,
    inSlot := fieldAt d (o + 32) 4, recBase := fieldAt d (o + 40) 8,
    nodes := (List.range n).map (fun k => nodeOf d (o + 64 + 32 * k)),
    edges := (List.range e).map (fun k => edgeOf d (o + 64 + 32 * n + 32 * k)) }

/-- Nodes reached from some nodes along edges, in `n` rounds. -/
def reach (es : List GEdge) : Nat → List Nat → List Nat
  | 0, ns => ns
  | n + 1, ns => reach es n (ns ++ (es.filter (fun e => ns.contains e.src)).map (·.dst))

/-- Failures of a node record (14 R396, R400, R401, R403). -/
def nodeBad (gr : Graph) (d : List Byte) (k o i : Nat) : List Bad :=
  let nd := nodeOf d o
  let (fmt, w, h) := nodeIn gr k
  let img := imageEdge gr k
  let warp := bitAt nd.op 2
  need (1 ≤ nd.kind && nd.kind ≤ 3 && (nd.kind = 1 || (gr.nodes.take k).all (fun m => m.kind ≠ nd.kind))) o i
    ++ need (match nd.kind with
      | 1 => nd.engine = 0 || nd.engine = 1 || nd.engine = 0xFF
      | 2 => nd.engine = 2
      | _ => nd.engine = 3) (o + 1) i
    ++ need (match nd.kind with
      | 1 => nd.op < 32 && bits nd.op 4 3 ≤ 2
      | 2 => nd.op = 0
      | _ => [8, 14, 16, 32].contains nd.op && (img.isNone || (w % nd.op = 0 && h % nd.op = 0))) (o + 2) i
    ++ need (if nd.kind = 1 then [2, 4, 5].contains nd.outFmt else nd.outFmt = 0) (o + 3) i
    ++ need (if nd.kind = 1 then 1 ≤ nd.outW && nd.outW ≤ 8192 else nd.outW = 0) (o + 4) i
    ++ need (if nd.kind = 1 then 1 ≤ nd.outH && nd.outH ≤ 8192 else nd.outH = 0) (o + 6) i
    ++ (if nd.kind = 1 then need (warp || zeroAt d (o + 8) 24) (o + 8) i
        else if nd.kind = 2 then need (fieldAt d (o + 12) 1 ≤ 64) (o + 12) i ++ need (zeroAt d (o + 13) 1) (o + 13) i
          ++ need (fieldAt d (o + 16) 8 % 64 = 0) (o + 16) i ++ need (zeroAt d (o + 24) 8) (o + 24) i
        else [])
    ++ need (gr.edges.any (fun e => e.dst = k) && img.isSome && !(reach gr.edges 4 ((gr.edges.filter (fun e => e.src = k)).map (·.dst))).contains k) o i
    ++ need (nd.kind ≠ 2 || (w % 16 = 0 && h % 16 = 0 && fmt = 4
        && (img.elim true (fun e => e.src ≠ 0xFE || gr.inFmt = 3 || gr.inFmt = 4)))) o i
    ++ need (nd.kind ≠ 3 || fmt = 5 || fmt = 4) o i

/-- Failures of an edge record (14 R402, R403). -/
def edgeBad (gr : Graph) (bays : Nat) (d : List Byte) (o i : Nat) : List Bad :=
  let e := edgeOf d o
  let n := gr.nodes.length
  let kindOf (k : Nat) : Nat := (gr.nodes[k]?).elim 0 (·.kind)
  let core : Bool := e.dst = 0xFD
  let input : Bool := e.src = 0xFE
  need (e.src < n || input) o i ++ need (e.port = 0 || (e.port = 1 && kindOf e.src = 3)) (o + 1) i
    ++ need (core || (e.dst < n && (input || kindOf e.src = 1 || (kindOf e.src = 2 && kindOf e.dst = 3)))) (o + 2) i
    ++ need (e.mode = 1 || (e.mode = 2 && core && e.port = 0 && !input)) (o + 3) i
    ++ need (!core || e.lbay < bays) (o + 4) i ++ need (!core || e.pos ≤ 15) (o + 5) i
    ++ need (e.mode = 2 || e.arrival = 0) (o + 7) i
    ++ need (if e.mode = 1 && !input then e.base % 4096 = 0 else e.base = 0) (o + 8) i
    ++ need (if e.mode = 1 && !input then e.slot % 4096 = 0 else !input || e.slot = 0) (o + 16) i
    ++ need (if e.mode = 1 && !input then 1 ≤ e.slots && e.slots ≤ 16 else !input || e.slots = 0) (o + 20) i
    ++ need (zeroAt d (o + 22) 10) (o + 22) i

/-- Failures of a graph; `seen` holds the numbers of the graphs before it (14 R399-R403). -/
def graphBad (features bays : Nat) (d : List Byte) (i : Nat) (seen : List Nat) (o : Nat) : List Bad :=
  let gr := graphOf d o
  let (n, e) := graphSizes d o
  let f (k m lo hi : Nat) : List Bad := need (lo ≤ fieldAt d (o + k) m && fieldAt d (o + k) m ≤ hi) (o + k) i
  let skipOk : Bool := !gr.skip || (match packNode gr with
    | none => false
    | some (p, nd) => nd.op = 16 && (match motionEdge gr p with
      | none => false
      | some x => (nodeIn gr x.src).2 = (nodeIn gr p).2))
  need (fieldAt d o 4 = 64 + 32 * (fieldAt d (o + 5) 1 + fieldAt d (o + 6) 1) && bitAt features 1) o i
    ++ need (gr.graph ≤ 15 && !seen.contains gr.graph) (o + 4) i ++ f 5 1 1 4 ++ f 6 1 1 8
    ++ need (fieldAt d (o + 7) 1 < 4 && skipOk) (o + 7) i
    ++ f 8 2 1 8192 ++ f 10 2 1 8192 ++ need (gr.inFmt ≠ 3 || gr.height % 2 = 0) (o + 10) i ++ f 12 1 1 4 ++ f 13 1 0 27 ++ f 14 2 1 16
    ++ need (gr.inPitch % 64 = 0) (o + 20) i ++ need (gr.inBase % 4096 = 0) (o + 24) i ++ need (gr.inSlot % 4096 = 0) (o + 32) i
    ++ need (zeroAt d (o + 36) 4) (o + 36) i ++ need (gr.recBase % 64 = 0) (o + 40) i ++ need (zeroAt d (o + 48) 16) (o + 48) i
    ++ (List.range n).flatMap (fun k => nodeBad gr d k (o + 64 + 32 * k) i)
    ++ (List.range e).flatMap (fun k => edgeBad gr bays d (o + 64 + 32 * n + 32 * k) i)

/-- Failures of the graphs of a section one after another. -/
def graphsBad (features bays : Nat) (d : List Byte) (i : Nat) : List Nat → List Nat → List Bad
  | _, [] => []
  | seen, o :: t => graphBad features bays d i seen o ++ graphsBad features bays d i (seen ++ [fieldAt d (o + 4) 1]) t

/-- The graphs of a tenant image with their sections and starts. -/
def graphsOf (d : List Byte) (es : List Sect) : List (Nat × List Nat) :=
  (ofType es 0x0207).map (fun e => (e.idx, graphStarts d e.cnt e.off))

/-- The TEN_NEEDS item: section, offset, bytes. -/
def needsOf (d : List Byte) (es : List Sect) : Nat × Nat × List Byte := (items d es 0x020A 64).headD (0, 0, [])

/-- A tenant image's contents (04 R101, R110-R119). -/
def imageOf (d : List Byte) (es : List Sect) : TenImage :=
  let n := (needsOf d es).2.2
  { features := fieldAt d 0x28 4
    needs := quotaOf n 0 (fieldAt n 0 4)
    stride := fieldAt n 4 1
    progs := (ofType es 0x0201).map (·.cnt)
    entries := (items d es 0x0202 16).map (fun e => { ring := fieldAt e.2.2 0 2, program := fieldAt e.2.2 2 1, start := fieldAt e.2.2 4 4 })
    pricks := (items d es 0x0203 256).map (fun e => prickOf e.2.2)
    buckets := (items d es 0x0204 32).map (fun e => bucketOf e.2.2)
    chains := (items d es 0x0205 64).map (fun e => chainOf e.2.2)
    stages := (items d es 0x0206 16).map (fun e => stageOf e.2.2)
    graphs := (graphsOf d es).flatMap (fun g => g.2.map (graphOf d))
    sfuReq := (items d es 0x0209 4).map (fun e => (fieldAt e.2.2 0 1, fieldAt e.2.2 2 2))
    meas := meas d es
    signer := Crypto.sha384 (sigKey d es) }

/-- Failures of the programs: the first undefined bundle of each (04 R111; 07 R210, R213). -/
def codeBad (img : TenImage) (d : List Byte) (es : List Sect) : List Bad :=
  (ofType es 0x0201).flatMap (fun e =>
    let vs := (List.range e.cnt).map (fun i => fieldAt d (e.off + 16 * i) 16)
    match Bundle.firstBad img e.cnt 0 vs false false with
    | some (i, b) => [(e.off + 16 * i + b, e.idx, Status.imageInvalid)]
    | none => [])

/-- Failures of a TEN_ENTRY item; `seen` holds the rings named before it (04 R111). -/
def entryItemBad (img : TenImage) (seen : List Nat) (o i : Nat) (it : List Byte) : List Bad :=
  let ring := fieldAt it 0 2
  need (ring ≤ 255 && !seen.contains ring && seen.length < img.needs.rings) o i
    ++ need (fieldAt it 2 1 < img.progs.length) (o + 2) i ++ zero it o i 3 1
    ++ need (fieldAt it 4 4 < img.progs.getD (fieldAt it 2 1) 0) (o + 4) i ++ zero it o i 8 8

/-- Failures of a TEN_BUFFER item at check 13 (04 R112). -/
def bufferBad (progs o i : Nat) (it : List Byte) : List Bad :=
  rng it o i 0 1 0 1 ++ need (fieldAt it 1 1 < progs || fieldAt it 1 1 = 0xFF) (o + 1) i ++ zero it o i 4 4
    ++ need (fieldAt it 16 8 = 0 || (if fieldAt it 0 1 = 0 then fieldAt it 8 8 < 2 ^ 16 else fieldAt it 8 8 < 2 ^ 40)) (o + 8) i
    ++ zero it o i 24 8

/-- Failures of a TEN_SFU_REQ item (04 R111; 11 R338). -/
def sfuReqBad (x : LoadCtx) (features o i : Nat) (it : List Byte) : List Bad :=
  let slot := fieldAt it 0 1
  let func := fieldAt it 2 2
  need (slot ≤ 31) o i ++ zero it o i 1 1
    ++ need (x.plat.sfu.any (fun e => e.slot = slot && e.func = func) && (decide (0x101 ≤ func ∧ func ≤ 0x107) == bitAt features 0)) (o + 2) i

/-- Check 13 of a tenant image (04 R110-R112, R124). -/
def tenBad (x : LoadCtx) (d : List Byte) (es : List Sect) : List Bad :=
  let img := imageOf d es
  let (ni, no, nit) := needsOf d es
  reservedBad d es
    ++ need (img.stride = x.plat.stride) (no + 4) ni ++ zero nit no ni 5 3 ++ quotaRng nit no ni
    ++ codeBad img d es ++ uniqueBad (fun it => fieldAt it 0 2) (entryItemBad img) [] (items d es 0x0202 16)
    ++ (items d es 0x0203 256).flatMap (fun e => prickBad img.needs.mcastGroups e.2.1 e.1 e.2.2)
    ++ bucketsBad img.progs.length [] (items d es 0x0204 32)
    ++ (items d es 0x0205 64).flatMap (fun e => chainBad img.sfuReq e.2.1 e.1 e.2.2)
    ++ uniqueBad stageKey (stageBad img.needs) [65537] (items d es 0x0206 16)
    ++ (graphsOf d es).flatMap (fun g => graphsBad img.features img.needs.bays d g.1 [] g.2)
    ++ (items d es 0x0208 32).flatMap (fun e => bufferBad img.progs.length e.2.1 e.1 e.2.2)
    ++ (items d es 0x0209 4).flatMap (fun e => sfuReqBad x img.features e.2.1 e.1 e.2.2)

/-- Check 14 (04 R124; 08 R245, R248). -/
def shapesBad (d : List Byte) (es : List Sect) : List Bad :=
  (items d es 0x0204 32).flatMap (fun e => need (bucketLegal (bucketOf e.2.2)) e.2.1 e.1 Status.shapeIllegal)

/-- A package buffer's extent: paddock frames below the save area and outside the image frames (04 R112, R113; 05 R139). -/
def extentBad (x : LoadCtx) (img : TenImage) (len base n o i : Nat) : List Bad :=
  let top := x.quota.frameCount - 19 * img.needs.bays
  let free (f : Nat) : Bool := f < top && !(x.src / frameSize ≤ f && f ≤ (x.src + len - 1) / frameSize)
  if n = 0 then []
  else if !free (base / frameSize) then [(o, i, Status.accessDenied)]
  else if (base + n - 1) / frameSize ≥ top || (base / frameSize < x.src / frameSize && x.src / frameSize ≤ (base + n - 1) / frameSize) then
    [(o, i, Status.accessSpan)]
  else []

/-- Check 15 on a TEN_BUFFER item: alignment, then extent (04 R112). -/
def bufferSpace (x : LoadCtx) (img : TenImage) (len o i : Nat) (it : List Byte) : List Bad :=
  let base := fieldAt it 8 8
  let n := fieldAt it 16 8
  if n = 0 then []
  else if fieldAt it 0 1 = 0 then
    if 4096 ≤ base then [(o + 8, i, Status.accessDenied)] else if 4095 < base + n - 1 then [(o + 16, i, Status.accessSpan)] else []
  else if base % 512 ≠ 0 then [(o + 8, i, Status.alignFault)]
  else if n % 512 ≠ 0 then [(o + 16, i, Status.alignFault)]
  else extentBad x img len base n (o + 8) i

/-- Check 15 on a graph's buffers (14 R403; log 52, DEDUCED): input buffers, record ring, reference image, slot rings. Their alignment is the
one that their own fields have (14 R399-R402, check 13); the 512 bytes of 04 R111 are a TEN_BUFFER item's (log 80, DEDUCED). -/
def graphSpace (x : LoadCtx) (img : TenImage) (len : Nat) (d : List Byte) (i o : Nat) : List Bad :=
  let gr := graphOf d o
  let (n, e) := graphSizes d o
  let rows := if gr.inFmt = 3 then gr.height + gr.height / 2 else gr.height
  let ext := extentBad x img len
  ext gr.inBase ((gr.inSlots - 1) * gr.inSlot + rows * gr.inPitch) (o + 24) i ++ ext gr.recBase (gr.inSlots * 32) (o + 40) i
    ++ (List.range n).flatMap (fun k => let a := o + 64 + 32 * k
      let (_, w, h) := nodeIn gr k
      if fieldAt d a 1 = 2 then ext (fieldAt d (a + 16) 8) (w * h) (a + 16) i else [])
    ++ (List.range e).flatMap (fun k => let a := o + 64 + 32 * n + 32 * k
      let ed := edgeOf d a
      if ed.mode = 1 && ed.src ≠ 0xFE then ext ed.base (ed.slots * ed.slot) (a + 8) i else [])

/-- Check 15 (04 R111, R112, R124; 14 R403). -/
def spaceBad (x : LoadCtx) (len : Nat) (d : List Byte) (es : List Sect) : List Bad :=
  let img := imageOf d es
  (items d es 0x0208 32).flatMap (fun e => bufferSpace x img len e.2.1 e.1 e.2.2)
    ++ (graphsOf d es).flatMap (fun g => g.2.flatMap (graphSpace x img len d g.1))

/-- Check 16 of a tenant image (04 R110, R124; 05 R139). -/
def needsBad (x : LoadCtx) (len n : Nat) (d : List Byte) (es : List Sect) : List Bad :=
  let img := imageOf d es
  let (i, o, _) := needsOf d es
  let q := x.quota
  let m := img.needs
  let ok (c : Bool) (k : Nat) : List Bad := need c (o + k) i Status.resourceShort
  ok (m.frameCount + 19 * m.bays ≤ q.frameCount) 0 ++ ok (m.sequences ≤ q.sequences) 0x08 ++ ok (m.pages ≤ q.pages) 0x0C
    ++ ok (m.loftMib ≤ q.loftMib) 0x10 ++ ok (m.mangerSlots ≤ q.mangerSlots) 0x14 ++ ok (m.rings ≤ q.rings) 0x16
    ++ ok (m.eyelets ≤ q.eyelets) 0x18 ++ ok (m.bays ≤ q.bays) 0x1A ++ ok (m.loftGrants ≤ q.loftGrants) 0x1B
    ++ ok (m.mcastGroups ≤ q.mcastGroups) 0x1C
    ++ need ((x.src + len - 1) / frameSize + 19 * m.bays < q.frameCount) (128 + 16 * n) hdr Status.resourceShort

/-- Check number and failures, in the order in which they are made (04 R124). -/
def checks (x : LoadCtx) (d : List Byte) (len : Nat) : List (Nat × (Unit → List Bad)) :=
  let n := fieldAt d 0x0C 2
  let es := sects d n
  [(8, fun _ => check8 d x.kind len), (9, fun _ => check9 d), (10, fun _ => check10 d x.kind len n), (11, fun _ => check11 x d es),
   (12, fun _ => check12 x d), (13, fun _ => if x.kind = 1 then platBad d es else tenBad x d es),
   (14, fun _ => if x.kind = 1 then [] else shapesBad d es), (15, fun _ => if x.kind = 1 then [] else spaceBad x len d es),
   (16, fun _ => if x.kind = 1 then platSums d es else needsBad x len n d es)]

/-- The first check that fails, with its failing field: check, code, section, offset (04 R124, R125). -/
def firstFail : List (Nat × (Unit → List Bad)) → Option (Nat × Nat × Nat × Nat)
  | [] => none
  | (k, f) :: t => match first (f ()) with
    | some (o, i, c) => some (k, c, i, o)
    | none => firstFail t

end Img

end Sys2Proof.Machine
end

