-- ==== Sys2Proof/Machine/Lifecycle.lean ====
section
/-! DEFINITION. Teardown (05 R170-R172), resets and removal (03 R68-R84), functions' power states and configuration (03 R85-R88), and
BAR2 (03 R94-R96). -/

namespace Sys2Proof.Machine

namespace State

/-! ### Keys and loads -/

/-- Keys of one IDE stream destroyed (06 R174, R175). -/
def dropStream (s : State) (k : Nat) : State :=
  { s with sec := { s.sec with ide := tmod {} s.sec.ide k (fun x =>
    { x with keys := [], active := [], gone := x.gone || !x.keys.isEmpty }) } }

/-- A load ends without commit and leaves its status as after reset (04 R129). -/
def abandonLoad (s : State) (fn : Nat) : State :=
  if !(s.load fn).queued && !(s.load fn).busy then s
  else
    let mine := s.ldr.cur = some fn
    let s : State := { s with hif := { s.hif with reads := s.hif.reads.filter (fun e => !mine || e.2 ≠ .image) }, ldr := { s.ldr with
      queue := s.ldr.queue.filter (· ≠ fn)
      cur := if mine then none else s.ldr.cur
      early := if mine then none else s.ldr.early
      staged := if mine then [] else s.ldr.staged
      readErr := !mine && s.ldr.readErr
      readOut := if mine then 0 else s.ldr.readOut
      passed := !mine && s.ldr.passed } }
    let s := s.modLoad fn (fun r => { r with code := 0, check := 0, busy := false, queued := false, done := false, section_ := 0,
                                             offset := 0 })
    if fn = 0 then s
    else s.modPdk (fn - 1) (fun d => { d with goLock := none, rootKey := if d.st = .empty ∨ d.st = .loading then none else d.rootKey })

/-! ### Teardown (05 R170) -/

/-- A TDI leaves its lock for CONFIG_UNLOCKED: its stream is unbound and its keys destroyed (06 R174, R186). -/
def tdiUnlock (s : State) (p : Nat) : State :=
  let t := s.tdi p
  let s := match t.stream with
    | some k => (s.dropStream k)
    | none => s
  let s : State := match t.stream with
    | some k => { s with sec := { s.sec with ide := tmod {} s.sec.ide k (fun x => { x with vf := none }) } }
    | none => s
  s.setTdi p (fun _ => {})

/-- Steps 1 and 2: rings and jobs stop without being saved, engines are fenced, a load is abandoned; the TDI goes to ERROR unless VF FLR
or STOP_INTERFACE_REQUEST is the cause (05 R133, R170; 06 R186). -/
def beginTeardown (s : State) (p : Nat) (flr : Bool) : State :=
  match (s.pdk p).st with
  | .empty => s
  | .teardown => if flr then s.modPdk p (fun d => { d with td := d.td.map (fun t => { t with flr := true }) }) else s
  | _ =>
    let s := s.abandonLoad (p + 1)
    let s := (s.modPdk p (fun d => { d with td := some { drained := false, flr := flr }, susp := {} })).setPdkSt p .teardown
    let s := (s.ringsOf p).foldl (fun s k => s.modRing p k (fun r =>
      { r with en := false, fetch := none, job := none, cpls := [], stopped := true, slot := none, stamps := [] })) s
    let s := (List.range 16).foldl (fun s b =>
      let x := s.bay b
      let s := match x.next with
        | some (q, _, _) => if q = p then s.modBay b (fun x => { x with next := none, prepared := false }) else s
        | none => s
      if x.holder = some p then
        ((coresOf b).foldl (fun s n => s.modCore n (fun c => { c with running := false, queue := [], gather := [], cause := none })) s).modBay b
          (fun x => { x with job := none, stopped := true, withdrawn := false
                             stopping := x.stopping.filter leavesService })
      else s) s
    let s := ((s.tmbFence p).fabFence p).modYard (fun y => { y with ops := y.ops.filter (fun e => e.2.pdk ≠ p) })
    if !flr && ((s.tdi p).st = .locked || (s.tdi p).st = .run) then s.setTdi p (fun t => { t with st := .error }) else s

/-- Step 5 for one bay: scrubbed and released; what else it was to do goes on (05 R170; 06 R198; 16 R463). -/
def dropBay (s : State) (b : Nat) : State :=
  let why := (s.bay b).stopping
  let s := ((s.scrubBay b).freeBay b).modBay b (fun x => { x with scrubbed := true })
  if why = some .quarantine then s.setUnit (.bay (Fin.ofNat 16 b)) .quarantined else s

/-- Steps 3 to 5: the paddock's transfers have drained; its keys are destroyed, retirement goes to fabric peers, its bays are scrubbed
(05 R170; 06 R202, R203). -/
def teardownDrained (s : State) (p : Nat) : State :=
  match (s.pdk p).st, (s.pdk p).td with
  | .teardown, some t =>
    if t.drained then s
    else
      let s := (s.fabRetireAll p).modPdk p (fun d => { d with rootKey := none, td := some { t with drained := true } })
      let s := match (s.tdi p).stream with
        | some k => s.dropStream k
        | none => s
      let s := s.modYard (fun y => { y with fetches := y.fetches.map (fun e => (e.1, if e.2.pdk = p then { e.2 with dead := true } else e.2)) })
      (s.baysOf p).foldl dropBay s
  | _, _ => s

/-- Owner ranges without the save area of a paddock (05 R138). -/
def withoutSave (own : List OwnRange) (lo count : Nat) : List OwnRange :=
  own.filter (fun r => !(r.owner = 0x81 && lo ≤ r.base && r.base < lo + count))

/-- Steps 6 and 7: frames and Yard pages zeroed, save area returned, the paddock EMPTY; a load that the loader took meanwhile is ended (05
R138, R170, R172; 06 R186, R190, R193; 13 R387, R395). A load that is still queued waits its turn (log 76, DEDUCED). -/
def teardownComplete (s : State) (p : Nat) : State :=
  match (s.pdk p).st, (s.pdk p).td with
  | .teardown, some t =>
    if !t.drained then s
    else
      let s := if s.ldr.cur = some (p + 1) then s.abandonLoad (p + 1) else s
      let q := s.quota p
      let s := (((s.zeroFrames q.frameBase q.frameCount).yardTeardown p).fabClear p)
      let s : State := { s with saves := s.saves.filter (fun e => !(q.frameBase ≤ e.1 && e.1 < q.frameBase + q.frameCount))
                                own := withoutSave s.own q.frameBase q.frameCount }
      let s := (s.newEpoch none).modPdk p (fun d => { d with
        td := none, img := none, lock := none, saveOwned := false, consent := 0, serial := 0, ever := false, susp := {}, paceEn := false,
        paceN := 0, pfxKey0 := 0, pfxKey1 := 0, spill := 0, loft := [] })
      let s := s.modLoad (p + 1) (fun r => { r with meas := 0 })
      let s := ((s.setPdkSt p .empty).schEv 1 p).updRecord p
      if t.flr || (s.tdi p).unlockDue then s.tdiUnlock p else s
  | _, _ => s

/-- A TDI in CONFIG_LOCKED or RUN goes to ERROR, and its paddock into TEARDOWN (06 R186, R187). -/
def tdiError (s : State) (p : Nat) : State :=
  if (s.tdi p).st = .locked || (s.tdi p).st = .run then
    (s.setTdi p (fun t => { t with st := .error })).beginTeardown p false
  else s

/-! ### Entering INIT (03 R70 step 7, 16 R461) -/

/-- Patrol pointers of a bay's cores start again at the lowest visible row (09 R285). -/
def resetPatrol (s : State) (b : Nat) : State := (coresOf b).foldl (fun s n => s.modCore n (fun c => { c with patrol := [] })) s

/-- A pending row repaired, or, where its bank has no repair resource left, moved to the unrepairable list with its granules poisoned for good.
A bank has at least two resources as it left the factory, and `noRes` says which rows then find none (16 R461). -/
def repairRow (noRes : List Nat) (s : State) (row : Nat) : State :=
  let gs := (s.ras.poisonRow.filter (fun e => e.2 = row)).map (·.1)
  let st := tget 0 s.ras.rowStack row
  let bank := (st, (Config.dramPlace row).1, (Config.dramPlace row).2.1)
  if noRes.contains row && 2 ≤ (s.ras.repairs.filter (· = bank)).length then
    ({ s with ras := { s.ras with badRows := s.ras.badRows ++ [row], dead := s.ras.dead ++ gs } } : State).logRec 3 st 0 2 0x0022 0 (rowDetail st row)
  else ({ s with ras := { s.ras with repairs := s.ras.repairs ++ [bank] } } : State).logRec 3 st 0 0 0x0021 0 (rowDetail st row)

/-- Package memory repaired and zeroed, every core and the Manger cleared (03 R70 step 7; 09 R285, R291; 16 R461). -/
def initMemory (s : State) (noRes : List Nat) : State :=
  let s := s.ras.pending.foldl (repairRow noRes) s
  let s : State := { s with mem := [], yard := {}, ras := { s.ras with pending := [], poison := [], rowHits := []
                                                                       poisonRow := s.ras.poisonRow.filter (fun e => s.ras.dead.contains e.1) } }
  (List.range 16).foldl resetPatrol s.scrubAll

/-! ### Conventional and cold reset, surprise removal (03 R68-R84) -/

/-- Firmware that was activated takes effect; where `bankOk c` is false, the newly active bank of component c fails its check and the other is
booted (16 R468). -/
def fwActivate (s : State) (bankOk : Nat → Bool) : State :=
  [1, 2].foldl (fun s c =>
    let f := s.mgt.fw
    if !tget false f.due c then s
    else if !bankOk c then
      ({ s with mgt := { s.mgt with fw := { f with due := tset f.due c false, spareOk := tset f.spareOk c false } } } : State).logRec 7 0 0 2
        0x0051 0 [c]
    else
      let img := tget [] f.spare c
      ({ s with mgt := { s.mgt with fw := { f with due := tset f.due c false, active := tset f.active c img
                                                   spare := tset f.spare c (tget [] f.active c), spareOk := tset f.spareOk c false
                                                   minSec := max f.minSec (Config.fwSecurity img) } }
                dev := { s.dev with compatBad := false } } : State).logRec 7 0 0 0 0x0050 0 [c, Config.fwVersion img]) s

/-- What a conventional reset does at its trigger (03 R76, R79, R83; 06 R174; 16 R446, R450, R463): every ring stops, every key and the
platform image are gone, every core is scrubbed, the rails of cores and memory are removed and the timestamp counter holds. PWR_CAP, the
error log, the keys in flash and the health of scratchpads and memory are kept. A paddock that is not EMPTY is in TEARDOWN until the reset
ends (05 R133). A surprise during a reset that runs already asks for a PERST_N cycle, too (R82). -/
def startConv (s : State) (k : ConvKind) (link : LinkSt) : State :=
  if s.dev.conv.isSome then { s with dev := { s.dev with link := link, needPerst := s.dev.needPerst || k = .surprise } }
  else
    let s := s.scrubAll
    { pending := s.pending
      out := s.out
      free := s.free
      mem := s.mem
      pdks := s.pdks.filterMap (fun e => if e.2.st = .empty then none else some (e.1, { st := .teardown, td := some { drained := true } }))
      cores := s.cores.map (fun e => (e.1, { e.2 with issued := [] }))
      dev := { s.dev with phase := .standby, link := link, cfgReady := false, compatFail := false, tscHold := true, conv := some k,
                          ramp := false, needPerst := s.dev.needPerst || k = .surprise, standbyKind := .reset, trans := .none,
                          pwrRefused := false, computeRails := false, memRails := false, railMv := [],
                          baseRailMv := if s.dev.baseOn then 720 else 0, tj := [], capLimiting := false,
                          subfloor := false, tripped := false, tripSeal := false, beatMon := [], pwrEvent := 0, flr0 := false }
      hif := { nextTag := s.hif.nextTag }
      sec := { rng := { s.sec.rng with rctFail := false, aptFail := false }, nextSid := s.sec.nextSid }
      mgt := { s.mgt with testOn := false, tests := [], mboxLen := 0, mboxBusy := false, mboxDone := false, mboxRlen := 0, mboxBuf := [],
                          view := [], diff := [] }
      ras := { s.ras with event := 0, stackSt := [], coreSt := [] } }

/-- What survives a cold reset of a core: its repair table (09 R286, R289). -/
def coldCore (c : Core) : Core := { spares := c.spares, marked := c.marked }

/-- A cold reset: everything volatile is lost (03 R76, R79, R83; 16 R449, R453, R460). Pins keep their levels. The count of DRBG draws and the
next session's number are the model's own and go on, so that a session after a removal has new keys (03 R84; log 9). -/
def coldReset (s : State) : State :=
  { pending := s.pending
    out := s.out
    free := s.free
    cores := s.cores.map (fun e => (e.1, coldCore e.2))
    dev := { p54 := s.dev.p54, perst := s.dev.perst, refclk := s.dev.refclk }
    hif := { nextTag := s.hif.nextTag }
    sec := { rng := { draws := s.sec.rng.draws }, nextSid := s.sec.nextSid }
    mgt := { log := s.mgt.log, logSeq := s.mgt.logSeq, boot := s.mgt.boot, keys := s.mgt.keys,
             fw := { spare := s.mgt.fw.spare, spareOk := s.mgt.fw.spareOk, due := s.mgt.fw.due, active := s.mgt.fw.active,
                     minSec := s.mgt.fw.minSec } }
    ras := { pending := s.ras.pending, badRows := s.ras.badRows, dead := s.ras.dead, poisonRow := s.ras.poisonRow, rowStack := s.ras.rowStack,
             repairs := s.ras.repairs } }

/-- Whether the loss of P54V is step 5 of an orderly removal: a STANDBY entered by request, then PERST_N or Link Disable (03 R81, R82). -/
def orderly (s : State) : Bool := s.dev.removal = .standby && (s.dev.perst || s.dev.link = .disabled)

/-- The record of a surprise removal (03 R82, 16 R454). -/
def removalRec (s : State) (cause : Nat) : State := s.logRec 6 0 0 3 0x0001 0 [cause]

/-- P54V is lost: as a surprise removal, and the device is OFF with the controller still up (03 R68, R82). -/
def loseMain (s : State) (mv : Nat) : State :=
  if !s.dev.p54 then s
  else
    let fine := s.orderly
    let s := s.logRec 6 0 0 3 0x0003 0 [mv]
    let s := if fine then s else s.removalRec 1
    let s := { s with dev := { s.dev with conv := none } }.startConv .surprise .down
    { s with dev := { s.dev with phase := .off, p54 := false, baseOn := false, conv := none, needPerst := false, baseRailMv := 0, beatBase := 0
                                 removal := if fine then .unpowered else .none }
             pdks := []
             sec := { rng := { s.sec.rng with running := false, passRun := 0, rctRun := 0, aptPos := 0, aptCount := 0, fresh := 0 }, nextSid := s.sec.nextSid, aliasKey := s.dev.booted } }

/-- P3V3_AUX is lost: every rail goes, a cold reset; a surprise removal unless P54V went first in an orderly one (03 R69, R71, R76, R81,
R82). -/
def loseAux (s : State) (mv : Nat) : State :=
  if !s.dev.aux then s
  else
    let fine : Bool := s.dev.removal = .unpowered
    let s := s.logRec 6 0 0 3 0x0003 0 [mv]
    (if fine then s else s.removalRec 2).coldReset

/-- A surprise removal with power present: a full conventional reset, and no training before a PERST_N cycle (03 R82). -/
def surprise (s : State) (cause : Nat) : State := (s.removalRec cause).startConv .surprise .down

/-- The conventional reset ends in STANDBY: every paddock is EMPTY, the Alias key is derived again and activated firmware takes effect (03 R76; 06 R174; 16
R468). -/
def endConv (s : State) : State :=
  if s.dev.conv.isNone then s
  else
    let s := s.fwActivate (fun _ => true)
    { s with dev := { s.dev with conv := none }, pdks := [], sec := { s.sec with aliasKey := true } }

/-! ### Function Level Resets and power states (03 R76, R87, R88) -/

/-- A VF Function Level Reset: the paddock is torn down, or its frames zeroed where it is EMPTY, and the TDI ends in CONFIG_UNLOCKED
(03 R76; 04 R129; 05 R171; 06 R186). -/
def vfFlr (s : State) (p : Nat) : State :=
  let s := s.abandonLoad (p + 1)
  let s := if (s.pdk p).st = .empty then
      let q := s.quota p
      (s.zeroFrames q.frameBase q.frameCount).tdiUnlock p
    else s.beginTeardown p true
  s.modFn (p + 1) (fun _ => {})

/-- A PF0 Function Level Reset begins (03 R76, R83; 06 R174). SPDM sessions stay, as R174 says, where R83's table has session keys destroyed
(log 78, DEDUCED). -/
def pf0Flr (s : State) : State :=
  if s.dev.phase = .off || s.dev.conv.isSome then s
  else
    let s := s.abandonLoad 0
    let s := allPdks.foldl vfFlr s
    let sel := (s.sec.ide.filter (fun e => e.2.vf.isSome)).map (·.1)
    let s := sel.foldl dropStream s
    { s with hif := { s.hif with vfEnable := false, numVfs := 0, mps := 0, mrrs := 2, repCor := false, repNonfatal := false, repFatal := false,
                                 repUr := false, fns := [] }
             dev := { s.dev with flr0 := true } }

/-- It ends: the platform image is discarded and package memory zeroed; the device is in INIT, also where it was in a STANDBY entered by
request, whose rails come back as in step 7 of R70 (log 68, DEDUCED); in a tripped STANDBY it stays, and a device that is RESTRICTED or still
powering up stays on its way (02 R64, 03 R76, R83; 04 R130). The owner tables stand until the next commit (06 R193). -/
def pf0FlrDone (s : State) : State :=
  if !s.dev.flr0 || !(s.pdksWhere (fun d => d.st ≠ .empty)).isEmpty then s
  else
    let asked : Bool := s.dev.phase = .standby && s.dev.standbyKind = .requested && s.dev.trans = .none
    let s : State := { s with dev := { s.dev with flr0 := false }, plat := none, yard := {}, saves := [], fab := {},
                              ras := { s.ras with poison := [] }, ldr := { s.ldr with regs := tdel s.ldr.regs 0 },
                              mem := [], mcs := s.closeFetches 0 memTop }
    if asked then
      let s := s.initMemory []
      ({ s with dev := { s.dev with phase := .init, removal := .none, computeRails := true, memRails := true } } : State).rampRails
    else { s with dev := { s.dev with phase := if s.dev.phase = .ready then .init else s.dev.phase } }

/-- Bus Master Enable of a function set or cleared: clearing it on a VF suspends its paddock (03 R87; 05 R472). -/
def busMaster (s : State) (fn : Nat) (on : Bool) : State :=
  let s := s.modFn fn (fun f => { f with bme := on })
  let s := if fn = 0 then s
    else if on then s.resumeFor (fn - 1) (fun u => { u with bme := false })
    else s.suspendFor (fn - 1) (fun u => { u with bme := true }) .suspend
  if on then s.releaseFn fn else s

/-- The configuration of IDE stream k of PF0 written: another value destroys the stream's keys, and a TDI bound to it goes to ERROR
(06 R174, R186). -/
def streamControl (s : State) (k : Nat) (v : BitVec 32) : State :=
  let x := tget ({} : IdeStream) s.sec.ide k
  if x.ctl = v then s
  else
    let s := s.dropStream k
    let s : State := { s with sec := { s.sec with ide := tmod {} s.sec.ide k (fun x => { x with ctl := v }) } }
    match x.vf with
    | some p => s.tdiError p
    | none => s

/-- A change of a function's configuration (03 R85, R86, R88; 05 R472; 06 R174, R186). While the link trains it is answered with a retry
(03 R70 step 6), and without a link not at all. NumVFs is taken while VF Enable is clear (PRESUMED from SR-IOV, log 50). The word at offset 4 holds Bus Master Enable in bit 2, as in every PCI configuration header (log 50, PRESUMED). -/
def cfgWrite (s : State) (fn : Nat) (w : CfgWrite) : State :=
  if !s.dev.cfgReady then (if s.dev.link = .training then s.send (.cpl fn .retry []) else s)
  else
    let err (changed : Bool) (s : State) : State := if changed && fn ≠ 0 then s.tdiError (fn - 1) else s
    let f := s.fnCfg fn
    match w with
    | .bar i v => err (tget 0 f.cfg (0x10 + 4 * i) ≠ v) (s.modFn fn (fun f => { f with cfg := tset f.cfg (0x10 + 4 * i) v }))
    | .msixEnable v => err (f.msixEn ≠ v) (s.modFn fn (fun f => { f with msixEn := v }))
    | .funcMask v => err (f.fnMask ≠ v) (s.modFn fn (fun f => { f with fnMask := v }))
    | .vfEnable => if fn = 0 then { s with hif := { s.hif with vfEnable := true } } else s
    | .numVfs n => if fn = 0 && !s.hif.vfEnable then { s with hif := { s.hif with numVfs := n } } else s
    | .deviceControl mps mrrs cor nonfatal fatal ur =>
      if fn ≠ 0 then s
      else { s with hif := { s.hif with mps := mps.val, mrrs := mrrs.val, repCor := cor, repNonfatal := nonfatal, repFatal := fatal, repUr := ur } }
    | .streamControl k v => if fn = 0 then s.streamControl k v else s
    | .sriovLayout v =>
      let s' := s.modFn 0 (fun f => { f with cfg := tset f.cfg 0x1000 v })
      if fn = 0 && tget 0 f.cfg 0x1000 ≠ v then allPdks.foldl tdiError s' else s'
    | .completionTimeout v => s.modFn fn (fun f => { f with cto := v })
    | .other off v =>
      let s := s.modFn fn (fun f => { f with cfg := tset f.cfg off v })
      let on := bitAt v.toNat 2
      if off ≠ 4 || on = f.bme then s else s.busMaster fn on

/-! ### BAR2 (03 R94-R96) -/

/-- The check of a BAR2 TLP over its full extent: frames (03 R95), locked image frames (04 R113), quarantined stacks (16 R463). -/
def bar2Check (s : State) (p : Nat) (write : Bool) (a idx len : Nat) : Option Nat :=
  let n := (s.quota p).frameCount
  let last := idx + (a % frameSize + max len 1 - 1) / frameSize
  if idx ≥ n then some Status.accessDenied
  else match s.checkOwner (p + 1) a (max len 1) with
    | some e => if e = Status.quarantined && last ≥ n then some Status.accessSpan else some e
    | none => if last ≥ n then some Status.accessSpan else if write then s.lockFault p a (max len 1) else none

/-- A BAR2 TLP (03 R94-R96; 06 R189; 16 R460). A read that meets a poisoned granule returns no data (log 48, DEDUCED). -/
def bar2 (s : State) (p : Nat) (write : Bool) (off len : Nat) (data : List Byte) (ide : Option Nat) : State :=
  let fn := p + 1
  if s.keyGone ide then s.countRetired
  else if s.ideBad fn ide then
    let s := (s.ideRefuse fn 1 off).errMsg fn write true
    if write then s else s.send (.cpl fn .unsupported [])
  else
    let idx := (s.pdk p).win + off / frameSize
    let a := ((s.quota p).frameBase + idx) * frameSize + off % frameSize
    match s.bar2Check p write a idx len with
    | some e =>
      let s := s.refuse fn e 1 off
      if write then s else (s.errMsg fn false false).send (.cpl fn .abort [])
    | none =>
      if write then s.writeFrom a (data.take len)
      else if s.poisonTouch a len then (s.errMsg fn false false).send (.cpl fn .abort [])
      else (s.traffic false a [] len).send (.cpl fn .success (s.memRead a len))

end State

/-! ### The commands -/

/-- TEARDOWN (05 R133, R135, R170, R171). -/
def execTeardown (p : PdkId) (_byTenant : Bool) (s : State) : Res := .next (s.beginTeardown p.val false)

/-- TEARDOWN_DRAINED (05 R170 steps 3 to 5). -/
def execTeardownDrained (p : PdkId) (s : State) : Res := .next (s.teardownDrained p.val)

/-- TEARDOWN_COMPLETE (05 R170 steps 6 and 7). -/
def execTeardownComplete (p : PdkId) (s : State) : Res := .next (s.teardownComplete p.val)

/-- AUX_POWER_ON (03 R70 steps 1 and 2; 04 R130; 06 R174; 16 R448, R468): the matrix is checked for the combination that runs.
Whether a newly active bank of each component verifies is an operand. -/
def execAuxPowerOn (fwOk ucodeOk : Bool) (s : State) : Res :=
  .next (if s.dev.aux then s
    else
      let s : State := { s with dev := { s.dev with aux := true, booted := true }, mgt := { s.mgt with boot := s.mgt.boot + 1, osc := !s.dev.refclk } }
      let s := s.fwActivate (fun c => if c = 1 then fwOk else ucodeOk)
      { s with dev := { s.dev with compatBad := s.untested }, sec := { s.sec with aliasKey := true } })

/-- MAIN_POWER_ON (03 R70 steps 3 and 4, R69; 02 R473). -/
def execMainPowerOn (s : State) : Res :=
  .next (if s.dev.baseOn then s
    else
      let s : State := { s with dev := { s.dev with p54 := true, removal := .none } }
      if s.dev.aux && s.dev.booted then
        { s with dev := { s.dev with baseOn := true, phase := .standby, standbyKind := .reset, baseRailMv := 720, tscHold := true } }
      else s)

/-- PERST_DEASSERT (03 R70 step 5, R72, R77, R82). -/
def execPerstDeassert (s : State) : Res :=
  .next { s with dev := { s.dev with perst := false, needPerst := s.dev.needPerst && !s.dev.perst } }

/-- LINK_TRAINING_START (02 R44, 03 R70 step 6, R72, R77, R78, R82). -/
def execLinkTrainingStart (s : State) : Res :=
  .next (if s.dev.baseOn && !s.dev.perst && s.dev.conv.isNone && s.dev.link = .down && !s.dev.needPerst && s.dev.refclk
      && s.dev.phase = .standby then
      { s with dev := { s.dev with link := .training, tsc := 0, tscHold := false, everTrained := true, removal := .none } }
    else s)

/-- CONFIGURATION_READY (03 R70 step 6). -/
def execConfigurationReady (s : State) : Res :=
  .next (if s.dev.link = .training then { s with dev := { s.dev with link := .up, cfgReady := true } } else s)

/-- RAMP_COMPLETE (03 R70 step 7, R74; 04 R130; 16 R461): INIT, or RESTRICTED for an untested combination. -/
def execRampComplete (noResource : List Nat) (s : State) : Res :=
  .next (if s.dev.phase ≠ .standby || s.dev.conv.isSome || !(s.dev.ramp || (s.dev.standbyKind = .reset && (s.dev.link = .up || s.dev.link = .training)))
    then s
    else if s.dev.compatBad then { s with dev := { s.dev with phase := .restricted, compatFail := true, ramp := false, trans := .none } }
    else
      let ramped := s.dev.ramp
      let s := s.initMemory noResource
      let s := ({ s with dev := { s.dev with phase := .init, computeRails := true, memRails := true, ramp := false, trans := .none } } :
        State).rampRails
      if ramped then s.pwrEv 5 else s)

/-- PERST_ASSERT (03 R71, R75, R76). -/
def execPerstAssert (s : State) : Res :=
  .next (let s : State := { s with dev := { s.dev with perst := true } }
    if s.dev.baseOn then s.startConv .perst .down else s)

/-- HOT_RESET (03 R76, R78). -/
def execHotReset (s : State) : Res :=
  .next (if s.dev.link = .up || s.dev.link = .training then s.startConv .hot .down else s)

/-- LINK_DISABLE (03 R76, R78). -/
def execLinkDisable (s : State) : Res :=
  .next (if s.dev.link = .up || s.dev.link = .training then s.startConv .disable .disabled else s)

/-- LINK_DISABLE_CLEARED (03 R78). -/
def execLinkDisableCleared (s : State) : Res :=
  .next (if s.dev.link = .disabled then { s with dev := { s.dev with link := .down } } else s)

/-- CONVENTIONAL_RESET_DONE (03 R76, R77; 06 R174; 16 R468). -/
def execConventionalResetDone (s : State) : Res := .next s.endConv

/-- P54V_LOSS (03 R68, R82). -/
def execP54vLoss (mv : Nat) (s : State) : Res := .next (s.loseMain mv)

/-- P54V_LOW_TIMEOUT (03 R68). -/
def execP54vLowTimeout (mv : Nat) (s : State) : Res := .next (s.loseMain mv)

/-- AUX_LOSS (03 R69, R76). -/
def execAuxLoss (mv : Nat) (s : State) : Res := .next (s.loseAux mv)

/-- REFCLK_STOP (02 R48, 03 R82, 16 R448). -/
def execRefclkStop (s : State) : Res :=
  .next (if !s.dev.refclk then s
    else
      let s : State := { s with dev := { s.dev with refclk := false }, mgt := { s.mgt with osc := true } }
      if s.dev.baseOn then s.surprise 4 else s)

/-- REFCLK_START (16 R448). -/
def execRefclkStart (s : State) : Res :=
  .next { s with dev := { s.dev with refclk := true }, mgt := { s.mgt with osc := false } }

/-- LINK_DOWN (03 R82). -/
def execLinkDown (s : State) : Res :=
  .next (if s.dev.link = .up || s.dev.link = .training then s.surprise 3 else s)

/-- PF0_FLR (03 R76; 04 R129; 06 R174). -/
def execPf0Flr (s : State) : Res := .next s.pf0Flr

/-- PF0_FLR_COMPLETE (03 R76, R83). -/
def execPf0FlrComplete (s : State) : Res := .next s.pf0FlrDone

/-- VF_FLR (03 R76). -/
def execVfFlr (p : PdkId) (s : State) : Res := .next (if s.vfOn p.val then s.vfFlr p.val else s)

/-- VF_ENABLE_CLEAR (03 R88). -/
def execVfEnableClear (s : State) : Res :=
  .next (if s.hif.vfEnable then
      let s := allPdksVfFlr s
      { s with hif := { s.hif with vfEnable := false } }
    else s)
where
  /-- Every VF reset. -/
  allPdksVfFlr (s : State) : State := State.allPdks.foldl State.vfFlr s

/-- VF_D3HOT (03 R87). -/
def execVfD3hot (p : PdkId) (s : State) : Res :=
  .next ((s.modFn (p.val + 1) (fun f => { f with d3 := true })).suspendFor p.val (fun u => { u with d3vf := true }) .suspend)

/-- PF0_D3HOT (03 R87). -/
def execPf0D3hot (s : State) : Res :=
  .next (State.allPdks.foldl (fun s p => s.suspendFor p (fun u => { u with d3pf := true }) .suspend) (s.modFn 0 (fun f => { f with d3 := true })))

/-- VF_D0 (03 R87; 05 R133, R472): of any function. -/
def execVfD0 (fn : Fn) (s : State) : Res :=
  .next (let s := s.modFn fn.val (fun f => { f with d3 := false })
    let s := if fn.val = 0 then State.allPdks.foldl (fun s p => s.resumeFor p (fun u => { u with d3pf := false })) s
      else s.resumeFor (fn.val - 1) (fun u => { u with d3vf := false })
    s.releaseFn fn.val)

/-- VF_BME_CLEAR (03 R87). -/
def execVfBmeClear (p : PdkId) (s : State) : Res :=
  .next (s.busMaster (p.val + 1) false)

/-- VF_BME_SET (03 R87; 05 R472). -/
def execVfBmeSet (p : PdkId) (s : State) : Res :=
  .next (s.busMaster (p.val + 1) true)

/-- CONFIG_WRITE (03 R85, R88; 06 R186, R187). -/
def execConfigWrite (fn : Fn) (w : CfgWrite) (s : State) : Res := .next (s.cfgWrite fn.val w)

/-- MSIX_RELEASE (05 R472). -/
def execMsixRelease (fn : Fn) (s : State) : Res := .next (s.releaseFn fn.val)

/-- UNSUPPORTED_TLP (03 R86). -/
def execUnsupportedTlp (fn : Fn) (s : State) : Res := .next ((s.errMsg fn.val false true).send (.cpl fn.val .unsupported []))

/-- BAR2_TLP (03 R94-R96; 04 R113; 06 R189; 16 R463). -/
def execBar2Tlp (p : PdkId) (write : Bool) (off len : Nat) (data : List Byte) (ide : Option Nat) (s : State) : Res :=
  .next (s.bar2 p.val write off len data ide)

/-- PDK_WIN_WRITE (03 R96). -/
def execPdkWinWrite (p : PdkId) (val : Word) (ide : Option Nat) (s : State) : Res :=
  .next (s.vfWrite p.val 0x200 ide (fun s => s.modPdk p.val (fun d => { d with win := bits val.toNat 15 0 })))

end Sys2Proof.Machine
end

