-- ==== Sys2Proof/Machine/Power.lean ====
section
/-! DEFINITION. Rails, the power cap and thermal control (02 R56-R64, R473), paced mode (02 R50-R54), the STANDBY on request (03
R73-R75), the power of single bays (06 R198-R201), and the tick that passes while no command waits (log 11, DESIGN CHOICE). -/

namespace Sys2Proof.Machine

namespace State

/-! ### Rails (02 R57-R62, R473) -/

/-- Paced paddocks with a bay on a die below floor see UNMET (02 R54). -/
def markUnmet (s : State) (d : Nat) : State :=
  if 720 ≤ s.rail d then s
  else allPdks.foldl (fun s p =>
    if (s.pdk p).paceEn && (s.baysOf p).any (fun b => b / 4 = d) then s.modPdk p (fun x => { x with paceUnmet := true }) else s) s

/-- The rail of one die after an update (02 R57-R59, R61, R62): `want` is the lower of what cap and thermal control ask, `beat` the
reading of PWR_BEAT_MON before the update. A die below floor is raised again by JUNCTION_RECOVERED alone (log 49, DEDUCED). The rail that the
first update after a ramp starts from is the free value of `rampRails` (log 67). -/
def railNext (old want beat : Nat) (held : Bool) : Nat :=
  if held then 720
  else if old < 720 then max 660 (max (old - 10) (min want old))
  else
    let want := if 2560 < beat then min want (old - 10) else want
    let t := max 720 (min want 840)
    if old < t then min t (old + 10) else max t (old - 10)

/-- RAIL_UPDATE: during a controller restart the rails hold their values (03 R76). -/
def railUpdate (s : State) (cap therm mon : List Nat) (base : Nat) : State :=
  if !s.dev.baseOn || s.mgt.restart then s
  else if !s.dev.computeRails then
    { s with dev := { s.dev with railMv := [], beatMon := [], baseRailMv := 720, beatBase := base } }
  else
    let mv (l : List Nat) (d : Nat) : Nat := l.getD d 840
    let rails := (List.range 4).map (fun d =>
      (d, railNext (s.rail d) (min (mv cap d) (mv therm d)) (tget 0 s.dev.beatMon d) s.dev.tripSeal))
    let low := rails.foldl (fun m e => min m e.2) 840
    let b := if 2560 < s.dev.beatBase then max 720 (min low (s.dev.baseRailMv - 10)) else low
    let limit := (List.range 4).any (fun d => mv cap d < mv therm d)
    let changed : Bool := limit != s.dev.capLimiting
    let s : State := { s with dev := { s.dev with railMv := rails, beatMon := (List.range 4).map (fun d => (d, mon.getD d 0)),
                                                  baseRailMv := b, beatBase := base, capLimiting := limit } }
    let s := if changed then s.pwrEv 4 else s
    (List.range 4).foldl markUnmet s

/-- SUBFLOOR after a change of the rails: set while some die is below 0.72 V (PWR_STATUS). -/
def settleSubfloor (s : State) : State :=
  { s with dev := { s.dev with subfloor := (List.range 4).any (fun d => 0 < s.rail d && s.rail d < 720) } }

/-- Step 1 of R62: the rail goes below floor by at most 10 mV and not below 0.66 V, unless a trip holds it (step 3); the first such step is a
thermal event to the operator and to every paddock holding a bay (02 R54, R58, R62, R473). -/
def aboveFloor (s : State) (d tj mv : Nat) : State :=
  let s := { s with dev := { s.dev with tj := tset s.dev.tj d tj } }
  let old := s.rail d
  if !s.dev.computeRails || s.mgt.restart || s.dev.tripSeal || tj ≤ 95 || 720 < old || old = 0 then s
  else
    let was := s.dev.subfloor
    let s : State := { s with dev := { s.dev with railMv := tset s.dev.railMv d (max 660 (max (old - 10) (min mv old))) } }
    let s := s.settleBase.settleSubfloor.markUnmet d
    if was || !s.dev.subfloor then s
    else
      let s := (s.pwrEv 0).logRec 6 0 0 1 0x0002 0 [tj]
      allPdks.foldl (fun s p => if (s.baysOf p).isEmpty then s else s.pdkEv p 1) s

/-- Step 2 of R62: one update moves the rail to 0.72 V, and SUBFLOOR clears with the last die (02 R58, R62, R473). `mon` is the beat rate that
the die then has, which PWR_BEAT_MON reports (02 R49). -/
def junctionCool (s : State) (d tj mon : Nat) : State :=
  let s := { s with dev := { s.dev with tj := tset s.dev.tj d tj } }
  let old := s.rail d
  if !s.dev.computeRails || s.mgt.restart || 93 < tj || 720 ≤ old || old = 0 then s
  else
    let was := s.dev.subfloor
    let s := ({ s with dev := { s.dev with railMv := tset s.dev.railMv d 720, beatMon := tset s.dev.beatMon d mon } } : State).settleBase.settleSubfloor
    if was && !s.dev.subfloor then s.pwrEv 1 else s

/-- Steps 3 and 4 of R62: the rail is held at 0.72 V and every paddock is suspended; the jobs are sealed and the bays scrubbed as
BAY_SWITCH takes them. While a requested STANDBY is being entered no job runs and the compute rails go anyway. -/
def thermalTrip (s : State) (d tj : Nat) : State :=
  let s := { s with dev := { s.dev with tj := tset s.dev.tj d tj } }
  if !s.dev.computeRails || tj ≤ 105 || s.dev.tripSeal then s
  else
    let s := s.logRec 6 0 0 3 0x0002 0 [tj]
    let sub := s.dev.subfloor
    let s := ({ s with dev := { s.dev with railMv := (List.range 4).map (fun d => (d, 720)), subfloor := false } } : State).settleBase
    let s := if sub then s.pwrEv 1 else s
    if s.dev.trans = .toStandby then s
    else
      let s : State := { s with dev := { s.dev with tripSeal := true, trans := .trip } }
      allPdks.foldl (fun s p => s.suspendFor p (fun u => { u with trip := true }) .trip) s

/-- Step 5 of R62, once no bay holds a job: every core is scrubbed, the compute rails alone go, and the device is in a tripped STANDBY
(02 R62-R64). -/
def tripStandby (s : State) : State :=
  if !s.dev.tripSeal || (List.range 16).any (fun b => (s.bay b).job.isSome) then s
  else
    let s := ((List.range 16).foldl (fun s b => if (s.bay b).holder.isSome then s.freeBay b else s) s).scrubAll
    ({ s with dev := { s.dev with phase := .standby, standbyKind := .tripped, computeRails := false, railMv := [], beatMon := [], baseRailMv := 720
                                  capLimiting := false, tripped := true, tripSeal := false, trans := .none } } : State).pwrEv 2

/-! ### Power cap, pace -/

/-- The limit that a written value stands for, and CLAMPED (02 R60). -/
def capOf (w : Nat) : Nat × Bool := (max 500 (min w 900), decide (w < 500 ∨ 900 < w))

/-- A write of PWR_CAP (02 R60). -/
def pwrCapWrite (s : State) (v : Nat) : State :=
  let (w, c) := capOf (bits v 9 0)
  { s with dev := { s.dev with capWatts := w, clamped := c } }

/-- A write of PDK_PACE (02 R52, R53). -/
def paceWrite (s : State) (p v : Nat) : State :=
  let n := bits v 14 8
  let can := match (s.pdk p).img with
    | some img => bitAt img.features 3
    | none => false
  if bitAt v 0 && (n = 0 || 108 < n || !can) then s.modPdk p (fun d => { d with paceReject := true })
  else s.modPdk p (fun d => { d with paceEn := bitAt v 0, paceN := n, paceReject := false, paceUnmet := d.paceUnmet && !bitAt v 17 })

/-! ### STANDBY on request and back (03 R73-R75; 02 R64) -/

/-- A STANDBY request: only from INIT or READY and while no transition runs (03 R73, R75). -/
def standbyRequest (s : State) (force : Bool) : State :=
  if s.dev.trans ≠ .none || !(s.dev.phase = .init || s.dev.phase = .ready) then s
  else
    let busy := s.pdksWhere (fun d => d.st ≠ .empty)
    if !force && !busy.isEmpty then { s with dev := { s.dev with pwrRefused := true } }
    else busy.foldl (fun s p => s.beginTeardown p false) { s with dev := { s.dev with pwrRefused := false, trans := .toStandby } }

/-- Every TDI that is locked goes to ERROR as its stream's keys go (06 R186); every session and stream key is destroyed (03 R74). -/
def dropSessions (s : State) : State :=
  let s := (s.sec.ide.map (·.1)).foldl dropStream (allPdks.foldl tdiError s)
  { s with sec := { s.sec with doe := [], mctp := [] } }

/-- The STANDBY that was requested is entered once every paddock is EMPTY (03 R74). The owner tables stand until the next commit (06 R193). -/
def standbyDone (s : State) : State :=
  if s.dev.trans ≠ .toStandby || !(s.pdksWhere (fun d => d.st ≠ .empty)).isEmpty then s
  else
    let s := (s.abandonLoad 0).scrubAll.dropSessions
    let s := s.modLoad 0 (fun r => { r with meas := 0 })
    ({ s with dev := { s.dev with phase := .standby, standbyKind := .requested, removal := .standby, trans := .none, computeRails := false, memRails := false, railMv := []
                                  beatMon := [], baseRailMv := 720, capLimiting := false, subfloor := false }
              plat := none, saves := [], fab := {} } : State).pwrEv 5

/-- POWER_UP (03 PWR_CTRL, R74; 02 R64). -/
def powerUp (s : State) : State :=
  if s.dev.phase ≠ .standby || s.dev.trans ≠ .none then s
  else match s.dev.standbyKind with
  | .reset => s
  | .requested => { s with dev := { s.dev with pwrRefused := false, ramp := true, removal := .none, trans := .fromStandby } }
  | .tripped =>
    if s.dev.tj.all (fun e => e.2 ≤ 85) then { s with dev := { s.dev with pwrRefused := false, trans := .fromTrip } }
    else { s with dev := { s.dev with pwrRefused := true } }

/-- The return from a tripped STANDBY ends (02 R64). -/
def tripDone (s : State) : State :=
  if s.dev.trans ≠ .fromTrip then s
  else
    let s := (List.range 16).foldl resetPatrol s.scrubAll
    let s := ({ s with dev := { s.dev with computeRails := true, tripped := false, trans := .none,
                                           phase := if s.plat.isSome then .ready else .init } } : State).rampRails
    allPdks.foldl (fun s p => s.resumeFor p (fun u => { u with trip := false })) (s.pwrEv 5)

/-! ### Power of single bays (06 R198-R201) -/

/-- Step 1 of R198 for a bay; a bay under test waits for the test's end (16 R458). -/
def bayOff (s : State) (b : Nat) : State :=
  if !(s.bay b).powered || (s.bay b).pendOff then s
  else
    let s := s.modBay b (fun x => { x with pendOff := true })
    if (s.bay b).test.elim false (·.started) then s
    else (s.setUnitBoth (.bay (Fin.ofNat 16 b)) .draining).stopBay b .powerDown

/-- A power-down request, while the device is READY (06 R198). -/
def bayPowerDown (s : State) (mask : Nat) : State :=
  if s.dev.phase ≠ .ready then s
  else ((List.range 16).filter (fun b => bitAt mask b)).foldl bayOff s

/-- A power-up request: of a bay that is off or on its way off (06 R201). -/
def bayPowerUp (s : State) (mask : Nat) : State :=
  ((List.range 16).filter (fun b => bitAt mask b && (!(s.bay b).powered || (s.bay b).pendOff))).foldl
    (fun s b => s.modBay b (fun x => { x with pendOn := true })) s

/-- Step 4 of R198: the scrub is confirmed and the bay's power removed (02 R63; 06 R198, R201). -/
def bayOffDone (s : State) (b : Nat) : State :=
  let x := s.bay b
  if !x.pendOff || x.job.isSome || x.stopping.isSome || !x.scrubbed then s
  else
    let s := (s.modBay b (fun x => { x with powered := false, pendOff := false, next := none, prepared := false })).setUnitBoth
      (.bay (Fin.ofNat 16 b)) .offline
    if (List.range 16).any (fun c => (s.bay c).pendOff) then s else s.pwrEv 3

/-- A bay is powered, scrubbed and ONLINE (06 R201; 09 R285). -/
def bayOnDone (s : State) (b : Nat) : State :=
  if !(s.bay b).pendOn || (s.bay b).powered || !s.dev.computeRails then s
  else
    let s := ((s.modBay b (fun x => { x with powered := true, pendOn := false })).scrubBay b).resetPatrol b
    ((s.modBay b (fun x => { x with scrubbed := true })).setUnitBoth (.bay (Fin.ofNat 16 b)) .online).pwrEv 3

/-! ### A tick without a command (log 11, DESIGN CHOICE) -/

/-- One tick of time: the timestamp counter counts while the reference clock runs and a reset does not hold it (02 R44); the management
timer counts while the controller has power (16 R448); each paddock's bay occupancy counts its bays (05 SCH_PDK). -/
def idleTick (s : State) : State :=
  { s with dev := { s.dev with tsc := if s.dev.refclk && !s.dev.tscHold then s.dev.tsc + 1 else s.dev.tsc }
           mgt := { s.mgt with timer := if s.dev.aux then s.mgt.timer + 1 else s.mgt.timer }
           pdks := s.pdks.map (fun e => (e.1, { e.2 with held := e.2.held + (s.baysOf e.1).length })) }

end State

/-! ### The commands -/

/-- RAIL_UPDATE (02 R49, R54, R57-R61, R473). -/
def execRailUpdate (capMv thermMv mon : List Nat) (base : Nat) (s : State) : Res := .next (s.railUpdate capMv thermMv mon base)

/-- PWR_CAP_WRITE (02 R60). -/
def execPwrCapWrite (val : Word) (s : State) : Res := .next (s.pwrCapWrite val.toNat)

/-- PDK_PACE_WRITE (02 R52, R53). -/
def execPdkPaceWrite (p : PdkId) (val : Word) (ide : Option Nat) (s : State) : Res :=
  .next (s.vfWrite p.val 0x80 ide (fun s => s.paceWrite p.val val.toNat))

/-- JUNCTION_ABOVE_FLOOR (02 R62 step 1). -/
def execJunctionAboveFloor (d : DieId) (tj mv : Nat) (s : State) : Res := .next (s.aboveFloor d.val tj mv)

/-- JUNCTION_RECOVERED (02 R62 step 2). -/
def execJunctionRecovered (d : DieId) (tj mon : Nat) (s : State) : Res := .next (s.junctionCool d.val tj mon)

/-- THERMAL_TRIP (02 R62 steps 3 and 4). -/
def execThermalTrip (d : DieId) (tj : Nat) (s : State) : Res := .next (s.thermalTrip d.val tj)

/-- TRIP_ENTER_STANDBY (02 R62 step 5, R64). -/
def execTripEnterStandby (s : State) : Res := .next s.tripStandby

/-- STANDBY_REQUEST (03 R73-R75). -/
def execStandbyRequest (force : Bool) (s : State) : Res := .next (s.standbyRequest force)

/-- STANDBY_TRANSITION_DONE (03 R74). -/
def execStandbyTransitionDone (s : State) : Res := .next s.standbyDone

/-- POWER_UP (02 R64, 03 R74). -/
def execPowerUp (s : State) : Res := .next s.powerUp

/-- POWER_UP_AFTER_TRIP_DONE (02 R64). -/
def execPowerUpAfterTripDone (s : State) : Res := .next s.tripDone

/-- BAY_POWER_DOWN (06 R198). -/
def execBayPowerDown (mask : BitVec 16) (s : State) : Res := .next (s.bayPowerDown mask.toNat)

/-- BAY_SCRUB_CONFIRMED (06 R198 step 4). -/
def execBayScrubConfirmed (b : BayId) (s : State) : Res := .next (s.bayOffDone b.val)

/-- BAY_POWER_UP (06 R201). -/
def execBayPowerUp (mask : BitVec 16) (s : State) : Res := .next (s.bayPowerUp mask.toNat)

/-- BAY_POWER_UP_COMPLETE (06 R201). -/
def execBayPowerUpComplete (b : BayId) (s : State) : Res := .next (s.bayOnDone b.val)

end Sys2Proof.Machine
end

