-- ==== Sys2Proof/Machine/Loader.lean ====
section
/-! DEFINITION. The loader: its queue, the reading of an image, the checks in order, commit and roll-back (04 R98-R132, 05 R138, R139;
06 R178). -/

namespace Sys2Proof.Machine

namespace State

/-! ### Queue (04 R120, R121) -/

/-- A GO write: ignored while a load of the function is queued or busy, else it clears the status and queues (04 R120). -/
def loadGo (s : State) (fn : Nat) : State :=
  if (s.load fn).queued || (s.load fn).busy then s
  else
    let s := s.modLoad fn (fun r => { r with code := 0, check := 0, done := false, section_ := 0, offset := 0, queued := true })
    { s with ldr := { s.ldr with queue := s.ldr.queue ++ [fn] } }

/-- The package frames that a tenant image's extent touches: first and number (04 R113). -/
def imageFrames (s : State) (p : Nat) : Option (Nat × Nat) :=
  let r := s.load (p + 1)
  if r.len = 0 then none
  else some ((s.quota p).frameBase + r.src / frameSize, (r.src + r.len - 1) / frameSize - r.src / frameSize + 1)

/-- A tenant's GO: its image frames are locked from then on (04 R113, R120); ignored where the VF is not enabled (03 R88). -/
def tenantGo (s : State) (p : Nat) : State :=
  let r := s.load (p + 1)
  if !s.vfOn p || r.queued || r.busy then s
  else
    let s := s.loadGo (p + 1)
    s.modPdk p (fun d => { d with goLock := s.imageFrames p })

/-! ### End of a load (04 R122, R128) -/

/-- The loader is free for the next load. -/
def ldrFree (s : State) : State :=
  { s with ldr := { s.ldr with cur := none, early := none, staged := [], readErr := false, readOut := 0, passed := false }
           hif := { s.hif with reads := s.hif.reads.filter (fun e => e.2 ≠ .image) } }

/-- A load ends with its result: DONE, and a message on the function's loader vector, also where LOAD_DONE still stands from an earlier load;
a failed tenant load leaves the paddock EMPTY and its frames unlocked (04 R122, R124, R128; 05 R156, PDK_EVENT; 06 R174). -/
def endLoad (s : State) (fn code check sec off : Nat) : State :=
  let s := s.ldrFree.modLoad fn (fun r =>
    { r with code := code, check := check, section_ := sec, offset := off, busy := false, queued := false, done := true })
  if fn = 0 then s.msix 0 0
  else
    let p := fn - 1
    let s := if code ≠ Status.ok && ((s.pdk p).st = .loading || (s.pdk p).st = .empty) then
        (s.modPdk p (fun d => { d with rootKey := none })).setPdkSt p .empty
      else s
    (s.modPdk p (fun d => { d with goLock := none, event := d.event ||| 1 })).msix fn 0

/-! ### Checks 1 to 7 (04 R124) -/

/-- Checks 1 to 5: check and code of the first that fails. -/
def earlyFail (s : State) (fn : Nat) : Option (Nat × Nat) :=
  let r := s.load fn
  let empty : Bool := (s.pdk (fn - 1)).st = .empty || (s.pdk (fn - 1)).st = .loading
  if s.dev.phase = .restricted then some (1, Status.versionUnsupported)
  else if (if fn = 0 then s.dev.phase ≠ .init else s.dev.phase ≠ .ready || !empty) then some (2, Status.accessDenied)
  else if r.len = 0 then some (3, Status.okZero)
  else if r.src % 4096 ≠ 0 || r.len % 64 ≠ 0 then some (4, Status.alignFault)
  else if (if fn = 0 then 0x1000000 else 0x40000000) < r.len then some (5, Status.imageInvalid)
  else none

/-- Bytes of a platform image to be read: up to the end of the host's address space. -/
def platLen (s : State) : Nat := min (s.load 0).len (2 ^ 64 - (s.load 0).src)

/-- The next host read of a platform image: at most 4 KiB at a time (04 R123; 03 R474). -/
def readOn (s : State) : State :=
  let got := s.ldr.staged.length
  if s.ldr.readErr || s.platLen ≤ got then { s with ldr := { s.ldr with readOut := 0 } }
  else
    let n := min 4096 (s.platLen - got)
    ({ s with ldr := { s.ldr with readOut := n } } : State).hostRead 0 ((s.load 0).src + got) n .image

/-- An EMPTY paddock becomes LOADING with a fresh root key of 256 bits; without the DRBG its load ends at once (05 R133; 06 R174, R178). -/
def openLoad (s : State) (fn : Nat) : State :=
  if !s.drbgReady then s.endLoad fn Status.entropyFault 0 0 0
  else
    let (k, s) := s.drawWide 4
    (s.setPdkSt (fn - 1) .loading).modPdk (fn - 1) (fun d => { d with rootKey := some (BitVec.ofNat 256 k) })

/-- The loader takes the load at the head of its queue (04 R121; 05 R133; 06 R174, R178). A tenant's root key is drawn here, and without
the DRBG the load ends at once. A platform load is taken only while PF0 may read host memory. Checks 1 to 5 look at the state in which the
load is taken, so that a load taken in TEARDOWN fails check 2 whatever follows (05 R172). -/
def loaderTake (s : State) : State :=
  match s.ldr.cur, s.ldr.queue with
  | none, fn :: rest =>
    if fn = 0 && !s.canMaster 0 && (s.earlyFail 0).isNone then s
    else
      let s : State := { s with ldr := { s.ldr with queue := rest, cur := some fn, early := s.earlyFail fn, staged := [], readErr := false, readOut := 0, passed := false } }
      let s := s.modLoad fn (fun r => { r with queued := false, busy := true })
      match s.ldr.early with
      | some (k, _) =>
        if fn = 0 || k ≤ 3 then s
        else s.openLoad fn
      | none => if fn = 0 then s.readOn else s.openLoad fn
  | _, _ => s

/-- First package address of a tenant image. -/
def imageAt (s : State) (p : Nat) : Nat := (s.quota p).frameBase * frameSize + (s.load (p + 1)).src

/-- Checks 6 and 7 of a tenant load (04 R124; 06 R192). -/
def tenantExtent (s : State) (p : Nat) : Option (Nat × Nat) :=
  let r := s.load (p + 1)
  let a := s.imageAt p
  if (s.quota p).frameCount ≤ r.src / frameSize then some (6, Status.accessDenied)
  else if (s.quota p).frameCount ≤ (r.src + r.len - 1) / frameSize then some (7, Status.accessSpan)
  else match s.checkOwner (p + 1) a r.len with
    | some e => some (if e = Status.accessDenied then 6 else if e = Status.accessSpan then 7 else 0, e)
    | none => if s.poisonTouch a r.len then some (0, Status.rowRetired) else none

/-- Checks 6 and 7 of a platform load. -/
def platExtent (s : State) : Option (Nat × Nat) :=
  if s.ldr.readErr then some (6, Status.accessDenied)
  else if 2 ^ 64 < (s.load 0).src + (s.load 0).len then some (7, Status.accessSpan) else none

/-- The image bytes that the loader checks and commits: those staged from the host, or those of the locked frames (04 R113, R123). -/
def imageBytes (s : State) (fn : Nat) : List Byte := if fn = 0 then s.ldr.staged else s.memRead (s.imageAt (fn - 1)) (s.load fn).len

/-- A tenant image is read once, through the memory controllers (04 R123, 10 R306). -/
def stageImage (s : State) (fn : Nat) : State :=
  if fn = 0 then s
  else
    let d := s.imageBytes fn
    let s := s.traffic false (s.imageAt (fn - 1)) [] d.length
    { s with ldr := { s.ldr with staged := d } }

/-- What the checks compare with. -/
def loadCtx (s : State) (fn : Nat) : LoadCtx :=
  { kind := if fn = 0 then 1 else 2, fwMinor := s.runVersion 1 % 256, fwMajor := s.runVersion 1 / 256, ucMinor := s.runVersion 2 % 256,
    ucMajor := s.runVersion 2 / 256, keys := s.mgt.keys.map (·.2), plat := s.plat.getD {}, quota := s.quota (fn - 1),
    src := (s.load fn).src }

/-- The first failure of a load: check, code, section, offset. Checks 1 to 7 locate nothing. -/
def loadFail (s : State) (fn : Nat) : Option (Nat × Nat × Nat × Nat) :=
  match s.ldr.early with
  | some (k, c) => some (k, c, 0, 0)
  | none =>
    match (if fn = 0 then s.platExtent else s.tenantExtent (fn - 1)) with
    | some (k, c) => some (k, c, 0, 0)
    | none => Img.firstFail (Img.checks (s.loadCtx fn) (s.imageBytes fn) (s.load fn).len)

/-- The checks end: the load fails, or it has passed and waits for its commit (04 R124, R125). A platform load is not checked before all
of it is read. -/
def checksDone (s : State) : State :=
  match s.ldr.cur with
  | none => s
  | some fn =>
    if s.ldr.passed || (fn = 0 && s.ldr.readOut ≠ 0) then s
    else match s.loadFail fn with
      | some (k, c, i, o) => s.endLoad fn c k i o
      | none => let s := s.stageImage fn
        { s with ldr := { s.ldr with passed := true } }

/-! ### Commit (04 R126, R127; 05 R138; 06 R190, R193) -/

/-- The owner table of a platform (04 R103, R105; 06 R192). -/
def ownersOf (pl : Platform) : List OwnRange :=
  ((((List.range pl.quotas.length).zip pl.quotas).filter (fun e => e.2.frameCount ≠ 0)).map (fun e =>
    { base := e.2.frameBase, count := e.2.frameCount, owner := e.1 + 1 })) ++ [{ base := pl.poolBase, count := pl.poolFrames, owner := 0x80 }]

/-- A platform image is committed as one change (04 R109, R126; 06 R193). -/
def platCommit (s : State) : State :=
  if s.ldr.cur ≠ some 0 || !s.ldr.passed || s.dev.phase ≠ .init then s
  else
    let d := s.ldr.staged
    let pl := Img.platOf d (Img.sects d (fieldAt d 0x0C 2))
    let s : State := { s with plat := some pl, own := ownersOf pl, yard := {}, dev := { s.dev with phase := .ready } }
    let s := s.modLoad 0 (fun r => { r with meas := pl.meas })
    let en := match pl.fabric with
      | some f => f.portEn
      | none => 0
    let s := (List.range 8).foldl (fun s k => if bitAt en k then s.setUnitBoth (.port (Fin.ofNat 8 k)) .online else s) s
    (s.newEpoch none).endLoad 0 Status.ok 0 0 0

/-- A tenant image is committed at one beat, from the bytes that were checked: the paddock is RUNNABLE, its consent, counters and keys start
anew, and its save area goes to the scheduler (04 R123, R127; 05 R137, R138; 06 R182, R183, R190; 10 PDK_STALL). A commit after a thermal trip
leaves the paddock SUSPENDED like every other until the POWER_UP (02 R62, R64). -/
def tenantCommit (s : State) : State :=
  match s.ldr.cur with
  | some (p + 1) =>
    if !s.ldr.passed then s
    else
      let d := s.ldr.staged
      let img := Img.imageOf d (Img.sects d (fieldAt d 0x0C 2))
      let q := s.quota p
      let n := 19 * img.needs.bays
      let s : State := if n = 0 then s
        else { s with own := { base := q.frameBase + (q.frameCount - n), count := n, owner := 0x81 } :: s.own }
      let s := s.modPdk p (fun x => { x with img := some img, lock := x.goLock, goLock := none, saveOwned := n ≠ 0, gen := x.gen + 1, consent := 0, serial := 0, ever := false
                                             stall := [], beats := 0, held := 0, pfxKey0 := 0, pfxKey1 := 0, spill := 0 })
      let s := s.modLoad (p + 1) (fun r => { r with meas := img.meas })
      let s := ((s.newEpoch none).setPdkSt p .runnable).updRecord p
      let s := if s.dev.tripSeal || s.dev.tripped then s.suspendFor p (fun u => { u with trip := true }) .trip else s
      s.endLoad (p + 1) Status.ok 0 0 0
  | _ => s

end State

/-! ### The commands -/

/-- LDR_GO (04 R120). -/
def execLdrGo (s : State) : Res := .next (s.loadGo 0)

/-- PDK_LOAD_GO (03 R88; 04 R113, R120; 06 R189). -/
def execPdkLoadGo (p : PdkId) (ide : Option Nat) (s : State) : Res := .next (s.vfWrite p.val 0x310 ide (fun s => s.tenantGo p.val))

/-- LOADER_TAKE (04 R121-R123; 06 R178). -/
def execLoaderTake (s : State) : Res := .next s.loaderTake

/-- LOAD_CHECKS_COMPLETE (04 R124, R125, R128). -/
def execLoadChecksComplete (s : State) : Res := .next s.checksDone

/-- PLATFORM_COMMIT (04 R126). -/
def execPlatformCommit (s : State) : Res := .next s.platCommit

/-- TENANT_COMMIT (04 R127; 05 R138). -/
def execTenantCommit (s : State) : Res := .next s.tenantCommit

end Sys2Proof.Machine
end

