-- ==== Sys2Proof/Machine/Security.lean ====
section
/-! DEFINITION. The entropy source and the DRBG (06 R175-R179, R475), SPDM (06 R180-R183), IDE_KM and TDISP (06 R184-R189), consent and
epochs (06 R190-R197). Codes and layouts that the named standards give are theirs (log 53, PRESUMED). -/

namespace Sys2Proof.Machine

/-! ### Health tests (06 R176, R475) -/

/-- The Repetition Count Test on a sample: its state after it, and whether it fails. A run of 0 starts again at the next sample. -/
def rctStep (r : Rng) (v : Byte) : Rng × Bool :=
  let n := if r.rctRun ≠ 0 ∧ v = r.rctVal then r.rctRun + 1 else 1
  if n = 41 then ({ r with rctVal := v, rctRun := 0 }, true) else ({ r with rctVal := v, rctRun := n }, false)

/-- The Adaptive Proportion Test on a sample: a window of 512 whose first sample is the reference. -/
def aptStep (r : Rng) (v : Byte) : Rng × Bool :=
  let r : Rng := if r.aptPos = 0 then { r with aptRef := v, aptCount := 1, aptPos := 1 }
    else { r with aptCount := if v = r.aptRef then r.aptCount + 1 else r.aptCount, aptPos := r.aptPos + 1 }
  if r.aptCount = 410 then ({ r with aptPos := 0, aptCount := 0 }, true)
  else if r.aptPos = 512 then ({ r with aptPos := 0, aptCount := 0 }, false) else (r, false)

/-- One raw sample through both tests: the state after it, and which of the two failed (06 R176-R178, R475). -/
def rngStep (r : Rng) (v : Byte) : Rng × Bool × Bool :=
  let (r, f) := rctStep r v
  let (r, g) := aptStep r v
  if f || g then
    ({ r with running := false, fault := true, rctFail := r.rctFail || f, aptFail := r.aptFail || g,
              failCount := satAdd 65535 r.failCount 1, passRun := 0, fresh := 0 }, f, g)
  else ({ r with passRun := satAdd 1024 r.passRun 1, fresh := satAdd 1024 r.fresh 1 }, f, g)

namespace State

/-- ENTROPY_SAMPLE while the base die is powered; a failing sample is logged, and a tenant load that the loader has taken ends with it (06
R176-R178, R475, R476; 16 R454). -/
def entropy (s : State) (v : Byte) : State :=
  if !s.dev.baseOn then s
  else
    let (r, f, g) := rngStep s.sec.rng v
    let s : State := { s with sec := { s.sec with rng := r } }
    if !f && !g then s
    else
      let s := s.logRec 6 0 Status.entropyFault 2 0x0060 0 [b2n f + 2 * b2n g]
      match s.ldr.cur with
      | some (p + 1) => s.endLoad (p + 1) Status.entropyFault 0 0 0
      | _ => s

/-- The DRBG is instantiated from 1,024 consecutive passing samples (06 R179). -/
def reinstantiate (s : State) : State :=
  if s.sec.rng.running || s.sec.rng.passRun < 1024 then s
  else { s with sec := { s.sec with rng := { s.sec.rng with running := true, fault := false, gens := 0, fresh := 0 } } }

/-- The DRBG reseeds from 1,024 fresh samples (06 R177). -/
def reseed (s : State) : State :=
  if !s.sec.rng.running || s.sec.rng.fresh < 1024 then s
  else { s with sec := { s.sec with rng := { s.sec.rng with gens := 0, fresh := 0 } } }

end State

/-! ### Measurements (06 R181-R183) -/

namespace State

/-- HIF_ID (03 HIF_ID). -/
def hifId : Nat := 0x02B00256

/-- HIF_VERSION bits [31:0]: firmware and microcode minor and major (03 HIF_VERSION). -/
def hifVersion (s : State) : Nat := s.runVersion 1 + s.runVersion 2 * 2 ^ 16

/-- Digest of a running firmware component: its image where one has been installed, the factory's otherwise (06 R181). -/
def compDigest (s : State) (comp : Nat) : BitVec 384 :=
  match tget [] s.mgt.fw.active comp with
  | [] => Config.bootDigest (comp + 1)
  | img => Crypto.sha384 img

/-- A measurement block's value type and value (06 R181). -/
def measurement (s : State) (i : Nat) : Option (Nat × List Byte) :=
  let dig (ty : Nat) (v : BitVec 384) : Option (Nat × List Byte) := some (ty, leBytes 48 v.toNat)
  match i with
  | 1 => dig 0x00 (Config.bootDigest 1)
  | 2 => dig 0x01 (s.compDigest 1)
  | 3 => dig 0x01 (s.compDigest 2)
  | 4 => dig 0x03 (match tget [] s.mgt.fw.active 1 with
    | [] => Config.bootDigest 4
    | img => Config.matrixDigest img)
  | 5 => some (0x82, leBytes 4 hifId ++ leBytes 4 s.hifVersion)
  | 6 => dig 0x03 (match s.plat with
    | some pl => pl.meas
    | none => 0)
  | 7 => some (0x85, leBytes 1 (b2n Config.testFuseWhole) ++ leBytes 1 (b2n s.mgt.testOn) ++ leBytes 2 0)
  | _ => if 17 ≤ i && i ≤ 80 then some (0x83, s.record (i - 17)) else none

/-- A block in the DMTF measurement format: index, specification 1, size, then value type, size and value (06 R181; log 53, PRESUMED). -/
def measBlock (s : State) (i : Nat) : List Byte :=
  match s.measurement i with
  | some (ty, v) => leBytes 1 i ++ leBytes 1 1 ++ leBytes 2 (v.length + 3) ++ leBytes 1 ty ++ leBytes 2 v.length ++ v
  | none => []

/-- Every block's index. -/
def measAll : List Nat := [1, 2, 3, 4, 5, 6, 7] ++ (List.range 64).map (· + 17)

/-! ### SPDM (06 R174, R180) -/

/-- Whether a responder answers: the DOE mailbox while the link is configured, the controller while it is up and not restarting. -/
def answers (s : State) : Responder → Bool
  | .doe => s.dev.cfgReady
  | .mctp => s.dev.aux && s.dev.booted && !s.mgt.restart

/-- A response sent where the responder answers. -/
def spdmSay (s : State) (r : Responder) (code : Nat) (body : List Byte) : State := if s.answers r then s.send (.spdm r code body) else s

/-- ERROR with an error code (log 53, PRESUMED). -/
def spdmErr (s : State) (r : Responder) (e : Nat) : State := s.spdmSay r 0x7F [BitVec.ofNat 8 e]

/-- The Alias key, from the fused secret and measurement blocks 1 to 4 (06 R174). -/
def alias_ (s : State) : BitVec 384 := Config.aliasKey ([1, 2, 3, 4].flatMap s.measBlock)

/-- A response that the Alias key signs, over what the requester sent for it (`asked`) and the body; without the key there is none to fall
back to (06 R174, R175). -/
def spdmSigned (s : State) (r : Responder) (code : Nat) (asked body : List Byte) : State :=
  if s.sec.aliasKey then s.spdmSay r code (body ++ Config.ecdsaSign s.alias_ (asked ++ body)) else s.spdmErr r 0x05

/-- The certificates of slot 0: Otveda root, Otveda intermediate, DeviceID and Alias (06 R174, R180). -/
def certs (s : State) : List Byte :=
  Config.rootCert ++ Config.intermediateCert ++ Config.deviceIdCert ++ Config.aliasCert (Config.aliasPublic s.alias_)

/-- The certificate chain of slot 0 as SPDM transfers it: its length, the digest of the root, the certificates (06 R180; log 53, PRESUMED for
the layout). -/
def chain (s : State) : List Byte :=
  leBytes 2 (s.certs.length + 52) ++ leBytes 2 0 ++ leBytes 48 (Crypto.sha384 Config.rootCert).toNat ++ s.certs

/-- Its digest. -/
def chainDigest (s : State) : List Byte := leBytes 48 (Crypto.sha384 s.chain).toNat

/-- The sessions of a responder. -/
def sessions (s : State) : Responder → List Session
  | .doe => s.sec.doe
  | .mctp => s.sec.mctp

/-- They are changed. -/
def setSessions (s : State) (r : Responder) (l : List Session) : State :=
  match r with
  | .doe => { s with sec := { s.sec with doe := l } }
  | .mctp => { s with sec := { s.sec with mctp := l } }

/-- Sessions that a responder holds at a time (06 R180). -/
def sessionMax : Responder → Nat
  | .doe => 4
  | .mctp => 2

/-- A session by its number. -/
def session (s : State) (r : Responder) (sid : Nat) : Option Session := (s.sessions r).find? (fun x => x.sid = sid)

/-- GET_CERTIFICATE, CHALLENGE: only slot 0 holds a chain (06 R180). -/
def slotSay (s : State) (r : Responder) (slot : Nat) (f : State → State) : State := if slot = 0 then f s else s.spdmErr r 0x01

/-- GET_MEASUREMENTS: the blocks as at one beat, signed (06 R181, R183). Index 0 asks for their number, 0xFF for all. -/
def getMeasurements (s : State) (r : Responder) (idx : Nat) (nonce : List Byte) : State :=
  if idx = 0 then s.spdmSigned r 0x60 nonce (leBytes 1 measAll.length)
  else if idx = 0xFF then s.spdmSigned r 0x60 nonce (measAll.flatMap s.measBlock)
  else if (s.measurement idx).isSome then s.spdmSigned r 0x60 nonce (s.measBlock idx)
  else s.spdmErr r 0x01

/-- Heartbeat period in seconds (06 R180). -/
def heartbeat : Nat := 60

/-- KEY_EXCHANGE: the answer names the session, the heartbeat period and the public half of an ephemeral key from the DRBG (06 R173, R174,
R178, R180). Without the DRBG the error is Unspecified also where the limit of sessions is reached (log 72, DESIGN CHOICE). -/
def keyExchange (s : State) (r : Responder) (data : List Byte) : State :=
  if !s.answers r then s
  else if !s.drbgReady then s.spdmErr r 0x05
  else if sessionMax r ≤ (s.sessions r).length then s.spdmErr r 0x0A
  else if !s.sec.aliasKey then s.spdmErr r 0x05
  else
    let (k, s) := s.drawWide 6
    let sid := s.sec.nextSid
    let s : State := { s with sec := { s.sec with nextSid := sid + 1 } }
    (s.setSessions r (s.sessions r ++ [{ sid := sid, established := false, keyEpoch := 0 }])).spdmSigned r 0x64 data
      (leBytes 1 heartbeat ++ leBytes 2 sid ++ Config.ecdhePublic (BitVec.ofNat 384 k))

/-- FINISH: a bad MAC ends the handshake (06 R174, R180; log 53, PRESUMED). -/
def finish (s : State) (r : Responder) (sid : Nat) (ok : Bool) : State :=
  match s.session r sid with
  | none => s.spdmErr r 0x02
  | some x =>
    if x.established then s.spdmErr r 0x04
    else if ok then
      (s.setSessions r ((s.sessions r).map (fun y => if y.sid = sid then { y with established := true } else y))).spdmSay r 0x65 []
    else (s.setSessions r ((s.sessions r).filter (fun y => y.sid ≠ sid))).spdmErr r 0x06

/-- A request inside an established session. -/
def inSession (s : State) (r : Responder) (sid : Nat) (f : State → State) : State :=
  if !s.answers r then s
  else if (s.session r sid).elim false (·.established) then f s else s.spdmErr r 0x02

/-- A session ends and its keys are destroyed (06 R174). -/
def endSession (s : State) (r : Responder) (sid : Nat) : State := s.setSessions r ((s.sessions r).filter (fun y => y.sid ≠ sid))

/-! ### IDE_KM (06 R184, R186) -/

/-- Number that a link stream's entry has; selective streams are 0 to 255 (06 R184). -/
def linkStream : Nat := 256

/-- An answer inside a secured session of either responder; outside one there is none (06 R180). -/
def secured (s : State) (sid : Nat) (f : State → State) : State :=
  if [Responder.doe, Responder.mctp].any (fun r => s.answers r && (s.session r sid).elim false (·.established)) then f s else s

/-- The keys of a stream change: a TDI bound to it and locked goes to ERROR (06 R186). -/
def streamChanged (s : State) (k : Nat) : State :=
  match (tget ({} : IdeStream) s.sec.ide k).vf with
  | some p => s.tdiError p
  | none => s

/-- Whether a selective stream is in use: it holds a key or is bound to a VF. -/
def streamUsed (x : IdeStream) : Bool := !x.keys.isEmpty || x.vf.isSome

/-- Whether a stream can be keyed or bound: the link stream, or one of at most 64 selective streams in use, with an ID of 0 to 255 (06 R184). -/
def streamOk (s : State) (k : Nat) : Bool :=
  k = linkStream || (k < 256 && (streamUsed (tget {} s.sec.ide k) || (s.sec.ide.filter (fun e => e.1 < 256 && streamUsed e.2)).length < 64))

/-- What the part supports of IDE, in the layout of the IDE capability register: link and selective IDE, PCRC, IDE_KM, 64 selective streams;
no aggregation, no IDE for configuration requests (06 R184; log 53, PRESUMED for the layout). -/
def ideCapability : Nat := 0x3F0063

/-- KEY_PROG (06 R174, R184, R186). -/
def keyProg (s : State) (k set_ : Nat) (rx : Bool) (sub : Nat) : State :=
  if !s.streamOk k then s.send (.ideKm 0x03 [0x03])
  else
    let s : State := { s with sec := { s.sec with ide := tmod {} s.sec.ide k (fun x =>
      { x with keys := x.keys.filter (· ≠ (set_, rx, sub)) ++ [(set_, rx, sub)], gone := false }) } }
    (s.streamChanged k).send (.ideKm 0x03 [0x00])

/-- K_SET_GO: the sub-stream runs on a set that has its key; switching between programmed sets is no change of keys (06 R184; log 54, DEDUCED). -/
def kSetGo (s : State) (k set_ : Nat) (rx : Bool) (sub : Nat) : State :=
  if !(tget ({} : IdeStream) s.sec.ide k).keys.contains (set_, rx, sub) then s.send (.ideKm 0x06 [0x04])
  else
    ({ s with sec := { s.sec with ide := tmod {} s.sec.ide k (fun x =>
      { x with active := x.active.filter (fun a => !(a.2.1 = rx && a.2.2 = sub)) ++ [(set_, rx, sub)] }) } } : State).send (.ideKm 0x06 [0x00])

/-- K_SET_STOP: the set stops and its key is destroyed (06 R174, R175, R186). -/
def kSetStop (s : State) (k set_ : Nat) (rx : Bool) (sub : Nat) : State :=
  if !(tget ({} : IdeStream) s.sec.ide k).keys.contains (set_, rx, sub) then s.send (.ideKm 0x06 [0x04])
  else
    let s : State := { s with sec := { s.sec with ide := tmod {} s.sec.ide k (fun x =>
      { x with keys := x.keys.filter (· ≠ (set_, rx, sub)), active := x.active.filter (· ≠ (set_, rx, sub)), gone := true }) } }
    (s.streamChanged k).send (.ideKm 0x06 [0x00])

/-- Whether a stream is keyed and active in both directions (06 R186). -/
def streamActive (s : State) (k : Nat) : Bool :=
  let a := (tget ({} : IdeStream) s.sec.ide k).active
  a.any (fun e => e.2.1) && a.any (fun e => !e.2.1)

/-! ### TDISP (06 R185-R189) -/

/-- TDISP ERROR (log 53, PRESUMED). -/
def tdispErr (s : State) (p e : Nat) : State := s.send (.tdisp p 0x7F (leBytes 4 e))

/-- INVALID_REQUEST. -/
def tdispInvalid : Nat := 0x0001
/-- INVALID_INTERFACE_STATE. -/
def tdispState : Nat := 0x0004
/-- UNSUPPORTED_REQUEST. -/
def tdispUnsupported : Nat := 0x0007

/-- LOCK_INTERFACE_REQUEST (06 R184-R186). An ID that is no selective stream's, a stream bound to another VF, and a stream beyond the 64 are
answered with INVALID_REQUEST, after the checks of the state (log 72, DESIGN CHOICE). -/
def tdiLock (s : State) (p k : Nat) (p2p : Bool) : State :=
  if p2p then s.tdispErr p tdispInvalid
  else if (s.tdi p).st ≠ .unlocked || !s.vfOn p || (s.pdk p).st ≠ .empty then s.tdispErr p tdispState
  else if 256 ≤ k || !s.streamOk k || ((tget ({} : IdeStream) s.sec.ide k).vf.elim false (fun q => q ≠ p)) then s.tdispErr p tdispInvalid
  else
    let s : State := { s with sec := { s.sec with ide := tmod {} s.sec.ide k (fun x => { x with vf := some p }) } }
    (s.setTdi p (fun _ => { st := .locked, stream := some k })).send (.tdisp p 0x03 (Config.standardBody 0x83 p))

/-- START_INTERFACE_REQUEST (06 R186). -/
def tdiStart (s : State) (p : Nat) : State :=
  match (s.tdi p).st, (s.tdi p).stream with
  | .locked, some k =>
    if s.streamActive k then (s.setTdi p (fun t => { t with st := .run })).send (.tdisp p 0x06 []) else s.tdispErr p tdispState
  | _, _ => s.tdispErr p tdispState

/-- STOP_INTERFACE_REQUEST: the paddock is torn down if it is not EMPTY, and the move completes with the teardown (06 R186). -/
def tdiStop (s : State) (p : Nat) : State :=
  if (s.tdi p).st = .unlocked then s.tdispErr p tdispState
  else
    let s := s.send (.tdisp p 0x07 [])
    if (s.pdk p).st = .empty then s.tdiUnlock p
    else (s.modTdi p (fun t => { t with unlockDue := true })).beginTeardown p true

/-- One range of an interface report: BAR, first byte in it, pages of 4 KiB, and whether it holds the MSI-X table (06 R189; log 53, PRESUMED for
the layout). -/
def reportRange (bar off pages : Nat) (msix : Bool) : List Byte := leBytes 8 off ++ leBytes 4 pages ++ leBytes 2 (b2n msix) ++ leBytes 2 bar

/-- The body of DEVICE_INTERFACE_REPORT: BAR0 (2 MiB), BAR2 (256 MiB) and the MSI-X table, then the paddock record (03 R89; 06 R182, R189). -/
def tdiReport (s : State) (p : Nat) : List Byte :=
  leBytes 4 3 ++ reportRange 0 0 512 false ++ reportRange 2 0 65536 false ++ reportRange 0 0xF000 1 true ++ s.record p

/-! ### Consent and epochs (06 R190, R194-R197) -/

/-- A write of PDK_CONSENT (06 R190). -/
def consentWrite (s : State) (p v : Nat) : State :=
  let st := (s.pdk p).st
  let c := v % 16
  if !(st = .runnable || st = .running || st = .suspended) || c = (s.pdk p).consent then s
  else
    ((s.modPdk p (fun d => { d with consent := c, serial := (d.serial + 1) % 65536, ever := d.ever || c ≠ 0 })).newEpoch (some (p + 1))).updRecord p

/-- Whether an access that was checked under an epoch before e has not completed: in a memory controller, of a transfer that a peer goes on
with, of a Loft page on its way (06 R194, R195; log 73, DEDUCED for the epoch of a request that waits for its controller). -/
def accessOpen (s : State) (e : Nat) : Bool :=
  s.memOpen e || s.fab.rx.any (fun x => earlier e x.epoch) || s.yard.fetches.any (fun x => earlier e x.2.ep)

/-- A rule change and all before it are acknowledged, once every access checked under an earlier epoch has completed (06 R195, R197). -/
def epochAck (s : State) (e : Nat) : State :=
  let e := e % 2 ^ 32
  if epochDone s.sec.ack e || !epochDone s.sec.epoch e || s.accessOpen e then s else { s with sec := { s.sec with ack := e } }

end State

/-! ### The commands -/

/-- ENTROPY_SAMPLE (06 R176-R178, R475). -/
def execEntropySample (v : Byte) (s : State) : Res := .next (s.entropy v)

/-- DRBG_REINSTANTIATE (06 R179). -/
def execDrbgReinstantiate (s : State) : Res := .next s.reinstantiate

/-- DRBG_RESEED (06 R177). -/
def execDrbgReseed (s : State) : Res := .next s.reseed

/-- GET_VERSION (06 R180): one version, 1.3 (log 53, PRESUMED for the layout). -/
def execGetVersion (r : Responder) (s : State) : Res := .next (s.spdmSay r 0x04 ([0, 1] ++ leBytes 2 0x1300))

/-- GET_CAPABILITIES (06 R180). -/
def execGetCapabilities (r : Responder) (s : State) : Res := .next (s.spdmSay r 0x61 (Config.standardBody 0xE1 0))

/-- NEGOTIATE_ALGORITHMS (06 R180): ECDSA on P-384, SHA-384, ECDHE on secp384r1 and AES-256-GCM, each alone (log 53, PRESUMED for the codes). -/
def execNegotiateAlgorithms (r : Responder) (s : State) : Res :=
  .next (s.spdmSay r 0x63 (leBytes 4 0x80 ++ leBytes 4 0x02 ++ leBytes 2 0x10 ++ leBytes 2 0x02))

/-- GET_DIGESTS (06 R180): the mask of the slots that hold a chain, which is slot 0 alone, and its digest. -/
def execGetDigests (r : Responder) (s : State) : Res := .next (s.spdmSay r 0x01 (leBytes 1 1 ++ s.chainDigest))

/-- GET_CERTIFICATE (06 R180): a portion of the chain in slot 0. -/
def execGetCertificate (r : Responder) (slot : Fin 8) (off len : Nat) (s : State) : Res :=
  .next (s.slotSay r slot.val (fun s => s.spdmSay r 0x02 ((s.chain.drop off).take len)))

/-- CHALLENGE (06 R174, R180). -/
def execChallenge (r : Responder) (slot : Fin 8) (nonce : List Byte) (s : State) : Res :=
  .next (s.slotSay r slot.val (fun s => s.spdmSigned r 0x03 nonce s.chainDigest))

/-- GET_MEASUREMENTS (06 R181-R183). -/
def execGetMeasurements (r : Responder) (idx : Nat) (nonce : List Byte) (s : State) : Res := .next (s.getMeasurements r idx nonce)

/-- KEY_EXCHANGE (06 R174, R178, R180). -/
def execKeyExchange (r : Responder) (data : List Byte) (s : State) : Res := .next (s.keyExchange r data)

/-- FINISH (06 R174, R180). -/
def execFinish (r : Responder) (sid : Nat) (macOk : Bool) (s : State) : Res := .next (if s.answers r then s.finish r sid macOk else s)

/-- HEARTBEAT (06 R180). -/
def execHeartbeat (r : Responder) (sid : Nat) (s : State) : Res := .next (s.inSession r sid (fun s => s.spdmSay r 0x68 []))

/-- KEY_UPDATE (06 R180). -/
def execKeyUpdate (r : Responder) (sid : Nat) (s : State) : Res :=
  .next (s.inSession r sid (fun s =>
    (s.setSessions r ((s.sessions r).map (fun y => if y.sid = sid then { y with keyEpoch := y.keyEpoch + 1 } else y))).spdmSay r 0x69 []))

/-- END_SESSION (06 R174). -/
def execEndSession (r : Responder) (sid : Nat) (s : State) : Res :=
  .next (s.inSession r sid (fun s => (s.endSession r sid).spdmSay r 0x6C []))

/-- CHUNK_GET (06 R180). -/
def execChunkGet (r : Responder) (handle seq : Nat) (s : State) : Res := .next (s.spdmSay r 0x06 (Config.standardBody 0x86 (handle * 65536 + seq)))

/-- SPDM_UNSUPPORTED_REQUEST (06 R180). -/
def execSpdmUnsupportedRequest (r : Responder) (code : Nat) (s : State) : Res := .next (s.spdmSay r 0x7F [0x07, BitVec.ofNat 8 code])

/-- HEARTBEAT_TIMEOUT (06 R174). -/
def execHeartbeatTimeout (r : Responder) (sid : Nat) (s : State) : Res := .next (s.endSession r sid)

/-- IDE_KM_QUERY (06 R184). -/
def execIdeKmQuery (sid : Nat) (port : Nat) (s : State) : Res :=
  .next (s.secured sid (fun s => s.send (.ideKm 0x01 (leBytes 1 port ++ leBytes 4 State.ideCapability))))

/-- KEY_PROG (06 R174, R184, R186). -/
def execKeyProg (sid stream : Nat) (set : Fin 2) (rx : Bool) (sub : Fin 4) (s : State) : Res :=
  .next (s.secured sid (fun s => s.keyProg stream set.val rx sub.val))

/-- K_SET_GO (06 R184). -/
def execKSetGo (sid stream : Nat) (set : Fin 2) (rx : Bool) (sub : Fin 4) (s : State) : Res :=
  .next (s.secured sid (fun s => s.kSetGo stream set.val rx sub.val))

/-- K_SET_STOP (06 R174, R184, R186). -/
def execKSetStop (sid stream : Nat) (set : Fin 2) (rx : Bool) (sub : Fin 4) (s : State) : Res :=
  .next (s.secured sid (fun s => s.kSetStop stream set.val rx sub.val))

/-- GET_TDISP_VERSION (06 R185). -/
def execGetTdispVersion (sid : Nat) (p : PdkId) (s : State) : Res :=
  .next (s.secured sid (fun s => s.send (.tdisp p.val 0x01 (Config.standardBody 0x101 0))))

/-- GET_TDISP_CAPABILITIES (06 R185). -/
def execGetTdispCapabilities (sid : Nat) (p : PdkId) (s : State) : Res :=
  .next (s.secured sid (fun s => s.send (.tdisp p.val 0x02 (Config.standardBody 0x102 0))))

/-- LOCK_INTERFACE_REQUEST (06 R185, R186). -/
def execLockInterfaceRequest (sid : Nat) (p : PdkId) (stream : Nat) (p2p : Bool) (s : State) : Res :=
  .next (s.secured sid (fun s => s.tdiLock p.val stream p2p))

/-- GET_DEVICE_INTERFACE_REPORT (06 R189): of a TDI that is locked or in RUN. -/
def execGetDeviceInterfaceReport (sid : Nat) (p : PdkId) (s : State) : Res :=
  .next (s.secured sid (fun s =>
    if (s.tdi p.val).st = .locked || (s.tdi p.val).st = .run then s.send (.tdisp p.val 0x04 (s.tdiReport p.val))
    else s.tdispErr p.val State.tdispState))

/-- GET_DEVICE_INTERFACE_STATE (06 R185). -/
def execGetDeviceInterfaceState (sid : Nat) (p : PdkId) (s : State) : Res :=
  .next (s.secured sid (fun s => s.send (.tdisp p.val 0x05 (leBytes 1 (tdiCode (s.tdi p.val).st)))))

/-- START_INTERFACE_REQUEST (06 R186). -/
def execStartInterfaceRequest (sid : Nat) (p : PdkId) (s : State) : Res := .next (s.secured sid (fun s => s.tdiStart p.val))

/-- STOP_INTERFACE_REQUEST (06 R186). -/
def execStopInterfaceRequest (sid : Nat) (p : PdkId) (s : State) : Res := .next (s.secured sid (fun s => s.tdiStop p.val))

/-- TDISP_UNSUPPORTED_REQUEST (06 R185). -/
def execTdispUnsupportedRequest (sid : Nat) (p : PdkId) (s : State) : Res :=
  .next (s.secured sid (fun s => s.tdispErr p.val State.tdispUnsupported))

/-- PDK_CONSENT_WRITE (06 R190, R194). -/
def execPdkConsentWrite (p : PdkId) (val : Word) (ide : Option Nat) (s : State) : Res :=
  .next (s.vfWrite p.val 0x400 ide (fun s => s.consentWrite p.val val.toNat))

/-- EPOCH_ACK (06 R195, R197). -/
def execEpochAck (e : Nat) (s : State) : Res := .next (s.epochAck e)

/-- DOE_DISCOVERY (03 R85): the data-object protocols of the mailbox by index, each with the next index, 0 at the end (log 53, PRESUMED). -/
def execDoeDiscovery (idx : Nat) (s : State) : Res :=
  .next (if !s.dev.cfgReady then s
    else if idx ≤ 2 then s.send (.doe (leBytes 2 0x0001 ++ leBytes 1 idx ++ leBytes 1 ((idx + 1) % 3)))
    else s.send (.doe (leBytes 2 0xFFFF ++ leBytes 2 0)))

end Sys2Proof.Machine
end

