-- ==== Sys2Proof/Machine/HostIf.lean ====
section
/-! DEFINITION. The host's view of BAR0: the register maps of PF0 and the VFs (03 R90-R93, and each chapter's registers), the access codes
(00 R8, R9), reads that clear and latch (00 R471, 02 R47), refused accesses (03 R91, R92, R97), MSI-X tables (03 R89, 05 R472), and the
completions of host reads (03 R474). -/

namespace Sys2Proof.Machine

/-- Code of a device state (03 HIF_STATE). -/
def phaseCode : Phase → Nat
  | .off => 0
  | .standby => 1
  | .init => 2
  | .restricted => 3
  | .ready => 4

/-- Code of a unit state (16 RAS_BAY_STATE). -/
def unitCode : UnitSt → Nat
  | .online => 0
  | .draining => 1
  | .quarantined => 2
  | .offline => 3

/-- Code of a port's mode (15 FAB_PORT). -/
def modeCode : PortMode → Nat
  | .none => 0
  | .direct => 1
  | .switched => 2
  | .faulted => 3

/-- Code of a job slot's state (15 FAB_JOB_CFG). -/
def jobSlotCode : JobSlotSt → Nat
  | .idle => 0
  | .active => 1
  | .retired => 2

/-- Numbers below `n` put side by side, `w` bits each. -/
def pack (w n : Nat) (f : Nat → Nat) : Nat := (List.range n).foldl (fun t i => t + f i % 2 ^ w * 2 ^ (w * i)) 0

namespace State

/-! ### Configuration space (03 R85, R88, R89) -/

end State

/-- What configuration space holds by name (03 R85, R88, R89): identifiers, capabilities, their values, and what the host programs. -/
inductive CfgItem where
  | vendorId | deviceId | classCode | bar0Bytes | bar2Bytes | bar0Prefetchable | bar2Prefetchable | bar64Bit
  | powerManagement | noSoftReset | pme | d1d2
  | endpoint | maxPayloadSupported | maxPayload | maxReadRequest | flr | tag10Requester | tag10Completer | tag14Requester | tag14Completer
  | aspm | l0p | timeoutRanges | completionTimeout
  | msixVectors | msixEnable | functionMask | msixTable | msixPba | msi
  | aer | ari | serialNumber | dataLinkFeature | scaledFlowControl | physicalLayer16 | physicalLayer32 | physicalLayer64 | laneMargining
  | sriov | totalVfs | initialVfs | firstVfOffset | vfStride | supportedPageSizes | vfDeviceId | numVfs | vfEnable
  | doeMailboxes | ide | tdisp | ats | pri | pasid | tph | ltr | ptm | resizableBar | atomicOps | vpd | ioSpace | busMaster
deriving DecidableEq, Repr

/-- Vendor ID of every function (03 R89). -/
abbrev vendorId : Nat := 0x1F0D

namespace State

/-- What configuration space of a function holds; `none` where the function lacks the item (03 R85, R88, R89). No row of the table reads
configuration space: this says what such a read would find. A capability that is there without a value reads 1, one that the AX256 does
not support 0. -/
def cfgItem (s : State) (fn : Nat) : CfgItem → Option Nat
  | .vendorId => some vendorId
  | .deviceId => some (if fn = 0 then 0xA256 else 0xA257)
  | .classCode => some 0x120000
  | .bar0Bytes => some (if fn = 0 then 0x4000000 else 0x200000)
  | .bar2Bytes => if fn = 0 then none else some 0x10000000
  | .bar0Prefetchable => some 0
  | .bar2Prefetchable => if fn = 0 then none else some 1
  | .bar64Bit => some 1
  | .powerManagement => some 1
  | .noSoftReset => some 1
  | .pme => some 0
  | .d1d2 => some 0
  | .endpoint => some 1
  | .maxPayloadSupported => some 512
  | .maxPayload => some (tlpBytes s.hif.mps)
  | .maxReadRequest => some (tlpBytes s.hif.mrrs)
  | .flr => some 1
  | .tag10Requester => some 1
  | .tag10Completer => some 1
  | .tag14Requester => some 1
  | .tag14Completer => some 1
  | .aspm => some 0
  | .l0p => some 0
  | .timeoutRanges => some 0xF
  | .completionTimeout => some (s.fnCfg fn).cto
  | .msixVectors => some (if fn = 0 then 256 else 28)
  | .msixEnable => some (b2n (s.fnCfg fn).msixEn)
  | .functionMask => some (b2n (s.fnCfg fn).fnMask)
  | .msixTable => some (if fn = 0 then 0x8000 else 0xF000)
  | .msixPba => some (if fn = 0 then 0x9000 else 0xF800)
  | .msi => some 0
  | .aer => some 1
  | .ari => some 1
  | .serialNumber => if fn = 0 then some Config.serialNumber.toNat else none
  | .dataLinkFeature => if fn = 0 then some 1 else none
  | .scaledFlowControl => if fn = 0 then some 1 else none
  | .physicalLayer16 => if fn = 0 then some 1 else none
  | .physicalLayer32 => if fn = 0 then some 1 else none
  | .physicalLayer64 => if fn = 0 then some 1 else none
  | .laneMargining => if fn = 0 then some 1 else none
  | .sriov => if fn = 0 then some 1 else none
  | .totalVfs => if fn = 0 then some 64 else none
  | .initialVfs => if fn = 0 then some 64 else none
  | .firstVfOffset => if fn = 0 then some 1 else none
  | .vfStride => if fn = 0 then some 1 else none
  | .supportedPageSizes => if fn = 0 then some 4096 else none
  | .vfDeviceId => if fn = 0 then some 0xA257 else none
  | .numVfs => if fn = 0 then some s.hif.numVfs else none
  | .vfEnable => if fn = 0 then some (b2n s.hif.vfEnable) else none
  | .doeMailboxes => if fn = 0 then some 1 else none
  | .ide => if fn = 0 then some 1 else none
  | .tdisp => some 1
  | .ats => some 0
  | .pri => some 0
  | .pasid => some 0
  | .tph => some 0
  | .ltr => some 0
  | .ptm => some 0
  | .resizableBar => some 0
  | .atomicOps => some 0
  | .vpd => some 0
  | .ioSpace => some 0
  | .busMaster => some (b2n (s.fnCfg fn).bme)

/-! ### Reading without side effects -/

/-- PWR_CTRL.BUSY: a transition of PWR_CTRL or of a thermal trip is in progress. The ramp of step 7 after a cold or conventional reset is none:
the spec does not say whether it is one, and BUSY's reset value is 0 (03 R75, PWR_CTRL; log 69, DESIGN CHOICE). -/
def pwrBusy (s : State) : Bool := s.dev.trans ≠ .none

/-- PWR_STATUS.RAIL_MV: the rail of the lowest powered die (02 PWR_STATUS). -/
def lowRail (s : State) : Nat := (List.range 4).foldl (fun m d => min m (s.rail d)) (s.rail 0)

/-- PWR_STATUS.TJ_C: the hottest junction, the base die's among them (02 PWR_STATUS; 16 R451). -/
def hotTj (s : State) : Nat := min 255 ((s.dev.tj.map (·.2)).foldl max (tget 0 s.mgt.sensors 5))

/-- REQ and ACK of a function (06 PDK_EPOCH, R197). -/
def epochReg (s : State) (fn : Nat) : Nat := tget 0 s.sec.epochReq fn + s.sec.ack * 2 ^ 32

/-- LDR_STATUS or PDK_LOAD_STATUS (04). -/
def loadStatus (s : State) (fn : Nat) : Nat :=
  let r := s.load fn
  r.code % 256 + r.check % 32 * 2 ^ 8 + b2n r.busy * 2 ^ 13 + b2n r.queued * 2 ^ 14 + b2n r.done * 2 ^ 15 + r.section_ % 256 * 2 ^ 16
    + r.offset % 2 ^ 32 * 2 ^ 32

/-- SEC_RNG_STATUS (06). -/
def rngStatus (s : State) : Nat :=
  let r := s.sec.rng
  b2n r.running + b2n r.fault * 2 + b2n r.rctFail * 4 + b2n r.aptFail * 8 + r.failCount % 65536 * 2 ^ 16 + r.passRun % 2048 * 2 ^ 32

/-- One 32-bit word of a function's MSI-X table: address, upper address, data, vector control (03 R85, R89). -/
def msixWord (s : State) (fn i : Nat) : Nat :=
  if i % 4 = 3 then b2n (tget true (s.fnCfg fn).vecMask (i / 4)) else (tget 0 (s.fnCfg fn).msixTab i).toNat

/-- 8 bytes of the MSI-X table, from byte `o`. -/
def msixTable (s : State) (fn o : Nat) : Nat := s.msixWord fn (o / 4) + s.msixWord fn (o / 4 + 1) * 2 ^ 32

/-- 64 pending bits of the PBA, from byte `o`. -/
def msixPba (s : State) (fn o : Nat) : Nat := pack 1 64 (fun i => b2n (tget false (s.fnCfg fn).pba (8 * o + i)))

/-- BAY_SPAD_RAS (09). -/
def spadRas (s : State) (n : Nat) : Nat :=
  let c := s.core n
  pack 4 8 (s.spare n) + c.ce % 65536 * 2 ^ 32 + c.ue % 256 * 2 ^ 48 + b2n (!c.marked.isEmpty) * 2 ^ 56
    + b2n ((List.range 8).any (fun k => s.spare n k = 0)) * 2 ^ 57

/-- COR_STATE (07). -/
def corState (s : State) (n : Nat) : Nat :=
  let c := s.core n
  c.pc % 65536 + c.program % 16 * 2 ^ 16 + b2n c.running * 2 ^ 20 + b2n c.mac.isSome * 2 ^ 21 + b2n c.cause.isSome * 2 ^ 22
    + (c.cause.getD 0) % 16 * 2 ^ 23 + c.fault % 256 * 2 ^ 32 + b2n c.semSat * 2 ^ 40 + b2n c.intSat * 2 ^ 41

/-- PDK_STALL, PDK_BEATS and PDK_HELD by offset (10 R314); `open_` is false where the stall counters read zero. -/
def counter (s : State) (p r : Nat) (open_ : Bool) : Nat :=
  let d := s.pdk p
  if r < 0x50 then (if open_ then tget 0 d.stall (r / 8) % 2 ^ 64 else 0)
  else if r = 0x50 then d.beats % 2 ^ 64
  else if r = 0x58 then d.held % 2 ^ 64
  else 0

/-- Paddock that the `i`-th entry of a device-wide table of paddocks 1 to 64 is for. -/
def entryPdk (i : Nat) : Option Nat := if 1 ≤ i && i ≤ 64 then some (i - 1) else none

/-- A bay window's register (03 R91; 07 COR_STATE; 09 BAY_SPAD_RAS). -/
def bayReg (s : State) (b rel : Nat) : Nat :=
  if 0x2000 ≤ rel && rel < 0x2100 && rel % 16 = 0 then s.spadRas (16 * b + (rel - 0x2000) / 16)
  else if 0x80000 ≤ rel && (rel - 0x80000) % 0x8000 = 0 then s.corState (16 * b + (rel - 0x80000) / 0x8000)
  else 0

/-- PF0's registers from 0x0080_0000: power and health (02, 03, 05, 06, 16). -/
def pwrReg (s : State) (o : Nat) : Nat :=
  if o = 0x800000 then b2n s.dev.pwrRefused * 2 ^ 8 + b2n s.pwrBusy * 2 ^ 9
  else if o = 0x800010 then s.dev.capWatts % 1024 + b2n s.dev.clamped * 2 ^ 16
  else if o = 0x800018 then
    s.lowRail % 1024 + s.hotTj * 2 ^ 10 + b2n s.dev.capLimiting * 2 ^ 18 + b2n s.dev.subfloor * 2 ^ 19 + b2n s.dev.tripped * 2 ^ 20
  else if o = 0x800020 then s.dev.pwrEvent.toNat
  else if o = 0x800100 then (if s.dev.computeRails then pack 16 4 (fun d => tget 0 s.dev.beatMon d) else 0)
  else if o = 0x800108 then s.dev.beatBase % 65536
  else if o = 0x800208 then
    pack 1 16 (fun b => b2n (s.bay b).powered) + pack 1 16 (fun b => b2n ((s.bay b).pendOff || (s.bay b).pendOn)) * 2 ^ 16
  else if o = 0x800300 then s.ras.event.toNat
  else if o = 0x800308 then pack 2 16 (fun b => unitCode (s.bay b).unit_)
  else if o = 0x800310 then
    pack 2 8 (fun p => unitCode (s.port p).unit_) + pack 2 4 (fun e => unitCode (s.engine e).unit_) * 2 ^ 16
      + pack 2 6 (fun t => unitCode (tget .online s.ras.stackSt t)) * 2 ^ 24
  else 0

/-- PF0's registers of the interface, the mailbox and the loader (03, 04, 16). -/
def hifReg (s : State) (o : Nat) : Nat :=
  if o = 0x00 then hifId
  else if o = 0x08 then s.hifVersion + Config.bolpaMinor.toNat * 2 ^ 32 + 2 ^ 40
  else if o = 0x10 then phaseCode s.dev.phase + b2n s.pwrBusy * 8 + b2n (s.dev.compatFail && s.dev.phase = .restricted) * 16
  else if o = 0x20 then s.hif.err.toNat
  else if o = 0x40 then s.dev.tsc.toNat
  else if 0x8000 ≤ o && o < 0x9000 then s.msixTable 0 (o - 0x8000)
  else if 0x9000 ≤ o && o < 0x9020 then s.msixPba 0 (o - 0x9000)
  else if o = 0x100000 then
    s.mgt.mboxLen % 2048 + b2n (s.mgt.mboxBusy || s.mgt.restart) * 2 ^ 17 + b2n s.mgt.mboxDone * 2 ^ 18 + s.mgt.mboxRlen % 2048 * 2 ^ 19
  else if 0x101000 ≤ o && o < 0x101400 then leNat ((List.range 8).map (fun i => tget 0 s.mgt.mboxBuf (o - 0x101000 + i)))
  else if o = 0x200000 then (s.load 0).src
  else if o = 0x200008 then (s.load 0).len
  else if o = 0x200018 then s.loadStatus 0
  else if 0x200040 ≤ o && o ≤ 0x200068 then (s.load 0).meas.toNat / 2 ^ (8 * (o - 0x200040)) % 2 ^ 64
  else 0

/-- An 8-byte register of PF0, by offset (03 R90). Reserved ranges and write-only fields read zero (00 R8, R9; 03 R92). -/
def pfReg (s : State) (o : Nat) : Nat :=
  if o < 0x300000 then s.hifReg o
  else if o < 0x300800 then
    (match entryPdk ((o - 0x300000) / 16), o % 16 with
     | some p, 0 => pdkCode (s.pdk p).st * 2 ^ 16 + (s.baysOf p).length * 2 ^ 24
     | _, _ => 0)
  else if o = 0x300800 then s.sch.event.toNat
  else if o = 0x300808 then s.sch.eventPdk.toNat
  else if o = 0x400000 then s.rngStatus
  else if o = 0x400010 then s.sec.keyRetired
  else if o = 0x400020 then s.epochReg 0
  else if o = 0x500000 then (match s.plat with
    | some pl => s.poolPages + s.mangerSlots * 2 ^ 23 + pl.stride * 2 ^ 38
    | none => 0)
  else if 0x700000 ≤ o && o < 0x700080 && o % 16 = 0 then
    let x := s.port ((o - 0x700000) / 16)
    b2n x.up + modeCode x.mode * 2 + (if x.mode = .direct then x.peer % 1024 * 8 + x.peerPort % 8 * 2 ^ 13 else 0) + x.drops * 2 ^ 16
      + x.fecUe * 2 ^ 32
  else if 0x800000 ≤ o && o < 0x900000 then s.pwrReg o
  else if 0x1000000 ≤ o && o < 0x2000000 then s.bayReg ((o - 0x1000000) / 0x100000) (o % 0x100000)
  else if 0x2000000 ≤ o then
    (match entryPdk ((o - 0x2000000) / 0x100) with
     | some p => s.counter p (o % 0x100) (bitAt (s.pdk p).consent 2)
     | none => 0)
  else 0

/-- The selected ring's registers (05 R140). -/
def ringReg (s : State) (p o : Nat) : Nat :=
  let r := s.ring p (s.pdk p).ringSel
  if o = 0x100 then r.base
  else if o = 0x108 then r.cq
  else if o = 0x110 then
    r.sqLog % 32 + r.cqLog % 32 * 2 ^ 8 + b2n r.bg * 2 ^ 16 + r.vector % 32 * 2 ^ 24 + b2n r.en * 2 ^ 30 + r.defUs % 2 ^ 32 * 2 ^ 32
  else
    r.sqHead % 65536 + r.cqTail % 65536 * 2 ^ 16 + b2n (r.job.elim false (fun j => j.ph ≠ .done)) * 2 ^ 32 + b2n r.stopped * 2 ^ 33
      + b2n r.fault * 2 ^ 34 + b2n r.refused * 2 ^ 35 + b2n r.dbBad * 2 ^ 36 + (r.slot.getD 0) % 256 * 2 ^ 37

/-- A graph's registers (14 TMB_FG_CTRL, TMB_FG_STATUS). -/
def graphReg (s : State) (p o : Nat) : Nat :=
  let x := s.graph p ((o - 0x800) / 32)
  if o % 32 = 0 then b2n x.en + x.posBase % 2 ^ 24 * 2 ^ 8 + b2n x.refused * 2 ^ 32
  else if o % 32 = 16 then
    x.done % 2 ^ 32 + b2n (!x.frames.isEmpty) * 2 ^ 32 + b2n x.overrun * 2 ^ 33 + b2n (!x.en && x.frames.isEmpty) * 2 ^ 34
  else 0

/-- A VF's control and status registers (03, 04, 05, 06, 14). -/
def vfCtlReg (s : State) (p o : Nat) : Nat :=
  let d := s.pdk p
  if o = 0x00 then
    p + 1 + phaseCode s.dev.phase * 2 ^ 8 + pdkCode d.st * 2 ^ 16 + s.runVersion 2 / 256 % 256 * 2 ^ 24 + s.runVersion 2 % 256 * 2 ^ 32
  else if o = 0x18 then d.event.toNat
  else if o = 0x40 then s.dev.tsc.toNat
  else if o = 0x80 then b2n d.paceEn + d.paceN % 128 * 2 ^ 8 + b2n d.paceReject * 2 ^ 16 + b2n d.paceUnmet * 2 ^ 17
  else if o = 0xF8 then d.ringSel
  else if 0x100 ≤ o && o ≤ 0x118 then s.ringReg p o
  else if o = 0x200 then d.win % 65536 + (s.quota p).frameCount % 65536 * 2 ^ 32
  else if o = 0x208 then d.accErr.toNat
  else if o = 0x300 then (s.load (p + 1)).src
  else if o = 0x308 then (s.load (p + 1)).len
  else if o = 0x318 then s.loadStatus (p + 1)
  else if 0x340 ≤ o && o ≤ 0x368 then (s.load (p + 1)).meas.toNat / 2 ^ (8 * (o - 0x340)) % 2 ^ 64
  else if o = 0x400 then s.consentReg p
  else if o = 0x410 then s.epochReg (p + 1)
  else if 0x800 ≤ o && o < 0xA00 then s.graphReg p o
  else if 0xF000 ≤ o && o < 0xF1C0 then s.msixTable (p + 1) (o - 0xF000)
  else if o = 0xF800 then s.msixPba (p + 1) 0 % 2 ^ 28
  else 0

/-- A VF's Yard registers (13). -/
def vfYardReg (s : State) (p o : Nat) : Nat :=
  let d := s.pdk p
  if o = 0x10000 then s.pagesUsed p + s.slotsUsed p * 2 ^ 32
  else if o = 0x10008 then s.seqsUsed p + s.nodesUsed p * 2 ^ 32 + b2n d.keyRefused * 2 ^ 63
  else if o = 0x10010 then (s.loftPages p).length + d.authFails * 2 ^ 32
  else if 0x10100 ≤ o && o < 0x10200 then
    let g := (o - 0x10100) / 16
    let x := s.grant p g
    if o % 16 = 0 then x.base
    else x.mib % 2 ^ 21 + b2n x.en * 2 ^ 31 + b2n ((s.loftPages p).any (fun u => u.1 = g)) * 2 ^ 32 + b2n x.refused * 2 ^ 33
  else 0

/-- A VF's fabric registers (15). -/
def vfFabReg (s : State) (p o : Nat) : Nat :=
  let d := s.pdk p
  if 0x20000 ≤ o && o < 0x20080 then
    let x := tget ({} : PostQ) s.fab.postqs (p * 16 + (o - 0x20000) / 8)
    b2n x.en + x.hoop % 16 * 2 + x.pos % 16 * 2 ^ 5 + x.lbay % 16 * 2 ^ 9 + x.ring % 256 * 2 ^ 16
  else if o = 0x20100 then d.eyeSel
  else if o = 0x20108 then (s.eyelet p d.eyeSel).cfg / 2 * 2 + b2n (s.eyelet p d.eyeSel).en
  else if o = 0x20110 then (s.eyelet p d.eyeSel).base + b2n (s.eyelet p d.eyeSel).refused * 2 ^ 48
  else if o = 0x20200 then d.jobSel
  else if o = 0x20208 then
    let x := s.fabJob p d.jobSel
    x.jobId % 2 ^ 32 + x.nMembers % 128 * 2 ^ 32 + jobSlotCode x.st * 2 ^ 42 + b2n x.refused * 2 ^ 44
  else 0

/-- An 8-byte register of VF n, by offset (03 R93). -/
def vfReg (s : State) (p o : Nat) : Nat :=
  if o < 0x10000 then s.vfCtlReg p o
  else if o < 0x20000 then s.vfYardReg p o
  else if o < 0x30000 then s.vfFabReg p o
  else if o < 0x30060 then s.counter p (o - 0x30000) true
  else 0

/-- What a read of the 8-byte register at `o` of a function returns. -/
def reg (s : State) (fn o : Nat) : Nat := if fn = 0 then s.pfReg o else s.vfReg (fn - 1) o

/-! ### What a read clears, and the latch (00 R471, 02 R47, 03 R97) -/

/-- RC fields of PF0 cleared by a read that covers the low half (`lo`) or the high half (`hi`). A 4-byte read of one half of SCH_EVENT_PDK,
whose one field fills both halves, clears the bits of that half and leaves the others: R471's first sentence names the whole field, its
second the half (log 70, DEDUCED). -/
def pfClear (s : State) (o : Nat) (lo hi : Bool) : State :=
  if o = 0x20 then (if lo then { s with hif := { s.hif with err := 0 } } else s)
  else if o = 0x300800 then (if lo then { s with sch := { s.sch with event := 0 } } else s)
  else if o = 0x300808 then
    { s with sch := { s.sch with eventPdk := s.sch.eventPdk &&& (if lo then 0xFFFFFFFF00000000 else 0xFFFFFFFFFFFFFFFF) &&&
                                             (if hi then 0xFFFFFFFF else 0xFFFFFFFFFFFFFFFF) } }
  else if o = 0x400000 then (if lo then { s with sec := { s.sec with rng := { s.sec.rng with rctFail := false, aptFail := false } } } else s)
  else if o = 0x400010 then (if lo then { s with sec := { s.sec with keyRetired := 0 } } else s)
  else if 0x700000 ≤ o && o < 0x700080 && o % 16 = 0 then
    s.modPort ((o - 0x700000) / 16) (fun x => { x with drops := if lo then 0 else x.drops, fecUe := if hi then 0 else x.fecUe })
  else if o = 0x800020 then (if lo then { s with dev := { s.dev with pwrEvent := 0 } } else s)
  else if o = 0x800300 then (if lo then { s with ras := { s.ras with event := 0 } } else s)
  else if 0x1000000 ≤ o && o < 0x2000000 && hi && 0x2000 ≤ o % 0x100000 && o % 0x100000 < 0x2100 && o % 16 = 0 then
    s.modCore (16 * ((o - 0x1000000) / 0x100000) + (o % 0x100000 - 0x2000) / 16) (fun c => { c with ce := 0, ue := 0 })
  else s

/-- RC fields of VF n that a read clears. -/
def vfClear (s : State) (p o : Nat) (lo hi : Bool) : State :=
  if o = 0x208 && lo then s.modPdk p (fun d => { d with accErr := 0 })
  else if o = 0x18 && lo then s.modPdk p (fun d => { d with event := 0 })
  else if o = 0x10010 && hi then s.modPdk p (fun d => { d with authFails := 0 })
  else s

/-- Number of the latch of a register whose halves are latched; `none` for every other register. -/
def latchKey (fn o : Nat) : Option Nat :=
  if o = 0x40 then some (2 * fn + 1)
  else if (fn = 0 && o = 0x20) || (fn ≠ 0 && o = 0x208) then some (2 * fn)
  else none

/-- A read of a register that was accepted: its value, and what the read leaves. A low-half read latches the high half for the next
high-half read, which uses the latch up; an 8-byte read leaves no latch (00 R471, 02 R47; log 55, DEDUCED). -/
def regRead (s : State) (fn off size : Nat) : Nat × State :=
  let o := off / 8 * 8
  let v := s.reg fn o
  let lo : Bool := off % 8 = 0
  let hi : Bool := size = 8 || off % 8 = 4
  let clear (s : State) : State := if fn = 0 then s.pfClear o lo hi else s.vfClear (fn - 1) o lo hi
  let latch (f : Tab (BitVec 32) → Tab (BitVec 32)) (s : State) : State := { s with hif := { s.hif with latch := f s.hif.latch } }
  match latchKey fn o with
  | none => (if size = 8 then v else if lo then v % 2 ^ 32 else v / 2 ^ 32, clear s)
  | some k =>
    if size = 8 then (v, (clear s |> latch (fun t => tdel t k)))
    else if lo then (v % 2 ^ 32, (clear s |> latch (fun t => tset t k (BitVec.ofNat 32 (v / 2 ^ 32)))))
    else match tfind s.hif.latch k with
      | some h => (h.toNat, latch (fun t => tdel t k) s)
      | none => (v / 2 ^ 32, s)

/-! ### Writing -/

/-- Bits that a 1 clears, by function and register (00 R8). -/
def w1cMask (fn o : Nat) : Nat :=
  if fn = 0 then 0
  else if o = 0x80 then 2 ^ 17
  else if o = 0x118 then 7 * 2 ^ 34
  else if 0x800 ≤ o && o < 0xA00 && o % 32 = 0 then 2 ^ 32
  else if 0x800 ≤ o && o < 0xA00 && o % 32 = 16 then 2 ^ 33
  else if o = 0x10008 then 2 ^ 63
  else if 0x10100 ≤ o && o < 0x10200 && o % 16 = 8 then 2 ^ 33
  else if o = 0x20110 then 2 ^ 48
  else if o = 0x20208 then 2 ^ 44
  else 0

/-- A register without its W1C bits; a key register holds what was written though it reads zero. -/
def rwReg (s : State) (fn o : Nat) : Nat :=
  if fn ≠ 0 && o = 0x10020 then (s.pdk (fn - 1)).pfxKey0.toNat
  else if fn ≠ 0 && o = 0x10028 then (s.pdk (fn - 1)).pfxKey1.toNat
  else if fn ≠ 0 && 0x20220 ≤ o && o ≤ 0x20238 then
    (tget 0 (s.fabJob (fn - 1) (s.pdk (fn - 1)).jobSel).key ((o - 0x20220) / 8)).toNat
  else s.reg fn o &&& (2 ^ 64 - 1 - w1cMask fn o)

/-- A word of a function's MSI-X table written: a change of a locked VF's messages is a change of its configuration (06 R186; log 56, DEDUCED).
Bits [1:0] of an address are zero; of a vector's control only bit 0, its mask, is held. -/
def msixPut (s : State) (fn i v : Nat) : State :=
  let v := if i % 4 = 0 then v / 4 * 4 else if i % 4 = 3 then v % 2 else v
  let changed : Bool := s.msixWord fn i ≠ v
  let s := s.modFn fn (fun f =>
    if i % 4 = 3 then { f with vecMask := tset f.vecMask (i / 4) (bitAt v 0) } else { f with msixTab := tset f.msixTab i (BitVec.ofNat 32 v) })
  if changed && fn ≠ 0 then s.tdiError (fn - 1) else s

/-- The halves of 8 bytes of the MSI-X table written. -/
def msixPuts (s : State) (fn o : Nat) (lo hi : Bool) (v : Nat) : State :=
  let s := if lo then s.msixPut fn (o / 4) (v % 2 ^ 32) else s
  if hi then s.msixPut fn (o / 4 + 1) (v / 2 ^ 32) else s

/-- A source or length register of the loader: ignored while a load of the function is queued or busy (04 R120). -/
def loadPut (s : State) (fn : Nat) (f : LoadRegs → LoadRegs) : State :=
  if (s.load fn).queued || (s.load fn).busy then s else s.modLoad fn f

/-- SCH_PDK and PDK_CTRL: suspend, resume, teardown; suspend and resume together are ignored (05 R133, R135). -/
def schPut (s : State) (p v : Nat) : State :=
  if bitAt v 0 && bitAt v 1 then s
  else
    let s := if bitAt v 0 then s.suspendFor p (fun u => { u with op := true }) .suspend else s
    let s := if bitAt v 1 then s.resumeFor p (fun u => { u with op := false }) else s
    if bitAt v 2 then s.beginTeardown p false else s

/-- PWR_CTRL: ignored while a transition is in progress (03 R73-R75). -/
def pwrPut (s : State) (v : Nat) : State :=
  if s.pwrBusy then s
  else
    let s := if bitAt v 0 then s.standbyRequest (bitAt v 1) else s
    if bitAt v 2 then s.powerUp else s

/-- MGT_MBOX_CTRL: a GO while the mailbox is busy is ignored (16 R446). -/
def mboxPut (s : State) (v : Nat) : State :=
  if !bitAt v 16 then { s with mgt := { s.mgt with mboxLen := bits v 10 0 } }
  else if s.mgt.mboxBusy || s.mgt.restart then s
  else { s with mgt := { s.mgt with mboxLen := bits v 10 0, mboxBusy := true, mboxDone := false } }

/-- Bytes of the mailbox buffer written, from byte `o` of it. -/
def mboxPutBytes (s : State) (o n v : Nat) : State :=
  { s with mgt := { s.mgt with mboxBuf := (List.range n).foldl (fun t i => tset t (o + i) (BitVec.ofNat 8 (v / 2 ^ (8 * i)))) s.mgt.mboxBuf } }

/-- A write of PF0's register at `o`: which halves it covers, and the whole value with the other half as it stands. -/
def pfPut (s : State) (o : Nat) (lo hi : Bool) (v : Nat) : State :=
  if 0x8000 ≤ o && o < 0x9000 then s.msixPuts 0 (o - 0x8000) lo hi v
  else if o = 0x100000 && lo then s.mboxPut v
  else if 0x101000 ≤ o && o < 0x101400 then
    let s := if lo then s.mboxPutBytes (o - 0x101000) 4 v else s
    if hi then s.mboxPutBytes (o - 0x101000 + 4) 4 (v / 2 ^ 32) else s
  else if o = 0x200000 then s.loadPut 0 (fun r => { r with src := v % 2 ^ 64 })
  else if o = 0x200008 && lo then s.loadPut 0 (fun r => { r with len := v % 2 ^ 32 })
  else if o = 0x200010 && lo && bitAt v 0 then s.loadGo 0
  else if 0x300000 ≤ o && o < 0x300800 && o % 16 = 0 && lo then
    (match entryPdk ((o - 0x300000) / 16) with
     | some p => s.schPut p v
     | none => s)
  else if o = 0x800000 && lo then s.pwrPut v
  else if o = 0x800010 && lo then s.pwrCapWrite v
  else if o = 0x800200 && lo then (s.bayPowerDown (v % 65536)).bayPowerUp (v / 65536 % 65536)
  else s

/-- PDK_RING_STATE: the W1C flags of the selected ring (05). -/
def ringClear (s : State) (p v : Nat) : State :=
  s.modRing p (s.pdk p).ringSel (fun r =>
    { r with fault := r.fault && !bitAt v 34, refused := r.refused && !bitAt v 35, dbBad := r.dbBad && !bitAt v 36 })

/-- TMB_FG_CTRL: arm, disarm, or set the position (14 R404). -/
def graphPut (s : State) (p g v : Nat) : State :=
  if bitAt v 0 then s.graphArm p g v
  else (s.graphDisarm p g).modGraph p g (fun x => { x with posBase := bits v 31 8, refused := x.refused && !bitAt v 32 })

/-- Writes of a VF's control and status registers (03, 04, 05, 06, 14). -/
def vfCtlPut (s : State) (p o : Nat) (lo hi : Bool) (v : Nat) : State :=
  let r := s.ring p (s.pdk p).ringSel
  if o = 0x10 && lo then (if bitAt v 0 then s.beginTeardown p false else s)
  else if o = 0x80 && lo then s.paceWrite p v
  else if o = 0xF8 && lo then s.modPdk p (fun d => { d with ringSel := v % 256 })
  else if o = 0x100 then (if r.en then s else s.modRing p (s.pdk p).ringSel (fun r => { r with base := v % 2 ^ 64 }))
  else if o = 0x108 then (if r.en then s else s.modRing p (s.pdk p).ringSel (fun r => { r with cq := v % 2 ^ 64 }))
  else if o = 0x110 then (if bitAt v 30 then s.ringEnable p v else s.ringDisable p v)
  else if o = 0x118 && hi then s.ringClear p v
  else if o = 0x200 && lo then s.modPdk p (fun d => { d with win := v % 65536 })
  else if o = 0x300 then s.loadPut (p + 1) (fun r => { r with src := v % 2 ^ 40 })
  else if o = 0x308 && lo then s.loadPut (p + 1) (fun r => { r with len := v % 2 ^ 32 })
  else if o = 0x310 && lo then (if bitAt v 0 then s.tenantGo p else s)
  else if o = 0x400 && lo then s.consentWrite p v
  else if 0x800 ≤ o && o < 0xA00 then
    let g := (o - 0x800) / 32
    if o % 32 = 0 && lo then s.graphPut p g v
    else if o % 32 = 8 && lo then s.frameSubmit p g (v % 2 ^ 14)
    else if o % 32 = 16 && hi then s.modGraph p g (fun x => { x with overrun := x.overrun && !bitAt v 33 })
    else s
  else if 0xF000 ≤ o && o < 0xF1C0 then s.msixPuts (p + 1) (o - 0xF000) lo hi v
  else s

/-- Writes of a VF's Yard registers (13 R387, R388). -/
def vfYardPut (s : State) (p o : Nat) (hi : Bool) (v : Nat) : State :=
  if o = 0x10008 && hi then s.modPdk p (fun d => { d with keyRefused := d.keyRefused && !bitAt v 63 })
  else if o = 0x10020 then s.pfxKeyWrite p false (BitVec.ofNat 64 v)
  else if o = 0x10028 then s.pfxKeyWrite p true (BitVec.ofNat 64 v)
  else if 0x10100 ≤ o && o < 0x10200 then s.loftWrite p ((o - 0x10100) / 16) (o % 16 = 8) v
  else s

/-- Writes of a VF's fabric registers (15 R429-R436). -/
def vfFabPut (s : State) (p o : Nat) (lo : Bool) (v : Nat) : State :=
  if 0x20000 ≤ o && o < 0x20080 then (if lo then s.postqWrite p ((o - 0x20000) / 8) v else s)
  else if o = 0x20100 && lo then s.modPdk p (fun d => { d with eyeSel := v % 4096 })
  else if o = 0x20108 then s.eyeCfgWrite p v
  else if o = 0x20110 then s.eyeBaseWrite p v
  else if o = 0x20200 && lo then s.modPdk p (fun d => { d with jobSel := v % 16 })
  else if o = 0x20208 then s.jobCfgWrite p v
  else if o = 0x20210 && lo then s.jobMemberWrite p v
  else if 0x20220 ≤ o && o ≤ 0x20238 then s.jobKeyWrite p ((o - 0x20220) / 8) (BitVec.ofNat 64 v)
  else s

/-- The doorbells of ring k (05 R145). -/
def bellPut (s : State) (p o : Nat) (lo : Bool) (v : Nat) : State :=
  let k := (o - 0x100000) / 0x1000
  if o % 0x1000 = 0 && lo then s.sqTailWrite p k (v % 65536)
  else if o % 0x1000 = 8 && lo then s.cqHeadWrite p k (v % 65536)
  else s

/-- A write of VF n's register at `o`. -/
def vfPut (s : State) (p o : Nat) (lo hi : Bool) (v : Nat) : State :=
  if o < 0x10000 then s.vfCtlPut p o lo hi v
  else if o < 0x20000 then s.vfYardPut p o hi v
  else if o < 0x30000 then s.vfFabPut p o lo v
  else if 0x100000 ≤ o then s.bellPut p o lo v
  else s

/-- The sticky REFUSED bit of a register whose write may be refused cleared by a 1 (00 R8; log 57, DESIGN CHOICE). -/
def refusedClear (s : State) (fn o : Nat) : State :=
  let p := fn - 1
  if o = 0x20208 then s.modFabJob p (s.pdk p).jobSel (fun x => { x with refused := false })
  else if o = 0x20110 then s.modEyelet p (s.pdk p).eyeSel (fun x => { x with refused := false })
  else if 0x10100 ≤ o && o < 0x10200 then
    s.modPdk p (fun d => { d with loft := tmod {} d.loft ((o - 0x10100) / 16) (fun x => { x with refused := false }) })
  else s.modGraph p ((o - 0x800) / 32) (fun x => { x with refused := false })

/-- Bits of a VF's register that a write sets or acts on, for the registers that hold a REFUSED bit beside them: JOB_ID, MEMBERS, ACTIVATE
and RETIRE; BASE; MIB and EN; EN and POS_BASE (15 FAB_JOB_CFG, FAB_EYE_BASE; 13 YRD_LOFT_SIZE; 14 TMB_FG_CTRL). 0 for every other register. -/
def actMask (o : Nat) : Nat :=
  if o = 0x20208 then 2 ^ 39 - 1 + 3 * 2 ^ 40
  else if o = 0x20110 then 2 ^ 40 - 1
  else if 0x10100 ≤ o && o < 0x10200 && o % 16 = 8 then 2 ^ 21 - 1 + 2 ^ 31
  else if 0x800 ≤ o && o < 0xA00 && o % 32 = 0 then 1 + (2 ^ 24 - 1) * 2 ^ 8
  else 0

/-- Whether a write only clears a REFUSED bit: the bit is written 1 and every field that a write sets or acts on as it stands, whatever the
bits are that a write cannot change (00 R8, R9; log 57, DESIGN CHOICE). -/
def onlyClears (s : State) (fn o v : Nat) : Bool :=
  fn ≠ 0 && actMask o ≠ 0 && v &&& w1cMask fn o ≠ 0 && v &&& actMask o = s.rwReg fn o &&& actMask o

/-- A write of 4 or 8 bytes that was accepted (00 R8, R9). -/
def regWrite (s : State) (fn off size val : Nat) : State :=
  let o := off / 8 * 8
  let lo : Bool := off % 8 = 0
  let hi : Bool := size = 8 || off % 8 = 4
  let old := s.rwReg fn o
  let v := if size = 8 then val % 2 ^ 64
    else if lo then val % 2 ^ 32 + old / 2 ^ 32 * 2 ^ 32 else old % 2 ^ 32 + val % 2 ^ 32 * 2 ^ 32
  if s.onlyClears fn o v then s.refusedClear fn o
  else if fn = 0 then s.pfPut o lo hi v else s.vfPut (fn - 1) o lo hi v

/-! ### Access checks (03 R86, R91, R92; 06 R189; log 13, DEDUCED) -/

/-- Bytes of BAR0 (03 R89). -/
def barSize (fn : Nat) : Nat := if fn = 0 then 0x4000000 else 0x200000

/-- Whether a bay window's core state is closed to PF0 (03 R91): the bay holds a paddock that has not granted it. -/
def windowShut (s : State) (off : Nat) (write : Bool) : Bool :=
  0x1000000 ≤ off && off < 0x2000000 && 0x80000 ≤ off % 0x100000 &&
  match (s.bay ((off - 0x1000000) / 0x100000)).holder with
  | some p => !bitAt (s.pdk p).consent (b2n write)
  | none => false

/-- What becomes of an access to BAR0. -/
inductive Access where
  | silent | unsupported | wrongStream | retired | refused (code : Nat) | ok
deriving DecidableEq, Repr

/-- The check of an access to BAR0. A function in D3hot answers no memory request (log 13, DEDUCED). -/
def access (s : State) (fn off size : Nat) (write : Bool) (ide : Option Nat) : Access :=
  if !s.dev.cfgReady then .silent
  else if (fn ≠ 0 && !s.vfOn (fn - 1)) || (s.fnCfg fn).d3 || barSize fn < off + size then .unsupported
  else if s.keyGone ide then .retired
  else if s.ideBad fn ide then .wrongStream
  else if (size ≠ 4 && size ≠ 8) || off % size ≠ 0 then .refused Status.alignFault
  else if fn = 0 && s.windowShut off write then .refused Status.accessDenied
  else .ok

/-- A write to BAR0. A refused write is discarded and recorded. -/
def hostRegWrite (s : State) (fn off size val : Nat) (ide : Option Nat) : State :=
  match s.access fn off size true ide with
  | .ok => s.regWrite fn off size val
  | .refused c => s.refuse fn c 0 off
  | .wrongStream => (s.ideRefuse fn 0 off).errMsg fn true true
  | .retired => s.countRetired
  | .unsupported => s.errMsg fn true true
  | .silent => s

/-- A read of BAR0, with its completion. A refused read completes with Completer Abort. -/
def hostRegRead (s : State) (fn off size : Nat) (ide : Option Nat) : State :=
  match s.access fn off size false ide with
  | .ok =>
    let (v, s) := s.regRead fn off size
    s.send (.cpl fn .success (leBytes size v))
  | .refused c => ((s.refuse fn c 0 off).errMsg fn false false).send (.cpl fn .abort [])
  | .wrongStream => ((s.ideRefuse fn 0 off).errMsg fn false true).send (.cpl fn .unsupported [])
  | .retired => s.countRetired
  | .unsupported => (s.errMsg fn false true).send (.cpl fn .unsupported [])
  | .silent => s

/-- Offset and size of a read of HIF_TSC or PDK_TSC (02 R47). -/
def tscSpan : Half → Nat × Nat
  | .full => (0x40, 8)
  | .low => (0x40, 4)
  | .high => (0x44, 4)

/-- A read of the timestamp counter, on the function's own stream (02 R47). -/
def tscRead (s : State) (fn : Nat) (h : Half) : State :=
  s.hostRegRead fn (tscSpan h).1 (tscSpan h).2 (if fn = 0 then none else (s.tdi (fn - 1)).stream)

/-! ### Completions of host reads (03 R474) -/

/-- A host read of the part completes or fails; each requester acts as its chapter says (05 R144; 04 R124 check 6; 13 R392). -/
def hostCompletion (s : State) (tag : Nat) (ok : Bool) (data : List Byte) : State :=
  match tfind s.hif.reads tag with
  | none => s
  | some .loft => s.loftReturn tag ok data
  | some (.sqe p k) =>
    let s : State := { s with hif := { s.hif with reads := tdel s.hif.reads tag } }
    if (s.ring p k).fetch ≠ some tag then s
    else if ok then s.takeEntry p k data else s.ringFault p k
  | some .image =>
    let s : State := { s with hif := { s.hif with reads := tdel s.hif.reads tag } }
    if ok && data.length = s.ldr.readOut then ({ s with ldr := { s.ldr with staged := s.ldr.staged ++ data } } : State).readOn
    else { s with ldr := { s.ldr with readErr := true, readOut := 0 } }

end State

/-! ### The commands -/

/-- REGISTER_WRITE (00 R8, R9; 03 R91-R93). -/
def execRegisterWrite (fn : Fn) (off size : Nat) (val : Word) (ide : Option Nat) (s : State) : Res :=
  .next (s.hostRegWrite fn.val off size val.toNat ide)

/-- RC_READ (00 R8, R471; 03 R91-R93, R97). -/
def execRcRead (fn : Fn) (off size : Nat) (ide : Option Nat) (s : State) : Res := .next (s.hostRegRead fn.val off size ide)

/-- TSC_READ (02 R47). -/
def execTscRead (fn : Fn) (half : Half) (s : State) : Res := .next (s.tscRead fn.val half)

/-- HOST_COMPLETION (03 R474). -/
def execHostCompletion (tag : Nat) (ok : Bool) (data : List Byte) (s : State) : Res := .next (s.hostCompletion tag ok data)

/-- COMPLETION_TIMEOUT (03 R474): the read fails. -/
def execCompletionTimeout (tag : Nat) (s : State) : Res := .next (s.hostCompletion tag false [])

end Sys2Proof.Machine
end

