-- ==== Sys2Proof/Machine/Macro.lean ====
section
/-! DEFINITION. The meanings of the macro bundles (07 R226-R228): each reaches the core's beat through one shared operation, where its own operands,
holds, faults and effect stand. -/

namespace Sys2Proof.Machine

/-- MATMUL (07 R226-R228; 08 R237-R251, R255). -/
def execMatmul (c : CoreId) (adr : AReg) (off : BitVec 12) (xs : XReg) (s : State) : Res :=
  s.slotCmd c.val false (.mac .matmul adr off xs)

/-- ATTEND (07 R226-R228; 12 R339-R353, R360). -/
def execAttend (c : CoreId) (adr : AReg) (off : BitVec 12) (xs : XReg) (s : State) : Res :=
  s.slotCmd c.val false (.mac .attend adr off xs)

/-- CREATE (07 R226-R228; 13 R368-R370, R378, R379, R381, R363, R367). -/
def execCreate (c : CoreId) (adr : AReg) (off : BitVec 12) (xs : XReg) (s : State) : Res :=
  s.slotCmd c.val false (.mac (.yard .create) adr off xs)

/-- YARD_RELEASE (07 R226-R228; 13 R368-R370, R378, R379, R381, R380). -/
def execYardRelease (c : CoreId) (adr : AReg) (off : BitVec 12) (xs : XReg) (s : State) : Res :=
  s.slotCmd c.val false (.mac (.yard .release) adr off xs)

/-- APPEND (07 R226-R228; 13 R368-R370, R378, R379, R381, R371, R372). -/
def execAppend (c : CoreId) (adr : AReg) (off : BitVec 12) (xs : XReg) (s : State) : Res :=
  s.slotCmd c.val false (.mac (.yard .append) adr off xs)

/-- TRIM (07 R226-R228; 13 R368-R370, R378-R381). -/
def execTrim (c : CoreId) (adr : AReg) (off : BitVec 12) (xs : XReg) (s : State) : Res :=
  s.slotCmd c.val false (.mac (.yard .trim) adr off xs)

/-- FORK (07 R226-R228; 13 R368-R370, R378, R379, R381, R374). -/
def execFork (c : CoreId) (adr : AReg) (off : BitVec 12) (xs : XReg) (s : State) : Res :=
  s.slotCmd c.val false (.mac (.yard .fork) adr off xs)

/-- LOOKUP (07 R226-R228; 13 R368-R370, R378, R379, R381, R384, R385). -/
def execLookup (c : CoreId) (adr : AReg) (off : BitVec 12) (xs : XReg) (s : State) : Res :=
  s.slotCmd c.val false (.mac (.yard .lookup) adr off xs)

/-- PUBLISH (07 R226-R228; 13 R368-R370, R378, R379, R381, R382, R383). -/
def execPublish (c : CoreId) (adr : AReg) (off : BitVec 12) (xs : XReg) (s : State) : Res :=
  s.slotCmd c.val false (.mac (.yard .publish) adr off xs)

/-- PIN (07 R226-R228; 13 R368-R370, R378, R379, R381, R391-R393). -/
def execPin (c : CoreId) (adr : AReg) (off : BitVec 12) (xs : XReg) (s : State) : Res :=
  s.slotCmd c.val false (.mac (.yard .pin) adr off xs)

/-- UNPIN (07 R226-R228; 13 R368-R370, R378, R379, R381, R393). -/
def execUnpin (c : CoreId) (adr : AReg) (off : BitVec 12) (xs : XReg) (s : State) : Res :=
  s.slotCmd c.val false (.mac (.yard .unpin) adr off xs)

/-- PREFETCH (07 R226-R228; 13 R368-R370, R378, R379, R381, R391, R392). -/
def execPrefetch (c : CoreId) (adr : AReg) (off : BitVec 12) (xs : XReg) (s : State) : Res :=
  s.slotCmd c.val false (.mac (.yard .prefetch) adr off xs)

/-- QUERY (07 R226-R228; 13 R368-R370, R378, R379, R381, R365). -/
def execQuery (c : CoreId) (adr : AReg) (off : BitVec 12) (xs : XReg) (s : State) : Res :=
  s.slotCmd c.val false (.mac (.yard .query) adr off xs)

/-- PTREAD (07 R226-R228; 13 R368-R370, R378, R379, R381, R366, R367). -/
def execPtread (c : CoreId) (adr : AReg) (off : BitVec 12) (xs : XReg) (s : State) : Res :=
  s.slotCmd c.val false (.mac (.yard .ptread) adr off xs)

end Sys2Proof.Machine
end

