-- ==== Sys2Proof/Machine/Mgmt.lean ====
section
/-! DEFINITION. The Myirari controller (16): MCTP and PLDM answers, credentials, the Otveda commands, self-test and calibration, quarantine
and its comparisons, controller restarts, and firmware update. Codes and layouts that the named standards give, and the layout of the
Otveda bodies, are the model's (logs 53 and 58). -/

namespace Sys2Proof.Machine

/-- Number of a transport. -/
def trCode : Transport → Nat
  | .mailbox => 0
  | .pcie => 1
  | .i3c => 2

/-- Bytes that a message holds (16 R443). -/
def msgMax : Nat := 1024

/-- Whether a list of bytes holds another as a run. -/
def holdsRun (a l : List Byte) : Bool := (List.range (l.length + 1)).any (fun i => (l.drop i).take a.length == a)

/-- Whole records of a list as long as they fit in `room` bytes. -/
def fitRecs : Nat → List (List Byte) → List Byte
  | _, [] => []
  | room, r :: t => if r.length ≤ room then r ++ fitRecs (room - r.length) t else []

namespace State

/-- Whether the controller is up: powered, booted and not restarting (03 R76; 16 R446). -/
def ctrlUp (s : State) : Bool := s.dev.aux && s.dev.booted && !s.mgt.restart

/-- Whether a request on a transport reaches the controller: the mailbox only once GO was written, PCIe only while the link is configured
(16 R443, R446). -/
def heard (s : State) (tr : Transport) : Bool :=
  s.ctrlUp && (match tr with
    | .mailbox => s.mgt.mboxBusy
    | .pcie => s.dev.cfgReady
    | .i3c => true)

/-- The response in the mailbox: it overwrites the request from the start of the buffer (16 R446; log 58, DESIGN CHOICE). -/
def mboxAnswer (s : State) (bs : List Byte) : State :=
  let bs := bs.take msgMax
  let buf := (List.range bs.length).foldl (fun t i => tset t i (bs.getD i 0)) s.mgt.mboxBuf
  { s with mgt := { s.mgt with mboxBusy := false, mboxDone := true, mboxRlen := bs.length, mboxBuf := buf } }

/-- A response: a status and its body (16 R445). -/
def respond (s : State) (tr : Transport) (status : Nat) (body : List Byte) : State :=
  match tr with
  | .mailbox => s.mboxAnswer (leBytes 1 status ++ body)
  | _ => s.send (.mgmt tr status body)

/-- A request that reaches the controller is carried out; any other changes nothing. -/
def otveda (s : State) (tr : Transport) (f : State → State) : State := if s.heard tr then f s else s

/-- An MCTP or PLDM request: the mailbox carries none (16 R443). -/
def mctp (s : State) (tr : Transport) (f : State → State) : State := if tr ≠ .mailbox && s.heard tr then f s else s

/-! ### MCTP control and PLDM types 0 and 2 (16 R443, R444, R451, R452) -/

/-- A command that the controller does not support: the error completion of its type; an unknown type is dropped (16 R444, R445). -/
def unsupported (s : State) (tr : Transport) (ty : Nat) : State :=
  if ty = 0 || ty = 1 then s.respond tr 0x05 []
  else if ty = 5 || ty = 6 then s.spdmErr .mctp 0x07
  else if ty = 0x7E then s.respond tr Status.shapeIllegal []
  else s

/-- Message types (16 R444). -/
def mctpTypes : List Byte := [0x00, 0x01, 0x05, 0x06, 0x7E]

/-- Numeric sensors (16 R451). -/
def numericIds : List Nat :=
  [1, 2, 3, 4, 5] ++ (List.range 6).map (· + 0x10) ++ (List.range 8).map (· + 0x20) ++ (List.range 4).map (· + 0x30)

/-- A numeric reading: rails and beat rates as the controller last set and measured them, the others as last refreshed (16 R451). -/
def reading (s : State) (id : Nat) : Nat :=
  if 0x20 ≤ id && id ≤ 0x23 then s.rail (id - 0x20)
  else if 0x30 ≤ id && id ≤ 0x33 then (if s.dev.computeRails then tget 0 s.dev.beatMon (id - 0x30) else 0)
  else tget 0 s.mgt.sensors id

/-- The management view of a unit (16 R462; log 14, DESIGN CHOICE). -/
def viewOf (s : State) (u : UnitId) : UnitSt := tget (s.unitSt u) s.mgt.view (unitKey u)

/-- Every unit that the controller compares and that a state sensor reports (16 R451, R462). A core is none of them. -/
def allUnits : List UnitId :=
  (List.range 16).map (fun i => .bay (Fin.ofNat 16 i)) ++ (List.range 8).map (fun i => .port (Fin.ofNat 8 i))
    ++ (List.range 4).map (fun i => .engine (Fin.ofNat 4 i)) ++ (List.range 6).map (fun i => .stack (Fin.ofNat 6 i))

/-- ID of a unit's state sensor (16 R451); cores have none, and their number here is no sensor's. -/
def unitSensor : UnitId → Nat
  | .bay b => 0x110 + b.val
  | .port p => 0x120 + p.val
  | .engine e => 0x128 + e.val
  | .stack t => 0x130 + t.val
  | .core c => 0x200 + c.val

/-- A state sensor's reading (16 R451). -/
def stateReading (s : State) (id : Nat) : Option Nat :=
  if id = 0x100 then some (phaseCode s.dev.phase)
  else (allUnits.find? (fun u => unitSensor u = id)).map (fun u => unitCode (s.viewOf u))

/-- PLDM types supported (16 R444). -/
def pldmTypes : List Nat := [0, 2, 5]

/-- PollForPlatformEventMessage: the oldest event held (16 R452). -/
def pollEvent (s : State) (tr : Transport) : State :=
  match s.mgt.events with
  | [] => s.respond tr 0 []
  | r :: t => ({ s with mgt := { s.mgt with events := t } } : State).respond tr 0 r.bytes

/-! ### Credentials (16 R447, R449) -/

/-- Ten seconds of the management timer (16 R447). -/
def nonceLife : Nat := 10000000000

/-- Whether a privileged command's nonce, key and signature hold (16 R447). -/
def credOk (s : State) (tr : Transport) (au : Auth) : Bool :=
  (match tfind s.mgt.nonces (trCode tr) with
   | some n => n.value = au.nonce && !n.used && s.mgt.timer - n.issued ≤ nonceLife
   | none => false)
    && au.key.length = 96 && au.sig.length = 96 && holdsRun (leBytes 8 au.nonce.toNat) au.signed
    && s.mgt.keys.any (fun e => e.2 = leBytes 48 (Crypto.sha384 au.key).toNat) && Crypto.ecdsaVerify au.key au.sig au.signed

/-- A nonce that a privileged command presents is spent (16 R447). -/
def spend (s : State) (v : BitVec 64) : State :=
  { s with mgt := { s.mgt with nonces := s.mgt.nonces.map (fun e => (e.1, if e.2.value = v then { e.2 with used := true } else e.2)) } }

/-- A privileged command: refused with ACCESS_DENIED unless its credentials hold; its nonce is spent either way (16 R447). -/
def privileged (s : State) (tr : Transport) (au : Auth) (f : State → State) : State :=
  if s.credOk tr au then f (s.spend au.nonce) else (s.spend au.nonce).respond tr Status.accessDenied []

/-- GET_NONCE (16 R445, R447). -/
def getNonce (s : State) (tr : Transport) : State :=
  if !s.drbgReady then s.respond tr Status.entropyFault []
  else
    let (v, s) := s.draw
    ({ s with mgt := { s.mgt with nonces := tset s.mgt.nonces (trCode tr) { value := v, issued := s.mgt.timer, used := false } } } : State).respond
      tr Status.ok (leBytes 8 v.toNat)

/-- Whether the device's state allows enrolment: STANDBY, INIT or RESTRICTED, the loader idle (16 R449). -/
def enrolState (s : State) : Bool :=
  (s.dev.phase = .standby || s.dev.phase = .init || s.dev.phase = .restricted) && s.ldr.cur.isNone && s.ldr.queue.isEmpty

/-- A digest written into a slot. -/
def putKey (s : State) (tr : Transport) (slot : Nat) (d : List Byte) : State :=
  if s.enrolState then ({ s with mgt := { s.mgt with keys := tset s.mgt.keys slot d } } : State).respond tr Status.ok []
  else s.respond tr Status.accessDenied []

/-- ENROLL_KEY (16 R445, R447, R449): unsigned only while no slot is filled, over I3C, in STANDBY or INIT. -/
def enrollKey (s : State) (tr : Transport) (slot : Nat) (d : List Byte) (au : Option Auth) : State :=
  if 4 ≤ slot || d.length ≠ 48 then s.respond tr Status.shapeIllegal []
  else match au with
  | some a => s.privileged tr a (fun s => s.putKey tr slot d)
  | none =>
    if s.mgt.keys.isEmpty && tr = .i3c && (s.dev.phase = .standby || s.dev.phase = .init) then s.putKey tr slot d
    else s.respond tr Status.accessDenied []

/-- REVOKE_KEY (16 R445, R449). -/
def revokeKey (s : State) (tr : Transport) (slot : Nat) (au : Auth) : State :=
  if 4 ≤ slot then s.respond tr Status.shapeIllegal []
  else s.privileged tr au (fun s =>
    if !s.enrolState || (thas s.mgt.keys slot && s.mgt.keys.length = 1) then s.respond tr Status.accessDenied []
    else ({ s with mgt := { s.mgt with keys := tdel s.mgt.keys slot } } : State).respond tr Status.ok [])

/-! ### Error log, lists (16 R445, R453, R461) -/

/-- LOG_READ: at most 16 records from a sequence number, and no more than a message holds (16 R443, R445; log 58, DESIGN CHOICE). -/
def logRead (s : State) (tr : Transport) (seq count : Nat) : State :=
  if 16 < count then s.respond tr Status.shapeIllegal []
  else if count = 0 then s.respond tr Status.okZero []
  else
    let rs := (s.mgt.log.filter (fun r => seq ≤ r.seq)).take count
    s.respond tr Status.ok (fitRecs (msgMax - 1) (rs.map LogRec.bytes))

/-- LOG_CLEAR (16 R445, R453). -/
def logClear (s : State) (tr : Transport) : State := ({ s with mgt := { s.mgt with log := [], logSeq := 1 } } : State).respond tr Status.ok []

/-- A row of a repair list, with the package frames that hold granules it backs (16 R461). -/
def rowBytes' (row : Nat) : List Byte :=
  leBytes 4 row ++ leBytes 2 (Config.framesOfRow row).length ++ (Config.framesOfRow row).flatMap (leBytes 4)

/-- REPAIR_LIST (16 R445, R461). -/
def repairList (s : State) (tr : Transport) : State :=
  let head := leBytes 2 s.ras.pending.length ++ leBytes 2 s.ras.badRows.length
  s.respond tr Status.ok (head ++ fitRecs (msgMax - 5) ((s.ras.pending ++ s.ras.badRows).map rowBytes'))

/-- GET_SFU_PROGRAM (16 R445; 11 R324). -/
def sfuProgram (s : State) (tr : Transport) (f : Nat) : State :=
  if !Img.isPublished f then s.respond tr Status.shapeIllegal []
  else
    let w := Img.published f
    s.respond tr Status.ok (leBytes 2 f ++ leBytes 1 w.length ++ w.flatMap (fun x => leBytes 8 x.toNat))

/-! ### Test access (16 R450) -/

/-- Paddocks whose state a unit holds: of a bay, its holder's; of a core, its bay's; of a stack, that of every paddock that is not EMPTY, whose
frames lie in all six (01 R27); of an engine, that of the paddock whose band it took last; of a port, none. -/
def stateIn (s : State) : UnitId → List Nat
  | .bay b => (s.bay b.val).holder.toList
  | .core c => (s.bay (c.val / 16)).holder.toList
  | .stack _ => s.pdksWhere (fun d => d.st ≠ .empty)
  | .engine e => (s.engine e.val).lastPdk.toList
  | .port _ => []

/-- What a test function's access to a unit answers: OK only while test access is enabled and every paddock whose state the unit holds grants
TEST, else ACCESS_DENIED (06 R190, PDK_CONSENT; 16 R450). No row of the table is such an access: this says what one would find (log 65). -/
def testReach (s : State) (u : UnitId) : Nat :=
  if s.mgt.testOn && (s.stateIn u).all (fun p => bitAt (s.pdk p).consent 3) then Status.ok else Status.accessDenied

/-! ### Self-test and calibration (16 R455-R458, R464) -/

/-- A request whose bays have all finished is answered with each bay's status, and vector 5 is sent (16 R445, R455; log 58, DESIGN CHOICE). -/
def endRequest (s : State) (q : TestReq) : State :=
  let st := ((q.results.map (·.2)).find? (· ≠ Status.ok)).getD Status.ok
  (s.respond q.tr st (q.results.flatMap (fun e => leBytes 1 e.2))).rasEv 2

/-- A bay's result goes to every request that named it; requests that have all their results end (16 R455, R458). -/
def testResult (s : State) (b st : Nat) : State :=
  let qs := s.mgt.tests.map (fun q => if q.left.contains b then { q with left := q.left.filter (· ≠ b), results := tset q.results b st } else q)
  let s : State := { s with mgt := { s.mgt with tests := qs.filter (fun q => !q.left.isEmpty) } }
  (qs.filter (fun q => q.left.isEmpty)).foldl endRequest s

/-- Whether a bay has no power to be tested with (16 R458). -/
def bayOffline (s : State) (b : Nat) : Bool := !s.dev.computeRails || !(s.bay b).powered || (s.bay b).unit_ = .offline

/-- SELFTEST or CALIBRATE (16 R445, R455-R458): an OFFLINE bay is skipped, a bay already waiting or under test is joined. -/
def testBays (s : State) (tr : Transport) (calib : Bool) (mask : Nat) (force : Bool) : State :=
  if mask = 0 then s.respond tr Status.okZero []
  else
    let bs := (List.range 16).filter (fun b => bitAt mask b)
    let (dead, live) := bs.partition s.bayOffline
    let q : TestReq := { tr := tr, calib := calib, left := live, results := dead.map (fun b => (b, Status.accessDenied)) }
    if live.isEmpty then s.endRequest q
    else
      let s := live.foldl (fun s b => s.modBay b (fun x =>
        if x.test.isSome then x else { x with test := some { calib := calib, force := force, started := false, release := false } })) s
      { s with mgt := { s.mgt with tests := s.mgt.tests ++ [q] } }

/-- Whether it is a bay's turn: bays are tested one at a time, and a request's bays in ascending order (16 R455). -/
def testTurn (s : State) (b : Nat) : Bool :=
  !(List.range 16).any (fun c => (s.bay c).test.elim false (·.started)) &&
    ((s.bay b).test.elim false (·.release) || s.mgt.tests.any (fun q => q.left.head? = some b))

/-- A waiting bay is held as DRAINING and its test begins once it is free; with FORCE its job stops for it, or its idle state goes
(16 R455, R456). A bay that has gone OFFLINE is skipped (16 R458). Only a RELEASE tests a QUARANTINED bay (log 58, DESIGN CHOICE). -/
def testStart (s : State) (b : Nat) : State :=
  match (s.bay b).test with
  | none => s
  | some t =>
    if t.started || !s.testTurn b then s
    else if s.bayOffline b then (s.modBay b (fun x => { x with test := none })).testResult b Status.accessDenied
    else if (s.bay b).unit_ = .quarantined && !t.release then s
    else if (s.bay b).holder.isSome || (s.bay b).job.isSome then
      (if t.force && (s.bay b).stopping.isNone then (s.setUnitBoth (.bay (Fin.ofNat 16 b)) .draining).stopBay b .test else s)
    else if (s.bay b).stopping.isSome || (s.bay b).pendOff then s
    else
      (s.setUnitBoth (.bay (Fin.ofNat 16 b)) .draining).modBay b (fun x =>
        { x with next := none, prepared := false, test := some { t with started := true } })

/-- A core of a bay that passed the test of its RELEASE is in service again (log 66, DESIGN CHOICE). -/
def freeCore (s : State) (n : Nat) : State :=
  if s.unitSt (.core (Fin.ofNat 256 n)) = .quarantined then s.setUnitBoth (.core (Fin.ofNat 256 n)) .online else s

/-- A bay's test ends: the result is logged, the bay scrubbed and made ONLINE or QUARANTINED, and a power-down that waited goes on (16
R454, R455, R458, R464). A bay quarantined meanwhile stays so. A calibration that passes sets the bay's rail margin, whose value the spec does
not state (16 R457; log 9, DESIGN CHOICE). -/
def testDone (s : State) (b : Nat) (pass : Bool) (test : Nat) : State :=
  match (s.bay b).test with
  | none => s
  | some t =>
    if !t.started then s
    else
      let u : UnitId := .bay (Fin.ofNat 16 b)
      let st := if pass then Status.ok else Status.quarantined
      let s := s.logRec 1 b st (if pass then 0 else 2) 0x0040 0 [b, test]
      let s := (s.scrubBay b).modBay b (fun x => { x with test := none, scrubbed := true })
      let s := if t.calib && pass then s.openVal.2.modBay b (fun x => { x with margin := s.openVal.1 }) else s
      let held : Bool := (s.bay b).unit_ = .quarantined || (s.bay b).stopping.isSome
      let s := if held then s
        else if pass then
          (if t.release then (((coresOf b).foldl freeCore s).setUnitBoth u .online).logRec 1 b Status.ok 0 0x0031 0 []
           else s.setUnitBoth u .online)
        else if t.release then s.setUnitBoth u .quarantined
        else (s.logRec 1 b Status.quarantined 2 0x0030 0 [4]).setUnitBoth u .quarantined
      let s := if (s.bay b).pendOff && !held then (s.setUnitBoth u .draining).stopBay b .powerDown else s
      let s := if s.mgt.tests.any (fun q => q.left.contains b) then s else s.rasEv 2
      s.testResult b st

/-- The self-test that a RELEASE asks for, on a bay (16 R464). -/
def releaseTest (s : State) (b : Nat) : State :=
  s.modBay b (fun x => { x with test := some (match x.test with
    | some t => { t with release := true }
    | none => { calib := false, force := false, started := false, release := true }) })

/-- RELEASE (16 R464). A quarantined core returns with its bay, which is tested for it (log 66, DESIGN CHOICE). -/
def releaseUnit (s : State) (tr : Transport) (u : UnitId) : State :=
  if s.unitSt u ≠ .quarantined then s.respond tr Status.ok []
  else match u with
  | .stack _ => s.respond tr Status.accessDenied []
  | .bay b => (s.releaseTest b.val).respond tr Status.ok []
  | .core c => (s.releaseTest (c.val / 16)).respond tr Status.ok []
  | u => ((s.setUnitBoth u .online).logRec (unitKind u).1 (unitKind u).2 Status.ok 0 0x0031 0 []).respond tr Status.ok []

/-! ### The two views (16 R462) -/

/-- Ten milliseconds of the management timer. -/
def viewSpan : Nat := 10000000

/-- State of a code (16 RAS_BAY_STATE). -/
def unitOfCode : Nat → UnitSt
  | 0 => .online
  | 1 => .draining
  | 2 => .quarantined
  | _ => .offline

/-- One unit compared: the time of the first of the comparisons that have all differed, and quarantine after more than 10 ms of them. -/
def compareUnit (s : State) (u : UnitId) : State :=
  let k := unitKey u
  if s.viewOf u = s.unitSt u then { s with mgt := { s.mgt with diff := tdel s.mgt.diff k } }
  else match tfind s.mgt.diff k with
  | none => { s with mgt := { s.mgt with diff := tset s.mgt.diff k s.mgt.timer } }
  | some t => if viewSpan < s.mgt.timer - t then ({ s with mgt := { s.mgt with diff := tdel s.mgt.diff k } } : State).quarantine u 2 else s

/-- VIEW_COMPARE: `seen` holds, by number, the units whose monitors the controller reads as another state than the data path's, with that
state; every other unit's views agree (16 R462, R465; log 14, DESIGN CHOICE). -/
def viewCompare (s : State) (seen : List (Nat × Nat)) : State :=
  if !s.ctrlUp then s
  else
    let s : State := { s with mgt := { s.mgt with view := seen.foldl (fun t e => tset t e.1 (unitOfCode e.2)) [] } }
    allUnits.foldl compareUnit s

/-! ### Restarts of the controller (03 R76; 16 R446, R450, R465) -/

/-- The controller restarts, its data path untouched: the Alias key, the sessions of its responder and test access go, and no comparison
runs (03 R76; 06 R174; 16 R446, R450, R465). `watchdog`: the cause. -/
def ctrlRestart (s : State) (watchdog : Bool) : State :=
  if !s.ctrlUp then s
  else
    { s with mgt := { s.mgt with restart := true, watchdog := watchdog, nonces := [], testOn := false, view := [], diff := [] }
             sec := { s.sec with aliasKey := false, mctp := [] } }

/-- A component whose update was in progress: its inactive bank is invalid (16 R467). -/
def fwSpoil (s : State) : State :=
  match s.mgt.fw.ph with
  | .download | .verify | .apply =>
    { s with mgt := { s.mgt with fw := { s.mgt.fw with spareOk := tset s.mgt.fw.spareOk s.mgt.fw.comp false, buf := [] } } }
  | _ => s

/-- The restart ends: the start is counted and logged, the matrix checked again, the Alias key derived again, and requests that were
queued, in the mailbox or on another transport, are answered with INTERNAL (04 R130; 06 R174; 16 R446, R453, R454). An update in progress has failed (log 58, DESIGN CHOICE). -/
def ctrlBack (s : State) (queued : List Transport) : State :=
  if !s.mgt.restart then s
  else
    let s := s.fwSpoil
    let old := s.mgt.tests
    let s : State := { s with dev := { s.dev with compatBad := s.untested }, sec := { s.sec with aliasKey := true }
                              mgt := { s.mgt with restart := false, boot := s.mgt.boot + 1, tests := []
                                                  fw := { s.mgt.fw with ph := .idle, agent := none } } }
    let s := s.logRec 7 0 Status.ok 1 0x0070 0 [if s.mgt.watchdog then 2 else 1]
    let s := old.foldl (fun s q => if q.tr = .mailbox then s else s.respond q.tr Status.internal []) s
    let s := queued.foldl (fun s tr => if tr = .mailbox then s else s.respond tr Status.internal []) s
    if s.mgt.mboxBusy then s.respond .mailbox Status.internal [] else s

/-! ### Firmware update (16 R466-R468) -/

/-- NOT_IN_UPDATE_MODE. -/
def fwNotIn : Nat := 0x80
/-- ALREADY_IN_UPDATE_MODE. -/
def fwAlready : Nat := 0x81
/-- INVALID_STATE_FOR_COMMAND. -/
def fwState : Nat := 0x84
/-- ERROR_INVALID_DATA. -/
def fwData : Nat := 0x02

/-- Whether a number names a component (16 R466). -/
def isComp (c : Nat) : Bool := c = 1 || c = 2

/-- A firmware command of the agent that holds update mode, in one of some phases. -/
def inUpdate (s : State) (tr : Transport) (agent : Nat) (phs : List FwPh) (f : State → State) : State :=
  if s.mgt.fw.agent ≠ some agent then s.respond tr fwNotIn []
  else if phs.contains s.mgt.fw.ph then f s else s.respond tr fwState []

/-- The firmware state changed. -/
def modFw (s : State) (f : Fw → Fw) : State := { s with mgt := { s.mgt with fw := f s.mgt.fw } }

/-- The next piece of a component's image is asked for, at most what a message holds (16 R443, R466). -/
def fwAsk (s : State) (tr : Transport) : State :=
  let f := s.mgt.fw
  if f.size ≤ f.buf.length then s else s.send (.fwRequest tr f.buf.length (min 512 (f.size - f.buf.length)))

/-- RequestUpdate (16 R466). -/
def requestUpdate (s : State) (tr : Transport) (agent : Nat) : State :=
  if s.mgt.fw.ph ≠ .idle then s.respond tr fwAlready []
  else (s.modFw (fun f => { f with ph := .learn, agent := some agent })).respond tr 0 []

/-- PassComponentTable (16 R466). -/
def passTable (s : State) (tr : Transport) (agent comp : Nat) : State :=
  s.inUpdate tr agent [.learn, .ready] (fun s =>
    if isComp comp then (s.modFw (fun f => { f with ph := .ready })).respond tr 0 [] else s.respond tr fwData [])

/-- UpdateComponent: writing the bank that is not active begins, so what it held is no longer valid (16 R466, R467). -/
def updateComponent (s : State) (tr : Transport) (agent comp size : Nat) : State :=
  s.inUpdate tr agent [.ready] (fun s =>
    if !isComp comp || size = 0 then s.respond tr fwData []
    else ((s.modFw (fun f => { f with ph := .download, comp := comp, size := size, buf := [], spareOk := tset f.spareOk comp false
                                      due := tset f.due comp false })).respond tr 0 []).fwAsk tr)

/-- Data for the image being written (16 R466). -/
def fwReceive (s : State) (tr : Transport) (off : Nat) (d : List Byte) : State :=
  let f := s.mgt.fw
  if f.ph ≠ .download || off ≠ f.buf.length then s
  else (s.modFw (fun f => { f with buf := f.buf ++ d.take (f.size - f.buf.length) })).fwAsk tr

/-- A phase ends: well, with the next; badly, with the bank invalid. Vector 6 is sent (16 R452, R467). -/
def fwPhase (s : State) (tr : Transport) (good : Bool) (ph : FwPh) (f : Fw → Fw) : State :=
  if good then ((s.modFw (fun x => { f x with ph := ph })).respond tr 0 []).rasEv 3
  else ((s.fwSpoil.modFw (fun x => { x with ph := .ready })).respond tr 0x01 []).rasEv 3

/-- TransferComplete (16 R466). -/
def transferComplete (s : State) (tr : Transport) (ok : Bool) : State :=
  let f := s.mgt.fw
  if f.ph ≠ .download then s.respond tr fwState [] else s.fwPhase tr (ok && f.buf.length = f.size) .verify id

/-- VerifyComplete: signature, part and security version (16 R467). -/
def verifyComplete (s : State) (tr : Transport) : State :=
  let f := s.mgt.fw
  if f.ph ≠ .verify then s.respond tr fwState []
  else s.fwPhase tr (Config.fwSigned f.buf && max f.minSec Config.fusedSecurityVersion ≤ Config.fwSecurity f.buf) .apply
    (fun f => { f with spare := tset f.spare f.comp f.buf })

/-- ApplyComplete (16 R466, R467). -/
def applyComplete (s : State) (tr : Transport) (ok : Bool) : State :=
  let f := s.mgt.fw
  if f.ph ≠ .apply then s.respond tr fwState []
  else s.fwPhase tr ok .ready (fun f => { f with spareOk := tset f.spareOk f.comp true, buf := [] })

/-- Version of a component in the combination that an activation would make (16 R468). -/
def nextVersion (s : State) (c : Nat) : Nat :=
  if tget false s.mgt.fw.spareOk c then Config.fwVersion (tget [] s.mgt.fw.spare c) else s.runVersion c

/-- ActivateFirmware: accepted only for a listed combination, and effective at the next cold or conventional reset (16 R468). -/
def activateFw (s : State) (tr : Transport) (agent : Nat) : State :=
  s.inUpdate tr agent [.ready] (fun s =>
    if !Config.matrixLists (s.nextVersion 1) (s.nextVersion 2) then s.respond tr fwState []
    else (s.modFw (fun f => { f with ph := .idle, agent := none
                                     due := [1, 2].foldl (fun t c => if tget false f.spareOk c then tset t c true else t) f.due })).respond tr 0 [])

/-- CancelUpdateComponent (16 R467). -/
def cancelComponent (s : State) (tr : Transport) (agent : Nat) : State :=
  s.inUpdate tr agent [.download, .verify, .apply] (fun s => (s.fwSpoil.modFw (fun f => { f with ph := .ready })).respond tr 0 [])

/-- CancelUpdate: what was written and is not to be activated is invalid (16 R467). -/
def cancelUpdate (s : State) (tr : Transport) (agent : Nat) : State :=
  s.inUpdate tr agent [.learn, .ready, .download, .verify, .apply] (fun s =>
    (s.fwSpoil.modFw (fun f => { f with ph := .idle, agent := none
                                        spareOk := f.spareOk.map (fun e => (e.1, e.2 && tget false f.due e.1)) })).respond tr 0 [])

/-- Code of an update phase (log 53, PRESUMED). -/
def fwCode : FwPh → Nat
  | .idle => 0
  | .learn => 1
  | .ready => 2
  | .download => 3
  | .verify => 4
  | .apply => 5

/-- Running versions of both components, and those that would run after the next reset (16 R466). -/
def fwParams (s : State) : List Byte :=
  leBytes 2 (s.runVersion 1) ++ leBytes 2 (s.runVersion 2)
    ++ leBytes 2 (if tget false s.mgt.fw.due 1 then s.nextVersion 1 else s.runVersion 1)
    ++ leBytes 2 (if tget false s.mgt.fw.due 2 then s.nextVersion 2 else s.runVersion 2)

/-- SENSOR_REFRESH: the numeric readings; the first four are the dies' junctions (16 R451). -/
def sensorRefresh (s : State) (rs : List (Nat × Nat)) : State :=
  if !s.ctrlUp then s
  else
    let put (t : Tab Nat) (e : Nat × Nat) : Tab Nat := if numericIds.contains e.1 then tset t e.1 e.2 else t
    let tj (t : Tab Nat) (e : Nat × Nat) : Tab Nat := if 1 ≤ e.1 && e.1 ≤ 4 then tset t (e.1 - 1) e.2 else t
    { s with mgt := { s.mgt with sensors := rs.foldl put s.mgt.sensors }, dev := { s.dev with tj := rs.foldl tj s.dev.tj } }

end State

/-! ### The commands -/

/-- SET_ENDPOINT_ID (16 R443). -/
def execSetEndpointId (tr : Transport) (eid : Byte) (s : State) : Res :=
  .next (s.mctp tr (fun s => ({ s with mgt := { s.mgt with eid := eid } } : State).respond tr 0 [0, eid, 0]))

/-- GET_ENDPOINT_ID (16 R443). -/
def execGetEndpointId (tr : Transport) (s : State) : Res := .next (s.mctp tr (fun s => s.respond tr 0 [s.mgt.eid, 0, 0]))

/-- GET_ENDPOINT_UUID (16 R444). -/
def execGetEndpointUuid (tr : Transport) (s : State) : Res :=
  .next (s.mctp tr (fun s => s.respond tr 0 (leBytes 16 Config.endpointUuid.toNat)))

/-- GET_MCTP_VERSION_SUPPORT (16 R444). -/
def execGetMctpVersionSupport (tr : Transport) (ty : Byte) (s : State) : Res :=
  .next (s.mctp tr (fun s =>
    if ty = 0xFF || State.mctpTypes.contains ty then s.respond tr 0 (Config.standardBody 0x0004 ty.toNat) else s.respond tr 0x80 []))

/-- GET_MESSAGE_TYPE_SUPPORT (16 R444). -/
def execGetMessageTypeSupport (tr : Transport) (s : State) : Res :=
  .next (s.mctp tr (fun s => s.respond tr 0 (leBytes 1 State.mctpTypes.length ++ State.mctpTypes)))

/-- GET_TID (16 R444). -/
def execGetTid (tr : Transport) (s : State) : Res := .next (s.mctp tr (fun s => s.respond tr 0 (Config.standardBody 0x0102 0)))

/-- GET_PLDM_VERSION (16 R444). -/
def execGetPldmVersion (tr : Transport) (ty : Byte) (s : State) : Res :=
  .next (s.mctp tr (fun s =>
    if State.pldmTypes.contains ty.toNat then s.respond tr 0 (Config.standardBody 0x0103 ty.toNat) else s.respond tr 0x83 []))

/-- GET_PLDM_TYPES (16 R444): one bit for each of types 0, 2 and 5. -/
def execGetPldmTypes (tr : Transport) (s : State) : Res :=
  .next (s.mctp tr (fun s => s.respond tr 0 (leBytes 8 (State.pldmTypes.foldl (fun t i => t + 2 ^ i) 0))))

/-- GET_PLDM_COMMANDS (16 R444). -/
def execGetPldmCommands (tr : Transport) (ty : Byte) (s : State) : Res :=
  .next (s.mctp tr (fun s =>
    if State.pldmTypes.contains ty.toNat then s.respond tr 0 (Config.standardBody 0x0105 ty.toNat) else s.respond tr 0x83 []))

/-- SET_EVENT_RECEIVER (16 R452). -/
def execSetEventReceiver (tr : Transport) (eid : Byte) (s : State) : Res :=
  .next (s.mctp tr (fun s => ({ s with mgt := { s.mgt with receiver := some eid } } : State).respond tr 0 []))

/-- GET_PDR_REPOSITORY_INFO (16 R444). -/
def execGetPdrRepositoryInfo (tr : Transport) (s : State) : Res :=
  .next (s.mctp tr (fun s => s.respond tr 0 (Config.standardBody 0x0250 0)))

/-- GET_PDR (16 R444). -/
def execGetPdr (tr : Transport) (handle : Nat) (s : State) : Res :=
  .next (s.mctp tr (fun s => s.respond tr 0 (Config.standardBody 0x0251 handle)))

/-- GET_SENSOR_READING (16 R451). -/
def execGetSensorReading (tr : Transport) (id : BitVec 16) (s : State) : Res :=
  .next (s.mctp tr (fun s =>
    if State.numericIds.contains id.toNat then s.respond tr 0 (leBytes 4 (s.reading id.toNat)) else s.respond tr 0x80 []))

/-- GET_STATE_SENSOR_READINGS (16 R451, R462). -/
def execGetStateSensorReadings (tr : Transport) (id : BitVec 16) (s : State) : Res :=
  .next (s.mctp tr (fun s => match s.stateReading id.toNat with
    | some v => s.respond tr 0 (leBytes 1 v)
    | none => s.respond tr 0x80 []))

/-- POLL_FOR_PLATFORM_EVENT_MESSAGE (16 R452). -/
def execPollForPlatformEventMessage (tr : Transport) (s : State) : Res := .next (s.mctp tr (fun s => s.pollEvent tr))

/-- MCTP_UNSUPPORTED_COMMAND (16 R444). -/
def execMctpUnsupportedCommand (tr : Transport) (ty _code : Byte) (s : State) : Res := .next (s.mctp tr (fun s => s.unsupported tr ty.toNat))

/-- QUERY_DEVICE_IDENTIFIERS (16 R466; 03 R85, R89). -/
def execQueryDeviceIdentifiers (tr : Transport) (s : State) : Res :=
  .next (s.mctp tr (fun s => s.respond tr 0 (leBytes 2 0x1F0D ++ leBytes 2 0xA256 ++ leBytes 8 Config.serialNumber.toNat)))

/-- GET_FIRMWARE_PARAMETERS (16 R466). -/
def execGetFirmwareParameters (tr : Transport) (s : State) : Res := .next (s.mctp tr (fun s => s.respond tr 0 s.fwParams))

/-- REQUEST_UPDATE (16 R466). -/
def execRequestUpdate (tr : Transport) (agent : Nat) (s : State) : Res := .next (s.mctp tr (fun s => s.requestUpdate tr agent))

/-- PASS_COMPONENT_TABLE (16 R466). -/
def execPassComponentTable (tr : Transport) (agent : Nat) (comp : BitVec 16) (s : State) : Res :=
  .next (s.mctp tr (fun s => s.passTable tr agent comp.toNat))

/-- UPDATE_COMPONENT (16 R466, R467). -/
def execUpdateComponent (tr : Transport) (agent : Nat) (comp : BitVec 16) (size : Nat) (s : State) : Res :=
  .next (s.mctp tr (fun s => s.updateComponent tr agent comp.toNat size))

/-- REQUEST_FIRMWARE_DATA_RESPONSE (16 R466, R467). -/
def execRequestFirmwareDataResponse (tr : Transport) (off : Nat) (data : List Byte) (s : State) : Res :=
  .next (s.mctp tr (fun s => s.fwReceive tr off data))

/-- TRANSFER_COMPLETE (16 R466). -/
def execTransferComplete (tr : Transport) (ok : Bool) (s : State) : Res := .next (s.mctp tr (fun s => s.transferComplete tr ok))

/-- VERIFY_COMPLETE (16 R467). -/
def execVerifyComplete (tr : Transport) (s : State) : Res := .next (s.mctp tr (fun s => s.verifyComplete tr))

/-- APPLY_COMPLETE (16 R466, R467). -/
def execApplyComplete (tr : Transport) (ok : Bool) (s : State) : Res := .next (s.mctp tr (fun s => s.applyComplete tr ok))

/-- ACTIVATE_FIRMWARE (16 R468). -/
def execActivateFirmware (tr : Transport) (agent : Nat) (s : State) : Res := .next (s.mctp tr (fun s => s.activateFw tr agent))

/-- GET_STATUS (16 R466). -/
def execGetStatus (tr : Transport) (s : State) : Res := .next (s.mctp tr (fun s => s.respond tr 0 (leBytes 1 (State.fwCode s.mgt.fw.ph))))

/-- CANCEL_UPDATE_COMPONENT (16 R466, R467). -/
def execCancelUpdateComponent (tr : Transport) (agent : Nat) (s : State) : Res := .next (s.mctp tr (fun s => s.cancelComponent tr agent))

/-- CANCEL_UPDATE (16 R466, R467). -/
def execCancelUpdate (tr : Transport) (agent : Nat) (s : State) : Res := .next (s.mctp tr (fun s => s.cancelUpdate tr agent))

/-- GET_NONCE (16 R445, R447). -/
def execGetNonce (tr : Transport) (s : State) : Res := .next (s.otveda tr (fun s => s.getNonce tr))

/-- ENROLL_KEY (16 R445, R447, R449). -/
def execEnrollKey (tr : Transport) (slot : Nat) (digest : List Byte) (au : Option Auth) (s : State) : Res :=
  .next (s.otveda tr (fun s => s.enrollKey tr slot digest au))

/-- REVOKE_KEY (16 R445, R447, R449). -/
def execRevokeKey (tr : Transport) (slot : Nat) (au : Auth) (s : State) : Res := .next (s.otveda tr (fun s => s.revokeKey tr slot au))

/-- LOG_READ (16 R445, R453). -/
def execLogRead (tr : Transport) (seq count : Nat) (s : State) : Res := .next (s.otveda tr (fun s => s.logRead tr seq count))

/-- LOG_CLEAR (16 R445, R447, R453). -/
def execLogClear (tr : Transport) (au : Auth) (s : State) : Res :=
  .next (s.otveda tr (fun s => s.privileged tr au (fun s => s.logClear tr)))

/-- SELFTEST (16 R445, R447, R455, R456, R458). -/
def execSelftest (tr : Transport) (mask : BitVec 16) (force : Bool) (au : Auth) (s : State) : Res :=
  .next (s.otveda tr (fun s => s.privileged tr au (fun s => s.testBays tr false mask.toNat force)))

/-- SELFTEST_BAY_START (16 R455, R456, R458). -/
def execSelftestBayStart (b : BayId) (s : State) : Res := .next (s.testStart b.val)

/-- SELFTEST_BAY_DONE (16 R454, R455, R458, R464). -/
def execSelftestBayDone (b : BayId) (pass : Bool) (test : Nat) (s : State) : Res := .next (s.testDone b.val pass test)

/-- CALIBRATE (16 R445, R447, R457, R458). -/
def execCalibrate (tr : Transport) (mask : BitVec 16) (force : Bool) (au : Auth) (s : State) : Res :=
  .next (s.otveda tr (fun s => s.privileged tr au (fun s => s.testBays tr true mask.toNat force)))

/-- QUARANTINE (16 R445, R447, R463). -/
def execQuarantine (tr : Transport) (u : UnitId) (au : Auth) (s : State) : Res :=
  .next (s.otveda tr (fun s => s.privileged tr au (fun s => (s.quarantine u 3).respond tr Status.ok [])))

/-- RELEASE (16 R445, R447, R464). -/
def execRelease (tr : Transport) (u : UnitId) (au : Auth) (s : State) : Res :=
  .next (s.otveda tr (fun s => s.privileged tr au (fun s => s.releaseUnit tr u)))

/-- TEST_ACCESS (16 R445, R447, R450). -/
def execTestAccess (tr : Transport) (enable : Bool) (au : Auth) (s : State) : Res :=
  .next (s.otveda tr (fun s => s.privileged tr au (fun s =>
    ({ s with mgt := { s.mgt with testOn := enable } } : State).respond tr Status.ok [])))

/-- CTRL_RESTART (03 R76; 16 R445, R447): answered, then the controller restarts. -/
def execCtrlRestart (tr : Transport) (au : Auth) (s : State) : Res :=
  .next (s.otveda tr (fun s => s.privileged tr au (fun s => (s.respond tr Status.ok []).ctrlRestart false)))

/-- WATCHDOG_EXPIRY (03 R76; 16 R465). -/
def execWatchdogExpiry (s : State) : Res := .next (s.ctrlRestart true)

/-- CTRL_RESTART_DONE (03 R76; 04 R130; 06 R174; 16 R446). -/
def execCtrlRestartDone (queued : List Transport) (s : State) : Res := .next (s.ctrlBack queued)

/-- REPAIR_LIST (16 R445, R461). -/
def execRepairList (tr : Transport) (s : State) : Res := .next (s.otveda tr (fun s => s.repairList tr))

/-- GET_SFU_PROGRAM (16 R445; 11 R324). -/
def execGetSfuProgram (tr : Transport) (func : BitVec 16) (s : State) : Res := .next (s.otveda tr (fun s => s.sfuProgram tr func.toNat))

/-- OTVEDA_UNDEFINED_COMMAND (16 R445). -/
def execOtvedaUndefinedCommand (tr : Transport) (_code : Byte) (s : State) : Res :=
  .next (s.otveda tr (fun s => s.respond tr Status.shapeIllegal []))

/-- SENSOR_REFRESH (16 R451). -/
def execSensorRefresh (readings : List (Nat × Nat)) (s : State) : Res := .next (s.sensorRefresh readings)

/-- VIEW_COMPARE (16 R462). -/
def execViewCompare (seen : List (Nat × Nat)) (s : State) : Res := .next (s.viewCompare seen)

end Sys2Proof.Machine
end

