-- ==== Sys2Proof/Machine/Move.lean ====
section
/-! DEFINITION. The meanings of the operations of the move slot (07 R221-R225): each reaches the core's beat through one shared operation, where its own operands,
holds, faults and effect stand. -/

namespace Sys2Proof.Machine

/-- MNOP (07 R222). -/
def execMnop (c : CoreId) (more : Bool) (s : State) : Res :=
  s.slotCmd c.val more .mnop

/-- LDR (07 R222, R223; 09 R269, R270). -/
def execLdr (c : CoreId) (more : Bool) (w : WReg) (adr : AReg) (off : BitVec 12) (s : State) : Res :=
  s.slotCmd c.val more (.ldr w adr off)

/-- STR (07 R222, R223; 09 R269, R270). -/
def execStr (c : CoreId) (more : Bool) (w : WReg) (adr : AReg) (off : BitVec 12) (s : State) : Res :=
  s.slotCmd c.val more (.str w adr off)

/-- LDA (07 R222, R223). -/
def execLda (c : CoreId) (more : Bool) (w : WReg) (adr : AReg) (off : BitVec 12) (s : State) : Res :=
  s.slotCmd c.val more (.lda w adr off)

/-- STA (07 R222, R223). -/
def execSta (c : CoreId) (more : Bool) (w : WReg) (adr : AReg) (off : BitVec 12) (s : State) : Res :=
  s.slotCmd c.val more (.sta w adr off)

/-- FILL (07 R222-R224; 09 R272, R270). -/
def execFill (c : CoreId) (more : Bool) (x : XReg) (adr : AReg) (off cnt : BitVec 12) (s : State) : Res :=
  s.slotCmd c.val more (.fill x adr off cnt)

/-- COPY (07 R222-R224; 09 R273, R270). -/
def execCopy (c : CoreId) (more : Bool) (x : XReg) (adr : AReg) (off cnt : BitVec 12) (s : State) : Res :=
  s.slotCmd c.val more (.copy x adr off cnt)

/-- SEMSIG (07 R222, R224, R225; 10 R311). -/
def execSemsig (c : CoreId) (more : Bool) (pair : Fin 64) (ctr : Fin 2) (cnt : BitVec 12) (remote : Bool) (x : XReg) (s : State) : Res :=
  s.slotCmd c.val more (.semsig pair ctr cnt remote x)

/-- SEMWAIT (07 R222, R224). -/
def execSemwait (c : CoreId) (more : Bool) (pair : Fin 64) (ctr : Fin 2) (cnt : BitVec 12) (s : State) : Res :=
  s.slotCmd c.val more (.semwait pair ctr cnt)

/-- HQPUSH (07 R222, 10 R313). -/
def execHqpush (c : CoreId) (more : Bool) (q : Fin 128) (x : XReg) (s : State) : Res :=
  s.slotCmd c.val more (.hqpush q x)

/-- HQPOP (07 R222, 10 R313). -/
def execHqpop (c : CoreId) (more : Bool) (q : Fin 128) (x : XReg) (s : State) : Res :=
  s.slotCmd c.val more (.hqpop q x)

/-- CLAIM_TAKE (07 R222; 08 R258, R259). -/
def execClaimTake (c : CoreId) (more : Bool) (k : Fin 64) (cnt : BitVec 12) (x : XReg) (s : State) : Res :=
  s.slotCmd c.val more (.claimTake k cnt x)

/-- CLAIM_ARM (07 R222; 08 R258, R259). -/
def execClaimArm (c : CoreId) (more : Bool) (k : Fin 64) (x : XReg) (s : State) : Res :=
  s.slotCmd c.val more (.claimArm k x)

/-- STRMGO (07 R222; 10 R292-R301, R309). -/
def execStrmgo (c : CoreId) (more : Bool) (st : Fin 16) (prick : BitVec 12) (adr : AReg) (s : State) : Res :=
  s.slotCmd c.val more (.strmgo st prick adr)

/-- STRMSWAP (07 R222; 10 R294). -/
def execStrmswap (c : CoreId) (more : Bool) (st : Fin 16) (s : State) : Res :=
  s.slotCmd c.val more (.strmswap st)

/-- STRMWAIT (07 R222; 10 R294). -/
def execStrmwait (c : CoreId) (more : Bool) (st : Fin 16) (x : XReg) (s : State) : Res :=
  s.slotCmd c.val more (.strmwait st x)

/-- HOOP_PUSH (09 R275-R277, R478). -/
def execHoopPush (c : CoreId) (more : Bool) (h : Fin 16) (w : WReg) (s : State) : Res :=
  s.slotCmd c.val more (.hoopPush h w)

/-- HOOP_CONFIG (09 R275, R276). -/
def execHoopConfig (c : CoreId) (more : Bool) (h : Fin 16) (adr : AReg) (cnt : BitVec 12) (s : State) : Res :=
  s.slotCmd c.val more (.hoopConfig h adr cnt)

/-- HOOP_POP (09 R275-R277, R478). -/
def execHoopPop (c : CoreId) (more : Bool) (h : Fin 16) (w : WReg) (s : State) : Res :=
  s.slotCmd c.val more (.hoopPop h w)

/-- HOOP_PEEK (09 R275-R277, R478). -/
def execHoopPeek (c : CoreId) (more : Bool) (h : Fin 16) (w : WReg) (cnt : BitVec 12) (s : State) : Res :=
  s.slotCmd c.val more (.hoopPeek h w cnt)

/-- HOOP_DROP (09 R275-R277, R478). -/
def execHoopDrop (c : CoreId) (more : Bool) (h : Fin 16) (cnt : BitVec 12) (s : State) : Res :=
  s.slotCmd c.val more (.hoopDrop h cnt)

/-- HOOP_COUNT (09 R275, R276). -/
def execHoopCount (c : CoreId) (more : Bool) (h : Fin 16) (x : XReg) (s : State) : Res :=
  s.slotCmd c.val more (.hoopCount h x)

/-- ARRWAIT (09 R280-R282). -/
def execArrwait (c : CoreId) (more : Bool) (k : Fin 128) (x : XReg) (s : State) : Res :=
  s.slotCmd c.val more (.arrwait k x false)

/-- ARRWAIT_SUB (09 R280-R282). -/
def execArrwaitSub (c : CoreId) (more : Bool) (k : Fin 128) (x : XReg) (s : State) : Res :=
  s.slotCmd c.val more (.arrwait k x true)

/-- ARRIVAL_RESET (09 R281, R282). -/
def execArrivalReset (c : CoreId) (more : Bool) (k : Fin 128) (s : State) : Res :=
  s.slotCmd c.val more (.arrReset k)

/-- MWAIT (07 R222, R228). -/
def execMwait (c : CoreId) (more : Bool) (x : XReg) (s : State) : Res :=
  s.slotCmd c.val more (.mwait x)

end Sys2Proof.Machine
end

