-- ==== Sys2Proof/Machine/Row.lean ====
section
/-! DEFINITION. The meanings of the operations of the row slot (07 R216-R220): each reaches the core's beat through one shared operation, where its own operands,
holds, faults and effect stand. -/

namespace Sys2Proof.Machine

/-- VNOP (07 R218). -/
def execVnop (c : CoreId) (more : Bool) (s : State) : Res :=
  s.slotCmd c.val more .vnop

/-- VADD (07 R217, R218, R220). -/
def execVadd (c : CoreId) (more : Bool) (wd ws1 ws2 : WReg) (fmt : Fin 16) (s : State) : Res :=
  s.slotCmd c.val more (.lane .add wd ws1 ws2 0 fmt)

/-- VSUB (07 R217, R218, R220). -/
def execVsub (c : CoreId) (more : Bool) (wd ws1 ws2 : WReg) (fmt : Fin 16) (s : State) : Res :=
  s.slotCmd c.val more (.lane .sub wd ws1 ws2 0 fmt)

/-- VMUL (07 R217, R218, R220). -/
def execVmul (c : CoreId) (more : Bool) (wd ws1 ws2 : WReg) (fmt : Fin 16) (s : State) : Res :=
  s.slotCmd c.val more (.lane .mul wd ws1 ws2 0 fmt)

/-- VMAX (07 R217, R218, R220). -/
def execVmax (c : CoreId) (more : Bool) (wd ws1 ws2 : WReg) (fmt : Fin 16) (s : State) : Res :=
  s.slotCmd c.val more (.lane .max wd ws1 ws2 0 fmt)

/-- VMIN (07 R217, R218, R220). -/
def execVmin (c : CoreId) (more : Bool) (wd ws1 ws2 : WReg) (fmt : Fin 16) (s : State) : Res :=
  s.slotCmd c.val more (.lane .min wd ws1 ws2 0 fmt)

/-- VCMPLT (07 R217, R218, R220). -/
def execVcmplt (c : CoreId) (more : Bool) (wd ws1 ws2 : WReg) (fmt : Fin 16) (s : State) : Res :=
  s.slotCmd c.val more (.lane .cmplt wd ws1 ws2 0 fmt)

/-- VAND (07 R218). -/
def execVand (c : CoreId) (more : Bool) (wd ws1 ws2 : WReg) (s : State) : Res :=
  s.slotCmd c.val more (.lane .and wd ws1 ws2 0 0)

/-- VOR (07 R218). -/
def execVor (c : CoreId) (more : Bool) (wd ws1 ws2 : WReg) (s : State) : Res :=
  s.slotCmd c.val more (.lane .or wd ws1 ws2 0 0)

/-- VXOR (07 R218). -/
def execVxor (c : CoreId) (more : Bool) (wd ws1 ws2 : WReg) (s : State) : Res :=
  s.slotCmd c.val more (.lane .xor wd ws1 ws2 0 0)

/-- VFMA (07 R217, R218, R220). -/
def execVfma (c : CoreId) (more : Bool) (wd ws1 ws2 ws3 : WReg) (fmt : Fin 16) (s : State) : Res :=
  s.slotCmd c.val more (.lane .fma wd ws1 ws2 ws3 fmt)

/-- VSEL (07 R217, R218). -/
def execVsel (c : CoreId) (more : Bool) (wd ws1 ws2 ws3 : WReg) (fmt : Fin 16) (s : State) : Res :=
  s.slotCmd c.val more (.lane .sel wd ws1 ws2 ws3 fmt)

/-- VCVT (07 R217-R220, R470). -/
def execVcvt (c : CoreId) (more : Bool) (wd ws1 : WReg) (fmt tf : Fin 16) (part : Fin 4) (sr : Bool) (s : State) : Res :=
  s.slotCmd c.val more (.vcvt wd ws1 fmt tf part sr)

/-- VBCAST (07 R217, R218). -/
def execVbcast (c : CoreId) (more : Bool) (wd : WReg) (xs : XReg) (fmt : Fin 16) (s : State) : Res :=
  s.slotCmd c.val more (.vbcast wd xs fmt)

/-- VRED (07 R218, R220). -/
def execVred (c : CoreId) (more : Bool) (xs : XReg) (ws1 : WReg) (fmt : Fin 16) (op : RedOp) (s : State) : Res :=
  s.slotCmd c.val more (.vred xs ws1 fmt op)

/-- VSFU (07 R217, R218, R231; 11 R317-R327, R336, R337, R477). -/
def execVsfu (c : CoreId) (more : Bool) (wd ws1 : WReg) (fmt : Fin 16) (sel : Fin 64) (s : State) : Res :=
  s.slotCmd c.val more (.vsfu wd ws1 fmt sel)

end Sys2Proof.Machine
end

