-- ==== Sys2Proof/Machine/Dispatch.lean ====
section
/-! DEFINITION. The meaning of each command: one arm per constructor. -/

namespace Sys2Proof.Machine

/-- The command's effect on everything but the queue (95_what_each_step_holds maps each row to its rules). -/
def exec (i : Instr) (s : State) : Host.Outcome State Fault Refusal :=
  match i with
  | .registerWrite fn off size val ide => Sys2Proof.Machine.execRegisterWrite fn off size val ide s
  | .rcRead fn off size ide => Sys2Proof.Machine.execRcRead fn off size ide s
  | .tscRead fn half => Sys2Proof.Machine.execTscRead fn half s
  | .pkgMemAccess rq => Sys2Proof.Machine.execPkgMemAccess rq s
  | .rowSlotGrant st => Sys2Proof.Machine.execRowSlotGrant st s
  | .pkgMemFetchComplete st tag ecc dramRow => Sys2Proof.Machine.execPkgMemFetchComplete st tag ecc dramRow s
  | .pkgMemWriteComplete st tag => Sys2Proof.Machine.execPkgMemWriteComplete st tag s
  | .memPatrol st ecc dramRow writtenSince => Sys2Proof.Machine.execMemPatrol st ecc dramRow writtenSince s
  | .bubbleBeat c => Sys2Proof.Machine.execBubbleBeat c s
  | .railUpdate capMv thermMv mon base => Sys2Proof.Machine.execRailUpdate capMv thermMv mon base s
  | .pwrCapWrite val => Sys2Proof.Machine.execPwrCapWrite val s
  | .pdkPaceWrite p val ide => Sys2Proof.Machine.execPdkPaceWrite p val ide s
  | .junctionAboveFloor d tj mv => Sys2Proof.Machine.execJunctionAboveFloor d tj mv s
  | .junctionRecovered d tj mon => Sys2Proof.Machine.execJunctionRecovered d tj mon s
  | .thermalTrip d tj => Sys2Proof.Machine.execThermalTrip d tj s
  | .tripEnterStandby => Sys2Proof.Machine.execTripEnterStandby s
  | .auxPowerOn fwOk ucodeOk => Sys2Proof.Machine.execAuxPowerOn fwOk ucodeOk s
  | .mainPowerOn => Sys2Proof.Machine.execMainPowerOn s
  | .perstDeassert => Sys2Proof.Machine.execPerstDeassert s
  | .linkTrainingStart => Sys2Proof.Machine.execLinkTrainingStart s
  | .rampComplete noResource => Sys2Proof.Machine.execRampComplete noResource s
  | .perstAssert => Sys2Proof.Machine.execPerstAssert s
  | .hotReset => Sys2Proof.Machine.execHotReset s
  | .linkDisable => Sys2Proof.Machine.execLinkDisable s
  | .linkDisableCleared => Sys2Proof.Machine.execLinkDisableCleared s
  | .conventionalResetDone => Sys2Proof.Machine.execConventionalResetDone s
  | .p54vLoss mv => Sys2Proof.Machine.execP54vLoss mv s
  | .p54vLowTimeout mv => Sys2Proof.Machine.execP54vLowTimeout mv s
  | .auxLoss mv => Sys2Proof.Machine.execAuxLoss mv s
  | .refclkStop => Sys2Proof.Machine.execRefclkStop s
  | .linkDown => Sys2Proof.Machine.execLinkDown s
  | .standbyRequest force => Sys2Proof.Machine.execStandbyRequest force s
  | .standbyTransitionDone => Sys2Proof.Machine.execStandbyTransitionDone s
  | .powerUp => Sys2Proof.Machine.execPowerUp s
  | .pf0Flr => Sys2Proof.Machine.execPf0Flr s
  | .vfFlr p => Sys2Proof.Machine.execVfFlr p s
  | .vfEnableClear => Sys2Proof.Machine.execVfEnableClear s
  | .vfD3hot p => Sys2Proof.Machine.execVfD3hot p s
  | .pf0D3hot => Sys2Proof.Machine.execPf0D3hot s
  | .vfD0 fn => Sys2Proof.Machine.execVfD0 fn s
  | .vfBmeClear p => Sys2Proof.Machine.execVfBmeClear p s
  | .vfBmeSet p => Sys2Proof.Machine.execVfBmeSet p s
  | .configWrite fn w => Sys2Proof.Machine.execConfigWrite fn w s
  | .msixRelease fn => Sys2Proof.Machine.execMsixRelease fn s
  | .unsupportedTlp fn => Sys2Proof.Machine.execUnsupportedTlp fn s
  | .bar2Tlp p write off len data ide => Sys2Proof.Machine.execBar2Tlp p write off len data ide s
  | .pdkWinWrite p val ide => Sys2Proof.Machine.execPdkWinWrite p val ide s
  | .hostCompletion tag ok data => Sys2Proof.Machine.execHostCompletion tag ok data s
  | .completionTimeout tag => Sys2Proof.Machine.execCompletionTimeout tag s
  | .ldrGo => Sys2Proof.Machine.execLdrGo s
  | .pdkLoadGo p ide => Sys2Proof.Machine.execPdkLoadGo p ide s
  | .loaderTake => Sys2Proof.Machine.execLoaderTake s
  | .loadChecksComplete => Sys2Proof.Machine.execLoadChecksComplete s
  | .platformCommit => Sys2Proof.Machine.execPlatformCommit s
  | .tenantCommit => Sys2Proof.Machine.execTenantCommit s
  | .suspend p => Sys2Proof.Machine.execSuspend p s
  | .resume p => Sys2Proof.Machine.execResume p s
  | .teardown p byTenant => Sys2Proof.Machine.execTeardown p byTenant s
  | .teardownDrained p => Sys2Proof.Machine.execTeardownDrained p s
  | .teardownComplete p => Sys2Proof.Machine.execTeardownComplete p s
  | .ringEnable p val ide => Sys2Proof.Machine.execRingEnable p val ide s
  | .ringDisable p val ide => Sys2Proof.Machine.execRingDisable p val ide s
  | .sqTailDoorbell p k val ide => Sys2Proof.Machine.execSqTailDoorbell p k val ide s
  | .cqHeadDoorbell p k val ide => Sys2Proof.Machine.execCqHeadDoorbell p k val ide s
  | .sqEntry p k data => Sys2Proof.Machine.execSqEntry p k data s
  | .scheduleDecision => Sys2Proof.Machine.execScheduleDecision s
  | .sliceExpiry b => Sys2Proof.Machine.execSliceExpiry b s
  | .coresStopped b => Sys2Proof.Machine.execCoresStopped b s
  | .baySwitch b => Sys2Proof.Machine.execBaySwitch b s
  | .jobEnd p k => Sys2Proof.Machine.execJobEnd p k s
  | .completionWrite p k ok => Sys2Proof.Machine.execCompletionWrite p k ok s
  | .entropySample v => Sys2Proof.Machine.execEntropySample v s
  | .drbgReinstantiate => Sys2Proof.Machine.execDrbgReinstantiate s
  | .drbgReseed => Sys2Proof.Machine.execDrbgReseed s
  | .entropyWaitTimeout c => Sys2Proof.Machine.execEntropyWaitTimeout c s
  | .getVersion r => Sys2Proof.Machine.execGetVersion r s
  | .getCapabilities r => Sys2Proof.Machine.execGetCapabilities r s
  | .negotiateAlgorithms r => Sys2Proof.Machine.execNegotiateAlgorithms r s
  | .getDigests r => Sys2Proof.Machine.execGetDigests r s
  | .getCertificate r slot off len => Sys2Proof.Machine.execGetCertificate r slot off len s
  | .challenge r slot nonce => Sys2Proof.Machine.execChallenge r slot nonce s
  | .getMeasurements r idx nonce => Sys2Proof.Machine.execGetMeasurements r idx nonce s
  | .keyExchange r data => Sys2Proof.Machine.execKeyExchange r data s
  | .finish r sid macOk => Sys2Proof.Machine.execFinish r sid macOk s
  | .heartbeat r sid => Sys2Proof.Machine.execHeartbeat r sid s
  | .keyUpdate r sid => Sys2Proof.Machine.execKeyUpdate r sid s
  | .endSession r sid => Sys2Proof.Machine.execEndSession r sid s
  | .chunkGet r handle seq => Sys2Proof.Machine.execChunkGet r handle seq s
  | .spdmUnsupportedRequest r code => Sys2Proof.Machine.execSpdmUnsupportedRequest r code s
  | .heartbeatTimeout r sid => Sys2Proof.Machine.execHeartbeatTimeout r sid s
  | .ideKmQuery sid port => Sys2Proof.Machine.execIdeKmQuery sid port s
  | .keyProg sid stream set rx sub => Sys2Proof.Machine.execKeyProg sid stream set rx sub s
  | .kSetGo sid stream set rx sub => Sys2Proof.Machine.execKSetGo sid stream set rx sub s
  | .kSetStop sid stream set rx sub => Sys2Proof.Machine.execKSetStop sid stream set rx sub s
  | .getTdispVersion sid p => Sys2Proof.Machine.execGetTdispVersion sid p s
  | .getTdispCapabilities sid p => Sys2Proof.Machine.execGetTdispCapabilities sid p s
  | .lockInterfaceRequest sid p stream p2p => Sys2Proof.Machine.execLockInterfaceRequest sid p stream p2p s
  | .getDeviceInterfaceReport sid p => Sys2Proof.Machine.execGetDeviceInterfaceReport sid p s
  | .getDeviceInterfaceState sid p => Sys2Proof.Machine.execGetDeviceInterfaceState sid p s
  | .startInterfaceRequest sid p => Sys2Proof.Machine.execStartInterfaceRequest sid p s
  | .stopInterfaceRequest sid p => Sys2Proof.Machine.execStopInterfaceRequest sid p s
  | .tdispUnsupportedRequest sid p => Sys2Proof.Machine.execTdispUnsupportedRequest sid p s
  | .pdkConsentWrite p val ide => Sys2Proof.Machine.execPdkConsentWrite p val ide s
  | .epochAck e => Sys2Proof.Machine.execEpochAck e s
  | .bayPowerDown mask => Sys2Proof.Machine.execBayPowerDown mask s
  | .bayScrubConfirmed b => Sys2Proof.Machine.execBayScrubConfirmed b s
  | .bayPowerUp mask => Sys2Proof.Machine.execBayPowerUp mask s
  | .nop c more => Sys2Proof.Machine.execNop c more s
  | .add c more rd rs1 rs2 => Sys2Proof.Machine.execAdd c more rd rs1 rs2 s
  | .sub c more rd rs1 rs2 => Sys2Proof.Machine.execSub c more rd rs1 rs2 s
  | .and c more rd rs1 rs2 => Sys2Proof.Machine.execAnd c more rd rs1 rs2 s
  | .or c more rd rs1 rs2 => Sys2Proof.Machine.execOr c more rd rs1 rs2 s
  | .xor c more rd rs1 rs2 => Sys2Proof.Machine.execXor c more rd rs1 rs2 s
  | .sll c more rd rs1 rs2 => Sys2Proof.Machine.execSll c more rd rs1 rs2 s
  | .srl c more rd rs1 rs2 => Sys2Proof.Machine.execSrl c more rd rs1 rs2 s
  | .sra c more rd rs1 rs2 => Sys2Proof.Machine.execSra c more rd rs1 rs2 s
  | .slt c more rd rs1 rs2 => Sys2Proof.Machine.execSlt c more rd rs1 rs2 s
  | .sltu c more rd rs1 rs2 => Sys2Proof.Machine.execSltu c more rd rs1 rs2 s
  | .min c more rd rs1 rs2 => Sys2Proof.Machine.execMin c more rd rs1 rs2 s
  | .max c more rd rs1 rs2 => Sys2Proof.Machine.execMax c more rd rs1 rs2 s
  | .mul c more rd rs1 rs2 => Sys2Proof.Machine.execMul c more rd rs1 rs2 s
  | .addi c more rd rs1 imm => Sys2Proof.Machine.execAddi c more rd rs1 imm s
  | .andi c more rd rs1 imm => Sys2Proof.Machine.execAndi c more rd rs1 imm s
  | .ori c more rd rs1 imm => Sys2Proof.Machine.execOri c more rd rs1 imm s
  | .xori c more rd rs1 imm => Sys2Proof.Machine.execXori c more rd rs1 imm s
  | .slli c more rd rs1 imm => Sys2Proof.Machine.execSlli c more rd rs1 imm s
  | .srli c more rd rs1 imm => Sys2Proof.Machine.execSrli c more rd rs1 imm s
  | .srai c more rd rs1 imm => Sys2Proof.Machine.execSrai c more rd rs1 imm s
  | .slti c more rd rs1 imm => Sys2Proof.Machine.execSlti c more rd rs1 imm s
  | .li c more rd imm => Sys2Proof.Machine.execLi c more rd imm s
  | .lis c more rd k imm => Sys2Proof.Machine.execLis c more rd k imm s
  | .beq c more rs1 rs2 off => Sys2Proof.Machine.execBeq c more rs1 rs2 off s
  | .bne c more rs1 rs2 off => Sys2Proof.Machine.execBne c more rs1 rs2 off s
  | .blt c more rs1 rs2 off => Sys2Proof.Machine.execBlt c more rs1 rs2 off s
  | .bge c more rs1 rs2 off => Sys2Proof.Machine.execBge c more rs1 rs2 off s
  | .bltu c more rs1 rs2 off => Sys2Proof.Machine.execBltu c more rs1 rs2 off s
  | .bgeu c more rs1 rs2 off => Sys2Proof.Machine.execBgeu c more rs1 rs2 off s
  | .jal c more rd off => Sys2Proof.Machine.execJal c more rd off s
  | .jr c more rd rs1 => Sys2Proof.Machine.execJr c more rd rs1 s
  | .amov c more ad rs1 => Sys2Proof.Machine.execAmov c more ad rs1 s
  | .aaddi c more ad asrc imm => Sys2Proof.Machine.execAaddi c more ad asrc imm s
  | .xmova c more rd asrc => Sys2Proof.Machine.execXmova c more rd asrc s
  | .getsv c more rd idx => Sys2Proof.Machine.execGetsv c more rd idx s
  | .rand c more rd => Sys2Proof.Machine.execRand c more rd s
  | .jobStop c more => Sys2Proof.Machine.execJobStop c more s
  | .vnop c more => Sys2Proof.Machine.execVnop c more s
  | .vadd c more wd ws1 ws2 fmt => Sys2Proof.Machine.execVadd c more wd ws1 ws2 fmt s
  | .vsub c more wd ws1 ws2 fmt => Sys2Proof.Machine.execVsub c more wd ws1 ws2 fmt s
  | .vmul c more wd ws1 ws2 fmt => Sys2Proof.Machine.execVmul c more wd ws1 ws2 fmt s
  | .vfma c more wd ws1 ws2 ws3 fmt => Sys2Proof.Machine.execVfma c more wd ws1 ws2 ws3 fmt s
  | .vmax c more wd ws1 ws2 fmt => Sys2Proof.Machine.execVmax c more wd ws1 ws2 fmt s
  | .vmin c more wd ws1 ws2 fmt => Sys2Proof.Machine.execVmin c more wd ws1 ws2 fmt s
  | .vand c more wd ws1 ws2 => Sys2Proof.Machine.execVand c more wd ws1 ws2 s
  | .vor c more wd ws1 ws2 => Sys2Proof.Machine.execVor c more wd ws1 ws2 s
  | .vxor c more wd ws1 ws2 => Sys2Proof.Machine.execVxor c more wd ws1 ws2 s
  | .vcmplt c more wd ws1 ws2 fmt => Sys2Proof.Machine.execVcmplt c more wd ws1 ws2 fmt s
  | .vsel c more wd ws1 ws2 ws3 fmt => Sys2Proof.Machine.execVsel c more wd ws1 ws2 ws3 fmt s
  | .vcvt c more wd ws1 fmt tf part sr => Sys2Proof.Machine.execVcvt c more wd ws1 fmt tf part sr s
  | .vbcast c more wd xs fmt => Sys2Proof.Machine.execVbcast c more wd xs fmt s
  | .vred c more xs ws1 fmt op => Sys2Proof.Machine.execVred c more xs ws1 fmt op s
  | .vsfu c more wd ws1 fmt sel => Sys2Proof.Machine.execVsfu c more wd ws1 fmt sel s
  | .mnop c more => Sys2Proof.Machine.execMnop c more s
  | .ldr c more w adr off => Sys2Proof.Machine.execLdr c more w adr off s
  | .str c more w adr off => Sys2Proof.Machine.execStr c more w adr off s
  | .lda c more w adr off => Sys2Proof.Machine.execLda c more w adr off s
  | .sta c more w adr off => Sys2Proof.Machine.execSta c more w adr off s
  | .fill c more x adr off cnt => Sys2Proof.Machine.execFill c more x adr off cnt s
  | .copy c more x adr off cnt => Sys2Proof.Machine.execCopy c more x adr off cnt s
  | .semsig c more pair ctr cnt remote x => Sys2Proof.Machine.execSemsig c more pair ctr cnt remote x s
  | .remoteSemsigArrival src => Sys2Proof.Machine.execRemoteSemsigArrival src s
  | .semwait c more pair ctr cnt => Sys2Proof.Machine.execSemwait c more pair ctr cnt s
  | .hqpush c more q x => Sys2Proof.Machine.execHqpush c more q x s
  | .remoteHqpushArrival src => Sys2Proof.Machine.execRemoteHqpushArrival src s
  | .hqpop c more q x => Sys2Proof.Machine.execHqpop c more q x s
  | .claimTake c more k cnt x => Sys2Proof.Machine.execClaimTake c more k cnt x s
  | .claimArm c more k x => Sys2Proof.Machine.execClaimArm c more k x s
  | .strmgo c more st prick adr => Sys2Proof.Machine.execStrmgo c more st prick adr s
  | .strmswap c more st => Sys2Proof.Machine.execStrmswap c more st s
  | .strmwait c more st x => Sys2Proof.Machine.execStrmwait c more st x s
  | .hoopPush c more h w => Sys2Proof.Machine.execHoopPush c more h w s
  | .hoopConfig c more h adr cnt => Sys2Proof.Machine.execHoopConfig c more h adr cnt s
  | .hoopPop c more h w => Sys2Proof.Machine.execHoopPop c more h w s
  | .hoopPeek c more h w cnt => Sys2Proof.Machine.execHoopPeek c more h w cnt s
  | .hoopDrop c more h cnt => Sys2Proof.Machine.execHoopDrop c more h cnt s
  | .hoopCount c more h x => Sys2Proof.Machine.execHoopCount c more h x s
  | .arrwait c more k x => Sys2Proof.Machine.execArrwait c more k x s
  | .arrwaitSub c more k x => Sys2Proof.Machine.execArrwaitSub c more k x s
  | .arrivalReset c more k => Sys2Proof.Machine.execArrivalReset c more k s
  | .mwait c more x => Sys2Proof.Machine.execMwait c more x s
  | .matmul c adr off xs => Sys2Proof.Machine.execMatmul c adr off xs s
  | .tileDrain c => Sys2Proof.Machine.execTileDrain c s
  | .macroComplete c => Sys2Proof.Machine.execMacroComplete c s
  | .attend c adr off xs => Sys2Proof.Machine.execAttend c adr off xs s
  | .splitDelivery c => Sys2Proof.Machine.execSplitDelivery c s
  | .splitFold b => Sys2Proof.Machine.execSplitFold b s
  | .create c adr off xs => Sys2Proof.Machine.execCreate c adr off xs s
  | .yardRelease c adr off xs => Sys2Proof.Machine.execYardRelease c adr off xs s
  | .append c adr off xs => Sys2Proof.Machine.execAppend c adr off xs s
  | .trim c adr off xs => Sys2Proof.Machine.execTrim c adr off xs s
  | .fork c adr off xs => Sys2Proof.Machine.execFork c adr off xs s
  | .lookup c adr off xs => Sys2Proof.Machine.execLookup c adr off xs s
  | .publish c adr off xs => Sys2Proof.Machine.execPublish c adr off xs s
  | .pin c adr off xs => Sys2Proof.Machine.execPin c adr off xs s
  | .unpin c adr off xs => Sys2Proof.Machine.execUnpin c adr off xs s
  | .prefetch c adr off xs => Sys2Proof.Machine.execPrefetch c adr off xs s
  | .query c adr off xs => Sys2Proof.Machine.execQuery c adr off xs s
  | .ptread c adr off xs => Sys2Proof.Machine.execPtread c adr off xs s
  | .loftPageReturn tag ok data => Sys2Proof.Machine.execLoftPageReturn tag ok data s
  | .frameZeroed slot n => Sys2Proof.Machine.execFrameZeroed slot n s
  | .deferredRelease c => Sys2Proof.Machine.execDeferredRelease c s
  | .yrdPfxKeyWrite p second val ide => Sys2Proof.Machine.execYrdPfxKeyWrite p second val ide s
  | .yrdLoftWrite p g size val ide => Sys2Proof.Machine.execYrdLoftWrite p g size val ide s
  | .streamRequestIssue b => Sys2Proof.Machine.execStreamRequestIssue b s
  | .streamRowDelivered c st => Sys2Proof.Machine.execStreamRowDelivered c st s
  | .streamWriteAck c st => Sys2Proof.Machine.execStreamWriteAck c st s
  | .eccWriteback c row => Sys2Proof.Machine.execEccWriteback c row s
  | .spadPatrol c bank ecc => Sys2Proof.Machine.execSpadPatrol c bank ecc s
  | .spadUncorrectable c row by_ => Sys2Proof.Machine.execSpadUncorrectable c row by_ s
  | .graphArm p g val ide => Sys2Proof.Machine.execGraphArm p g val ide s
  | .graphDisarm p g ide => Sys2Proof.Machine.execGraphDisarm p g ide s
  | .frameSubmit p g val ide => Sys2Proof.Machine.execFrameSubmit p g val ide s
  | .bandTake e => Sys2Proof.Machine.execBandTake e s
  | .frameRecord p g => Sys2Proof.Machine.execFrameRecord p g s
  | .deferredSignalDelivery c => Sys2Proof.Machine.execDeferredSignalDelivery c s
  | .helloSend pt => Sys2Proof.Machine.execHelloSend pt s
  | .hello pt h => Sys2Proof.Machine.execHello pt h s
  | .helloTimeout pt => Sys2Proof.Machine.execHelloTimeout pt s
  | .pauseFrame pt => Sys2Proof.Machine.execPauseFrame pt s
  | .dataFrame pt h t payload => Sys2Proof.Machine.execDataFrame pt h t payload s
  | .ackFrame pt h => Sys2Proof.Machine.execAckFrame pt h s
  | .nakFrame pt h status => Sys2Proof.Machine.execNakFrame pt h status s
  | .retireFrame pt h => Sys2Proof.Machine.execRetireFrame pt h s
  | .collFrame pt h kind len payload => Sys2Proof.Machine.execCollFrame pt h kind len payload s
  | .activate p val ide => Sys2Proof.Machine.execActivate p val ide s
  | .retire p ide => Sys2Proof.Machine.execRetire p ide s
  | .fabJobMemberWrite p val ide => Sys2Proof.Machine.execFabJobMemberWrite p val ide s
  | .fabJobKeyWrite p k val ide => Sys2Proof.Machine.execFabJobKeyWrite p k val ide s
  | .eyeletOpen p val ide => Sys2Proof.Machine.execEyeletOpen p val ide s
  | .eyeletClose p ide => Sys2Proof.Machine.execEyeletClose p ide s
  | .eyeletAbandon p e => Sys2Proof.Machine.execEyeletAbandon p e s
  | .fabPostqWrite p q val ide => Sys2Proof.Machine.execFabPostqWrite p q val ide s
  | .put p q => Sys2Proof.Machine.execPut p q s
  | .get p q => Sys2Proof.Machine.execGet p q s
  | .statSum p q => Sys2Proof.Machine.execStatSum p q s
  | .sumF32 p q => Sys2Proof.Machine.execSumF32 p q s
  | .maxF32 p q => Sys2Proof.Machine.execMaxF32 p q s
  | .collectiveFold p j => Sys2Proof.Machine.execCollectiveFold p j s
  | .postCompletion p q => Sys2Proof.Machine.execPostCompletion p q s
  | .resendTimeout f => Sys2Proof.Machine.execResendTimeout f s
  | .notReadyRetry f => Sys2Proof.Machine.execNotReadyRetry f s
  | .retireResend p j => Sys2Proof.Machine.execRetireResend p j s
  | .deferredArrival c => Sys2Proof.Machine.execDeferredArrival c s
  | .setEndpointId tr eid => Sys2Proof.Machine.execSetEndpointId tr eid s
  | .getEndpointId tr => Sys2Proof.Machine.execGetEndpointId tr s
  | .getEndpointUuid tr => Sys2Proof.Machine.execGetEndpointUuid tr s
  | .getMctpVersionSupport tr ty => Sys2Proof.Machine.execGetMctpVersionSupport tr ty s
  | .getMessageTypeSupport tr => Sys2Proof.Machine.execGetMessageTypeSupport tr s
  | .getTid tr => Sys2Proof.Machine.execGetTid tr s
  | .getPldmVersion tr ty => Sys2Proof.Machine.execGetPldmVersion tr ty s
  | .getPldmTypes tr => Sys2Proof.Machine.execGetPldmTypes tr s
  | .getPldmCommands tr ty => Sys2Proof.Machine.execGetPldmCommands tr ty s
  | .setEventReceiver tr eid => Sys2Proof.Machine.execSetEventReceiver tr eid s
  | .getPdrRepositoryInfo tr => Sys2Proof.Machine.execGetPdrRepositoryInfo tr s
  | .getPdr tr handle => Sys2Proof.Machine.execGetPdr tr handle s
  | .getSensorReading tr id => Sys2Proof.Machine.execGetSensorReading tr id s
  | .getStateSensorReadings tr id => Sys2Proof.Machine.execGetStateSensorReadings tr id s
  | .pollForPlatformEventMessage tr => Sys2Proof.Machine.execPollForPlatformEventMessage tr s
  | .mctpUnsupportedCommand tr ty code => Sys2Proof.Machine.execMctpUnsupportedCommand tr ty code s
  | .queryDeviceIdentifiers tr => Sys2Proof.Machine.execQueryDeviceIdentifiers tr s
  | .getFirmwareParameters tr => Sys2Proof.Machine.execGetFirmwareParameters tr s
  | .requestUpdate tr agent => Sys2Proof.Machine.execRequestUpdate tr agent s
  | .passComponentTable tr agent comp => Sys2Proof.Machine.execPassComponentTable tr agent comp s
  | .updateComponent tr agent comp size => Sys2Proof.Machine.execUpdateComponent tr agent comp size s
  | .requestFirmwareDataResponse tr off data => Sys2Proof.Machine.execRequestFirmwareDataResponse tr off data s
  | .transferComplete tr ok => Sys2Proof.Machine.execTransferComplete tr ok s
  | .verifyComplete tr => Sys2Proof.Machine.execVerifyComplete tr s
  | .applyComplete tr ok => Sys2Proof.Machine.execApplyComplete tr ok s
  | .activateFirmware tr agent => Sys2Proof.Machine.execActivateFirmware tr agent s
  | .getStatus tr => Sys2Proof.Machine.execGetStatus tr s
  | .cancelUpdateComponent tr agent => Sys2Proof.Machine.execCancelUpdateComponent tr agent s
  | .cancelUpdate tr agent => Sys2Proof.Machine.execCancelUpdate tr agent s
  | .getNonce tr => Sys2Proof.Machine.execGetNonce tr s
  | .enrollKey tr slot digest au => Sys2Proof.Machine.execEnrollKey tr slot digest au s
  | .revokeKey tr slot au => Sys2Proof.Machine.execRevokeKey tr slot au s
  | .logRead tr seq count => Sys2Proof.Machine.execLogRead tr seq count s
  | .logClear tr au => Sys2Proof.Machine.execLogClear tr au s
  | .selftest tr mask force au => Sys2Proof.Machine.execSelftest tr mask force au s
  | .selftestBayStart b => Sys2Proof.Machine.execSelftestBayStart b s
  | .selftestBayDone b pass test => Sys2Proof.Machine.execSelftestBayDone b pass test s
  | .calibrate tr mask force au => Sys2Proof.Machine.execCalibrate tr mask force au s
  | .quarantine tr u au => Sys2Proof.Machine.execQuarantine tr u au s
  | .release tr u au => Sys2Proof.Machine.execRelease tr u au s
  | .testAccess tr enable au => Sys2Proof.Machine.execTestAccess tr enable au s
  | .ctrlRestart tr au => Sys2Proof.Machine.execCtrlRestart tr au s
  | .watchdogExpiry => Sys2Proof.Machine.execWatchdogExpiry s
  | .ctrlRestartDone queued => Sys2Proof.Machine.execCtrlRestartDone queued s
  | .repairList tr => Sys2Proof.Machine.execRepairList tr s
  | .getSfuProgram tr func => Sys2Proof.Machine.execGetSfuProgram tr func s
  | .otvedaUndefinedCommand tr code => Sys2Proof.Machine.execOtvedaUndefinedCommand tr code s
  | .sensorRefresh readings => Sys2Proof.Machine.execSensorRefresh readings s
  | .viewCompare seen => Sys2Proof.Machine.execViewCompare seen s
  | .refclkStart => Sys2Proof.Machine.execRefclkStart s
  | .configurationReady => Sys2Proof.Machine.execConfigurationReady s
  | .fabricLinkUp pt => Sys2Proof.Machine.execFabricLinkUp pt s
  | .fabricLinkDown pt => Sys2Proof.Machine.execFabricLinkDown pt s
  | .powerUpAfterTripDone => Sys2Proof.Machine.execPowerUpAfterTripDone s
  | .pf0FlrComplete => Sys2Proof.Machine.execPf0FlrComplete s
  | .bayPowerUpComplete b => Sys2Proof.Machine.execBayPowerUpComplete b s
  | .doeDiscovery idx => Sys2Proof.Machine.execDoeDiscovery idx s
  | .otherEthertypeFrame pt => Sys2Proof.Machine.execOtherEthertypeFrame pt s

end Sys2Proof.Machine
end

