-- ==== Sys2Proof/Safety.lean ====
section
/-! DEFINITION. What counts as a well-kept state, and the terms that the statements use: completing with a property, a core that may
issue, and the state after a bundle has issued. -/

namespace Sys2Proof.Machine

/-- Package memory is in its canonical form: addresses strictly rising, no zero listed. -/
abbrev State.memOk (s : State) : Prop := Memory.wf s.mem = true

/-- The power limit is one that PWR_CAP accepts (02 R60). -/
abbrev State.capOk (s : State) : Prop := 500 ≤ s.dev.capWatts ∧ s.dev.capWatts ≤ 900

end Sys2Proof.Machine

namespace Sys2Proof.Claims

open Sys2Proof.Machine

/-- The command completes: it answers a next state of which `P` holds. -/
def Gives (i : Instr) (s : State) (P : State → Prop) : Prop := ∃ t, exec i s = .next t ∧ P t

/-- A request of a function that the part heeds: the keys of the stream it comes on stand, and it comes on the stream that its TDI in RUN is
bound to (06 R175, R189, R203). -/
abbrev Heeds (s : State) (fn : Nat) (ide : Option Nat) : Prop := s.keyGone ide = false ∧ s.ideBad fn ide = false

/-- Core n, running ring k's job `j` of paddock p, would issue a bundle of one slot at once if the slot raises no fault and does not hold
(07 R209): the job runs, no bundle is being put together or waiting, END has not issued, its bay is not being stopped, the pace gate is
open (02 R50), and the program counter is inside the program (07 R215). -/
structure CanIssue (s : State) (n p k : Nat) (j : Job) : Prop where
  live   : s.liveJob n = some (p, k, j)
  alone  : (s.core n).gather = [] ∧ (s.core n).queue = []
  going  : (s.core n).ending = false ∧ (s.bay (n / 16)).stopping = none
  paced  : s.paced n p = true
  inside : (s.core n).pc < s.progLen n

/-- No core has a stream or a macro in flight. -/
def NoTraffic (s : State) : Prop := ∀ n, (s.core n).strms = [] ∧ (s.core n).mac = none

/-- A core after a bundle has issued, before the effect of its slots: the program counter moved on, or at the target of a transfer whose
delay bundles have issued (07 R213), one beat counted (07 R207), the tick of the issue kept for the pace gate (02 R50). -/
def issuedCore (tsc : Nat) (c : Core) : Core :=
  nextCore { c with gather := [], queue := [], cause := none, claimWait := 0, claimVal := none,
                    beats := (c.beats + 1) % 2 ^ 64, issued := c.issued.filter (fun t => tsc ≤ t + 63) ++ [tsc] }
where
  nextCore (c : Core) : Core :=
    match c.xfer with
    | some (k + 2, t) => { c with pc := c.pc + 1, xfer := some (k + 1, t) }
    | some (_, t) => { c with pc := t, xfer := none }
    | none => { c with pc := c.pc + 1 }

/-- A ring whose job has issued a bundle: its first fixes START_TS, and the latest END_TS (05 R151). -/
def bundleMarked (now : Nat) (r : Ring) : Ring :=
  { r with job := r.job.map (fun j => { j with started := true, startTs := if j.started then j.startTs else now, endTs := now }) }

/-- The state after core n's bundle has issued, `f` being the effect of its slots on the core: operations already in flight are one beat
further (07 R229), the job's START_TS and END_TS stand (05 R151), the paddock's beat is counted (02 R38), and nothing else has changed. -/
def issued (s : State) (n p k : Nat) (f : Core → Core) : State :=
  let t := s.tickCore n
  let now := s.dev.tsc.toNat
  { t with cores := tset t.cores n (f (issuedCore now (t.core n)))
           rings := tmod {} t.rings (p * 256 + k) (bundleMarked now)
           pdks := tmod {} t.pdks p (fun d => { d with beats := (d.beats + 1) % 2 ^ 64 }) }

/-- As `issued`, at the moment when the slots take effect and the beat is not yet counted. -/
def issuing (s : State) (n p k : Nat) (f : Core → Core) : State :=
  let t := s.tickCore n
  let now := s.dev.tsc.toNat
  let c := t.core n
  { t with cores := tset t.cores n (f { issuedCore now c with beats := c.beats, cause := c.cause })
           rings := tmod {} t.rings (p * 256 + k) (bundleMarked now) }

/-- The state after a beat in which core n's bundle of the one slot `op` is held: a bubble, counted under its cause (07 R231), with no effect
of the slot; operations in flight are one beat further. -/
def held (s : State) (n p cause : Nat) (op : SlotOp) : State :=
  let t := s.tickCore n
  { t with cores := tset t.cores n { t.core n with queue := [[op]], cause := some cause, claimWait := (t.core n).claimWait - 1,
                                                   beats := ((t.core n).beats + 1) % 2 ^ 64 }
           pdks := tmod {} t.pdks p (fun d => { d with beats := (d.beats + 1) % 2 ^ 64
                                                       stall := tmod 0 d.stall cause (fun v => (v + 1) % 2 ^ 64) }) }

/-- The scratchpad row that an operation names, from its address register as read at issue: ADR[11:0] + OFF12 (07 R222). -/
def spadRow (c : Core) (adr : AReg) (off : BitVec 12) : Nat := (c.rdA adr).toNat % 4096 + off.toNat

/-- Bank stages added at issue (09 R269, R270). -/
def useBanks (us : List BankUse) (c : Core) : Core := { c with banks := c.banks ++ us }

/-- No bank stage of `us` is taken by an earlier access of its kind (09 R270). -/
def banksFree (c : Core) (us : List BankUse) : Prop := ∀ u ∈ us, u ∉ c.banks

end Sys2Proof.Claims
end

