-- ==== Sys2Proof/Certificates/Slice0/Obligations.lean ====
section
/-! DEFINITION. The statements for the provers. Each is about every state and every operand, those that no run reaches included. -/

open Sys2Proof Sys2Proof.Machine Sys2Proof.Claims

/-- The command at the front of the queue runs on the state with the rest of the queue, first in, first out. The queue is the model's
(log 11, DESIGN CHOICE). -/
def Obligations.StepRunsTheFrontCommand : Prop :=
  ∀ (s : State) (c : Instr) (rest : List Instr), s.pending = c :: rest → step s = exec c { s with pending := rest }

/-- On an empty queue one tick passes: the timestamp counter counts if the reference clock runs and no reset holds it (02 R44), the
controller's timer counts while it has power (16 R448), bay occupancy counts the bays held, and nothing else changes. That a step on an
empty queue is a tick is the model's choice (log 11, DESIGN CHOICE). -/
def Obligations.EmptyQueueIsATick : Prop :=
  ∀ s : State, s.pending = [] → ∃ t, step s = .next t ∧
    t.dev = { s.dev with tsc := if s.dev.refclk = true ∧ s.dev.tscHold = false then s.dev.tsc + 1 else s.dev.tsc } ∧
    t.mgt = { s.mgt with timer := if s.dev.aux = true then s.mgt.timer + 1 else s.mgt.timer } ∧
    (∀ p d, tfind s.pdks p = some d → tfind t.pdks p = some { d with held := d.held + (s.baysOf p).length }) ∧
    { t with dev := s.dev, mgt := s.mgt, pdks := s.pdks } = s

/-- Reset leaves the device OFF with no power, no work and an empty memory (03 R76): nothing listed, the queue empty, the register values
that the spec gives. -/
def Obligations.ResetIsOff : Prop :=
  State.reset.dev.phase = .off ∧ State.reset.pending = [] ∧ State.reset.memOk ∧ State.reset.capOk ∧ State.reset.dev.capWatts = 900 ∧
  (∀ p, (State.reset.pdk p).st = .empty) ∧ (∀ b, (State.reset.bay b).job = none) ∧ (∀ fn, (State.reset.fnCfg fn).bme = false) ∧
  (∀ p, (State.reset.tdi p).st = .unlocked) ∧ State.reset.plat = none

/-! ### The cores (07, 09) -/

/-- R-form scalar operations: the result, of latency 1 or 3, from both registers as read at issue (07 R212). I-form scalar operations, LI
and LIS (07 R212): the immediate sign-extended; LIS replaces 16 bits and keeps the others. -/
def Obligations.ScalarOperations : Prop :=
  (
  ∀ (s : State) (n : CoreId) (p k : Nat) (j : Job), CanIssue s n p k j → ∀ rd r1 r2 : XReg,
    let x (r : XReg) : Word := ((s.tickCore n).core n).rdX r
    let a := x r1
    let b := x r2
    let res (l : Nat) (v : Word) : Res := .next (issued s n p k (·.fly l (.setX rd v)))
    exec (.add n false rd r1 r2) s = res 1 (a + b) ∧
    exec (.sub n false rd r1 r2) s = res 1 (a - b) ∧
    exec (.and n false rd r1 r2) s = res 1 (a &&& b) ∧
    exec (.or n false rd r1 r2) s = res 1 (a ||| b) ∧
    exec (.xor n false rd r1 r2) s = res 1 (a ^^^ b) ∧
    exec (.sll n false rd r1 r2) s = res 1 (a <<< (b.toNat % 64)) ∧
    exec (.srl n false rd r1 r2) s = res 1 (a >>> (b.toNat % 64)) ∧
    exec (.sra n false rd r1 r2) s = res 1 (a.sshiftRight (b.toNat % 64)) ∧
    exec (.slt n false rd r1 r2) s = res 1 (if a.toInt < b.toInt then 1 else 0) ∧
    exec (.sltu n false rd r1 r2) s = res 1 (if a.toNat < b.toNat then 1 else 0) ∧
    exec (.min n false rd r1 r2) s = res 1 (if a.toInt ≤ b.toInt then a else b) ∧
    exec (.max n false rd r1 r2) s = res 1 (if a.toInt < b.toInt then b else a) ∧
    exec (.mul n false rd r1 r2) s = res 3 (a * b)) ∧ (
  ∀ (s : State) (n : CoreId) (p k : Nat) (j : Job), CanIssue s n p k j →
    ∀ (rd r1 : XReg) (imm : BitVec 14) (big : BitVec 19) (q : Fin 4) (half : BitVec 16),
    let a := ((s.tickCore n).core n).rdX r1
    let d := ((s.tickCore n).core n).rdX rd
    let b : Word := imm.signExtend 64
    let res (v : Word) : Res := .next (issued s n p k (·.fly 1 (.setX rd v)))
    exec (.addi n false rd r1 imm) s = res (a + b) ∧
    exec (.andi n false rd r1 imm) s = res (a &&& b) ∧
    exec (.ori n false rd r1 imm) s = res (a ||| b) ∧
    exec (.xori n false rd r1 imm) s = res (a ^^^ b) ∧
    exec (.slli n false rd r1 imm) s = res (a <<< (imm.toNat % 64)) ∧
    exec (.srli n false rd r1 imm) s = res (a >>> (imm.toNat % 64)) ∧
    exec (.srai n false rd r1 imm) s = res (a.sshiftRight (imm.toNat % 64)) ∧
    exec (.slti n false rd r1 imm) s = res (if a.toInt < imm.toInt then 1 else 0) ∧
    exec (.li n false rd big) s = res (big.signExtend 64) ∧
    ∃ v : Word, exec (.lis n false rd q half) s = res v ∧
      (∀ i, v.getLsbD i = if 16 * q.val ≤ i ∧ i < 16 * q.val + 16 then half.getLsbD (i - 16 * q.val) else d.getLsbD i))

/-- Branches, JAL and JR (07 R212, R213): two delay bundles issue, then the program counter is at the target; the link is the index three
on; a JR whose target lies beyond the last bundle faults and takes no effect (07 R215). The program counter's modulus and the latency of the
link, 3, are the model's (log 60, DEDUCED). -/
def Obligations.Transfers : Prop :=
  ∀ (s : State) (n : CoreId) (p k : Nat) (j : Job), CanIssue s n p k j → (s.core n).xfer = none →
    ∀ (r1 r2 rd : XReg) (off : BitVec 14) (far : BitVec 19),
    let c := (s.tickCore n).core n
    let a := c.rdX r1
    let b := c.rdX r2
    let goTo (t : Int) (x : Core) : Core := { x with xfer := some (2, (t % 65536).toNat) }
    let branch (yes : Prop) [Decidable yes] : Res :=
      .next (issued s n p k (fun x => if yes then goTo (c.pc + off.toInt) x else x))
    exec (.beq n false r1 r2 off) s = branch (a = b) ∧
    exec (.bne n false r1 r2 off) s = branch (a ≠ b) ∧
    exec (.blt n false r1 r2 off) s = branch (a.toInt < b.toInt) ∧
    exec (.bge n false r1 r2 off) s = branch (b.toInt ≤ a.toInt) ∧
    exec (.bltu n false r1 r2 off) s = branch (a.toNat < b.toNat) ∧
    exec (.bgeu n false r1 r2 off) s = branch (b.toNat ≤ a.toNat) ∧
    exec (.jal n false rd far) s =
      .next (issued s n p k (fun x => (goTo (c.pc + far.toInt) x).fly 3 (.setX rd (BitVec.ofNat 64 (c.pc + 3))))) ∧
    (a.toNat % 65536 < s.progLen n → exec (.jr n false rd r1) s =
      .next (issued s n p k (fun x => (goTo (a.toNat % 65536 : Nat) x).fly 3 (.setX rd (BitVec.ofNat 64 (c.pc + 3)))))) ∧
    (s.progLen n ≤ a.toNat % 65536 → exec (.jr n false rd r1) s = .next ((s.tickCore n).coreFault n 0x13 c.pc))

/-- NOP, AMOV, AADDI, XMOVA, GETSV, RAND and END (07 R207, R212, R214). RAND takes one value from the DRBG, and is held
as operand wait while the DRBG does not serve it (06 R178). -/
def Obligations.AddressSystemAndEndOperations : Prop :=
  ∀ (s : State) (n : CoreId) (p k : Nat) (j : Job), CanIssue s n p k j →
    ∀ (ad asrc : AReg) (rd r1 : XReg) (imm : BitVec 14) (i : BitVec 14),
    let c := (s.tickCore n).core n
    let flags : Word := BitVec.ofNat 64 ((if c.semSat then 1 else 0) + (if c.intSat then 2 else 0))
    let out (v : Word) : Res := .next (issued s n p k (·.fly 1 (.setX rd v)))
    exec (.nop n false) s = .next (issued s n p k id) ∧
    exec (.amov n false ad r1) s = .next (issued s n p k (·.fly 1 (.setA ad ((c.rdX r1).setWidth 40)))) ∧
    exec (.aaddi n false ad asrc imm) s = .next (issued s n p k (·.fly 1 (.setA ad (c.rdA asrc + imm.signExtend 40)))) ∧
    exec (.xmova n false rd asrc) s = out ((c.rdA asrc).setWidth 64) ∧
    exec (.getsv n false rd 0) s = out (BitVec.ofNat 64 (n.val % 16)) ∧
    exec (.getsv n false rd 1) s = out (BitVec.ofNat 64 (s.bay (n.val / 16)).lbay) ∧
    exec (.getsv n false rd 2) s = out (BitVec.ofNat 64 j.bays) ∧
    exec (.getsv n false rd 3) s = out (BitVec.ofNat 64 n.val) ∧
    exec (.getsv n false rd 4) s = out s.dev.tsc ∧
    exec (.getsv n false rd 5) s = out (BitVec.ofNat 64 c.beats) ∧
    exec (.getsv n false rd 6) s = out (BitVec.ofNat 64 (p + 1)) ∧
    exec (.getsv n false rd 7) s = out (BitVec.ofNat 64 k) ∧
    exec (.getsv n false rd 8) s = out flags ∧
    exec (.getsv n false rd 9) s =
      .next (issued s n p k (fun x => ({ x with semSat := false, intSat := false } : Core).fly 1 (.setX rd flags))) ∧
    (10 ≤ i.toNat → exec (.getsv n false rd i) s = .refused .undefinedEncoding) ∧
    (s.drbgReady = true → exec (.rand n false rd) s = .next
      { issued s n p k (·.fly 1 (.setX rd (Config.drbg s.sec.rng.draws))) with
        sec := { s.sec with rng := { s.sec.rng with draws := s.sec.rng.draws + 1, gens := s.sec.rng.gens + 1 } } }) ∧
    (s.drbgReady = false → exec (.rand n false rd) s = .next (held s n p 0 (.rand rd))) ∧
    ((s.core n).xfer = none → Gives (.jobStop n false) s (fun t => (t.core n).ending = true ∧ t.mem = s.mem ∧ t.out = s.out ∧
      (c.flight ≠ [] ∨ c.mac ≠ none → t = issued s n p k (fun x => { x with ending := true })) ∧
      (c.flight = [] → c.mac = none → c.strms = [] → c.ended = false → s.semFly = [] → s.hqFly = [] →
        t = issued s n p k (fun x => { x with ending := true, ended := true, running := false }))))

/-- Row operations lane by lane, with the latency of each: the format's lanes of the sources (07 R217, R218, R220); INT_SAT is set with the
result where an INT8 lane saturated. Integer lanes: INT32 wraps, INT8 saturates and says so, VFMA in INT8 saturates the exact a × b + c
once, VSEL takes the first source where the third is not all zero, VCMPLT gives all ones or zero (07 R218, R220). -/
def Obligations.RowLaneOperations : Prop :=
  (
  ∀ (s : State) (n : CoreId) (p k : Nat) (j : Job), CanIssue s n p k j →
    ∀ (wd w1 w2 w3 : WReg) (fmt : Fin 16),
    let c := (s.tickCore n).core n
    let put (l : Nat) (r : Row × Bool) : Res := .next (issued s n p k (fun x =>
      if r.2 then (x.fly l (.setW wd r.1)).fly l .satFlag else x.fly l (.setW wd r.1)))
    let row (op : LaneOp) (third : WReg) : Row × Bool := rowOp op fmt (c.rdW w1) (c.rdW w2) (c.rdW third)
    exec (.vnop n false) s = .next (issued s n p k id) ∧
    exec (.vand n false wd w1 w2) s = put 1 (c.rdW w1 &&& c.rdW w2, false) ∧
    exec (.vor n false wd w1 w2) s = put 1 (c.rdW w1 ||| c.rdW w2, false) ∧
    exec (.vxor n false wd w1 w2) s = put 1 (c.rdW w1 ^^^ c.rdW w2, false) ∧
    (fmt.val ≤ 3 →
      exec (.vadd n false wd w1 w2 fmt) s = put 2 (row .add 0) ∧
      exec (.vsub n false wd w1 w2 fmt) s = put 2 (row .sub 0) ∧
      exec (.vmul n false wd w1 w2 fmt) s = put 3 (row .mul 0) ∧
      exec (.vfma n false wd w1 w2 w3 fmt) s = put 4 (row .fma w3) ∧
      exec (.vmax n false wd w1 w2 fmt) s = put 2 (row .max 0) ∧
      exec (.vmin n false wd w1 w2 fmt) s = put 2 (row .min 0) ∧
      exec (.vcmplt n false wd w1 w2 fmt) s = put 2 (row .cmplt 0)) ∧
    (fmt.val ≤ 5 → exec (.vsel n false wd w1 w2 w3 fmt) s = put 1 (row .sel w3)) ∧
    (3 < fmt.val → exec (.vadd n false wd w1 w2 fmt) s = .refused .undefinedEncoding) ∧
    (5 < fmt.val → exec (.vsel n false wd w1 w2 w3 fmt) s = .refused .undefinedEncoding)) ∧ (
  ∀ a b c : Nat, a < 256 → b < 256 → c < 256 →
    let i (v : Nat) : Int := (BitVec.ofNat 8 v).toInt
    let sat (v : Int) : Nat × Bool := ((max (-128) (min 127 v) % 256).toNat, decide (v < -128 ∨ 127 < v))
    laneOp .add 3 a b c = sat (i a + i b) ∧
    laneOp .sub 3 a b c = sat (i a - i b) ∧
    laneOp .mul 3 a b c = sat (i a * i b) ∧
    laneOp .fma 3 a b c = sat (i a * i b + i c) ∧
    laneOp .max 3 a b c = sat (max (i a) (i b)) ∧
    laneOp .min 3 a b c = sat (min (i a) (i b)) ∧
    laneOp .cmplt 3 a b c = (if i a < i b then 255 else 0, false) ∧
    laneOp .sel 3 a b c = (if c = 0 then b else a, false) ∧
    laneOp .add 2 a b c = (a + b, false) ∧
    laneOp .mul 2 a b c = (a * b, false))

/-- VCVT, VBCAST, VRED and VSFU (07 R218-R220, 11 R317): sources and part of a conversion, a broadcast of the low lane-width bits, a
reduction to a scalar register, a special function of 128 FP32 lanes. A VCVT that rounds stochastically takes its bits from the DRBG, and is
held while it serves none (06 R178); a VSFU is held as special-function wait behind another selector's and behind a drain's use of the unit
(07 R231, 08 R264). -/
def Obligations.RowConversionsAndFunctions : Prop :=
  ∀ (s : State) (n : CoreId) (p k : Nat) (j : Job), CanIssue s n p k j →
    ∀ (wd w1 : WReg) (xs : XReg) (fmt tf : Fin 16) (part : Fin 4) (sel : Fin 64) (op : RedOp),
    let c := (s.tickCore n).core n
    let lanesOf (f : Fin 16) : Nat := if f.val = 0 ∨ f.val = 2 then 128 else if f.val = 1 then 256 else 512
    let r := cvt fmt tf part ((List.range (max 1 (lanesOf tf / lanesOf fmt))).map (fun i => c.rdW (w1.val + i))) none
    (fmt.val ≤ 5 → tf.val ≤ 5 →
      (if lanesOf fmt < lanesOf tf then w1.val % (lanesOf tf / lanesOf fmt) = 0 ∧ part.val = 0
       else if lanesOf tf < lanesOf fmt then part.val < lanesOf fmt / lanesOf tf else part.val = 0) →
      exec (.vcvt n false wd w1 fmt tf part false) s = .next (issued s n p k (fun x =>
        if r.2 then (x.fly 2 (.setW wd r.1)).fly 2 .satFlag else x.fly 2 (.setW wd r.1)))) ∧
    (fmt.val ≤ 5 → exec (.vbcast n false wd xs fmt) s = .next (issued s n p k (·.fly 2 (.setW wd
      (ofLanes (4096 / lanesOf fmt) (List.replicate (lanesOf fmt) ((c.rdX xs).toNat % 2 ^ (4096 / lanesOf fmt)))))))) ∧
    (fmt.val ≤ 3 → exec (.vred n false xs w1 fmt op) s = .next (issued s n p k (·.fly 6 (.setX xs (reduce op fmt (c.rdW w1)))))) ∧
    (fmt.val ≤ 5 → (tf.val = 1 ∨ tf.val = 4 ∨ tf.val = 5) → lanesOf fmt < lanesOf tf → w1.val % (lanesOf tf / lanesOf fmt) = 0 →
      part.val = 0 →
      let d := s.draws (lanesOf tf / 4)
      let q := cvt fmt tf 0 ((List.range (lanesOf tf / lanesOf fmt)).map (fun i => c.rdW (w1.val + i))) (some d.1)
      (s.drbgReady = true → exec (.vcvt n false wd w1 fmt tf part true) s = .next { issued s n p k (fun x =>
        if q.2 then (x.fly 2 (.setW wd q.1)).fly 2 .satFlag else x.fly 2 (.setW wd q.1)) with sec := d.2.sec }) ∧
      (s.drbgReady = false → exec (.vcvt n false wd w1 fmt tf part true) s = .next (held s n p 0 (.vcvt wd w1 fmt tf part true)))) ∧
    (sel.val ≤ 1 → (∃ f ∈ c.flight, f.act = .drainUse ∨ ∃ q, f.act = .sfuDone q ∧ q ≠ sel.val) →
      exec (.vsfu n false wd w1 0 sel) s = .next (held s n p 5 (.vsfu wd w1 0 sel))) ∧
    (c.mac = none → (∀ f ∈ c.flight, f.act ≠ .drainUse ∧ ∀ q, f.act = .sfuDone q → q = sel.val) →
      (sel.val ≤ 1 → exec (.vsfu n false wd w1 0 sel) s = .next (issued s n p k (fun x =>
        (x.fly 10 (.setW wd (sfRow (s.ax64 p) (if sel.val = 0 then .exp2 else .log2) (c.rdW w1)))).fly 10 (.sfuDone sel)))) ∧
      (∀ pl e img, 2 ≤ sel.val → sel.val ≤ 33 → s.plat = some pl → pl.sfu.find? (fun e => e.slot = sel.val - 2) = some e →
        (s.pdk p).img = some img → (∃ q ∈ img.sfuReq, q.1 = sel.val - 2) →
        exec (.vsfu n false wd w1 0 sel) s = .next (issued s n p k (fun x =>
          (x.fly (10 + 2 * e.steps.length) (.setW wd (sfRow (s.ax64 p) (.prog e.steps) (c.rdW w1)))).fly
            (10 + 2 * e.steps.length) (.sfuDone sel))))) ∧
    (fmt.val ≠ 0 ∨ 33 < sel.val → exec (.vsfu n false wd w1 fmt sel) s = .refused .undefinedEncoding)

/-- LDR, STR, LDA and STA (07 R222, R223; 09 R269, R270): the row, its range, and the bank conflict that faults. MNOP has no effect. -/
def Obligations.RowLoadsAndStores : Prop :=
  ∀ (s : State) (n : CoreId) (p k : Nat) (j : Job), CanIssue s n p k j →
    ∀ (w : WReg) (adr : AReg) (off : BitVec 12),
    let c := (s.tickCore n).core n
    let row := spadRow c adr off
    let acc := (c.rdA adr).toNat % 512 + off.toNat
    let rd : BankUse := { left := 3, bank := row % 8, read := true }
    let wr : BankUse := { left := 3, bank := row % 8, read := false }
    let faults (e : Nat) : Res := .next ((s.tickCore n).coreFault n e c.pc)
    exec (.mnop n false) s = .next (issued s n p k id) ∧
    (row < 4096 → rd ∉ c.banks →
      exec (.ldr n false w adr off) s = .next (issued s n p k (fun x => (useBanks [rd] x).fly 3 (.readSpad w row)))) ∧
    (row < 4096 → wr ∉ c.banks →
      exec (.str n false w adr off) s = .next (issued s n p k (fun x => (useBanks [wr] x).fly 3 (.writeSpad row (c.rdW w))))) ∧
    (row < 4096 → rd ∈ c.banks → exec (.ldr n false w adr off) s = faults 0x14) ∧
    (row < 4096 → wr ∈ c.banks → exec (.str n false w adr off) s = faults 0x14) ∧
    (4096 ≤ row → exec (.ldr n false w adr off) s = faults 0x13 ∧ exec (.str n false w adr off) s = faults 0x13) ∧
    (acc < 512 →
      exec (.lda n false w adr off) s = .next (issued s n p k (·.fly 4 (.setW w (c.rdAcc acc)))) ∧
      exec (.sta n false w adr off) s = .next (issued s n p k (·.fly 4 (.setAcc acc (c.rdW w))))) ∧
    (512 ≤ acc → exec (.lda n false w adr off) s = faults 0x13 ∧ exec (.sta n false w adr off) s = faults 0x13)

/-- FILL and COPY (07 R222-R224; 09 R272, R273): one row a beat, the walk of a COPY upwards where the destination starts at or below the
source and downwards otherwise; a count of zero does nothing; one out of range or in conflict
with an earlier access writes no row; a second one holds. -/
def Obligations.FillAndCopy : Prop :=
  ∀ (s : State) (n : CoreId) (p k : Nat) (j : Job), CanIssue s n p k j →
    ∀ (r : XReg) (adr : AReg) (off cnt : BitVec 12),
    let c := (s.tickCore n).core n
    let row := spadRow c adr off
    let dst := (c.rdX r).toNat % 4096
    let m := cnt.toNat
    let v : Row := ofLanes 32 (List.replicate 128 ((c.rdX r).toNat % 2 ^ 32))
    let fillUse : List BankUse := (List.range m).map (fun i => { left := 3 + i, bank := (row + i) % 8, read := false })
    let at_ (i : Nat) : Nat := if dst ≤ row then i else m - 1 - i
    let copyUse : List BankUse := (List.range m).flatMap (fun i =>
      [{ left := 3 + i, bank := (row + at_ i) % 8, read := true }, { left := 9 + i, bank := (dst + at_ i) % 8, read := false }])
    let free : Prop := ∀ f ∈ c.flight, f.act ≠ .fillDone
    let faults (i : Instr) (e : Nat) : Prop := exec i s = .next ((s.tickCore n).coreFault n e c.pc)
    (cnt = 0 → exec (.fill n false r adr off cnt) s = .next (issued s n p k id) ∧
      exec (.copy n false r adr off cnt) s = .next (issued s n p k id)) ∧
    (cnt ≠ 0 → free → row + m ≤ 4096 → banksFree c fillUse → exec (.fill n false r adr off cnt) s = .next (issued s n p k (fun x =>
      { useBanks fillUse x with flight := x.flight ++ (List.range m).map (fun i => { left := 3 + i, act := .writeSpad (row + i) v })
                                  ++ [{ left := 6 + m - 1, act := .fillDone }] }))) ∧
    (cnt ≠ 0 → free → row + m ≤ 4096 → dst + m ≤ 4096 → banksFree c copyUse →
      exec (.copy n false r adr off cnt) s = .next (issued s n p k (fun x =>
      { useBanks copyUse x with flight := x.flight ++ (List.range m).map (fun i =>
                                    { left := 3 + i, act := .readCopy (dst + at_ i) (row + at_ i) })
                                  ++ [{ left := 12 + m - 1, act := .fillDone }] }))) ∧
    (cnt ≠ 0 → free → 4096 ≤ row → faults (.fill n false r adr off cnt) 0x13 ∧ faults (.copy n false r adr off cnt) 0x13) ∧
    (cnt ≠ 0 → free → row < 4096 → 4096 < row + m → faults (.fill n false r adr off cnt) 0x12 ∧
      faults (.copy n false r adr off cnt) 0x12) ∧
    (cnt ≠ 0 → free → row + m ≤ 4096 → 4096 < dst + m → faults (.copy n false r adr off cnt) 0x12) ∧
    (cnt ≠ 0 → free → row + m ≤ 4096 → ¬banksFree c fillUse → faults (.fill n false r adr off cnt) 0x14) ∧
    (cnt ≠ 0 → free → row + m ≤ 4096 → dst + m ≤ 4096 → ¬banksFree c copyUse → faults (.copy n false r adr off cnt) 0x14) ∧
    (cnt ≠ 0 → ¬free → exec (.fill n false r adr off cnt) s = .next (held s n p 0 (.fill r adr off cnt)) ∧
      exec (.copy n false r adr off cnt) s = .next (held s n p 0 (.copy r adr off cnt)))

/-- SEMSIG and SEMWAIT (07 R222, R224, R225; 10 R311): to the own core in one beat, to another core of the job as a signal under way;
outside the job's bays ACCESS_DENIED; a SEMWAIT takes its count off, or holds as semaphore wait. Signals and handles under way to other
cores land, oldest first for a sender (10 R311, R313); a counter stops at 65,535 and sets SEM_SAT (07 R225). With none under way nothing
changes. -/
def Obligations.SemaphoresAndLandings : Prop :=
  (
  ∀ (s : State) (n : CoreId) (p k : Nat) (j : Job), CanIssue s n p k j →
    ∀ (pair : Fin 64) (ctr : Fin 2) (cnt : BitVec 12) (r : XReg) (b : Nat),
    let c := (s.tickCore n).core n
    let key := pair.val + 64 * ctr.val
    let lbay := (c.rdX r).toNat / 16 % 16
    let pos := (c.rdX r).toNat % 16
    (cnt = 0 → ∀ remote, exec (.semsig n false pair ctr cnt remote r) s = .next (issued s n p k id)) ∧
    (cnt ≠ 0 → exec (.semsig n false pair ctr cnt false r) s = .next (issued s n p k (·.fly 1 (.semLocal key cnt.toNat)))) ∧
    (cnt ≠ 0 → lbay < j.bays → j.lays[lbay]? = some b → exec (.semsig n false pair ctr cnt true r) s =
      .next { issued s n p k id with semFly := s.semFly ++ [{ src := n, dst := 16 * b + pos, ctr := key, cnt := cnt.toNat }] }) ∧
    (cnt ≠ 0 → j.bays ≤ lbay →
      exec (.semsig n false pair ctr cnt true r) s = .next ((s.tickCore n).coreFault n 0x13 c.pc)) ∧
    (cnt.toNat ≤ tget 0 c.sem key → exec (.semwait n false pair ctr cnt) s =
      .next (issued s n p k (fun x => { x with sem := tset x.sem key (tget 0 c.sem key - cnt.toNat) }))) ∧
    (tget 0 c.sem key < cnt.toNat → exec (.semwait n false pair ctr cnt) s = .next (held s n p 2 (.semwait pair ctr cnt)))) ∧ (
  ∀ (s : State) (n : CoreId),
    (∀ f, s.semFly.find? (fun f => f.src = n.val) = some f →
      let v := tget 0 (s.core f.dst).sem f.ctr + f.cnt
      Gives (.remoteSemsigArrival n) s (fun t => t.semFly = s.semFly.erase f ∧
        (t.core f.dst).sem = tset (s.core f.dst).sem f.ctr (min v 65535) ∧
        (t.core f.dst).semSat = ((s.core f.dst).semSat || decide (65535 < v)) ∧
        (∀ m, m ≠ f.dst → m ≠ n.val → t.core m = s.core m) ∧ t.bays = s.bays ∧ t.mem = s.mem ∧ t.out = s.out)) ∧
    (∀ f, s.hqFly.find? (fun f => f.src = n.val) = some f →
      Gives (.remoteHqpushArrival n) s (fun t => t.hqFly = s.hqFly.erase f ∧
        tget [] (t.bay f.bay).hq f.queue = tget [] (s.bay f.bay).hq f.queue ++ [f.handle] ∧
        (∀ q, q ≠ f.queue → tget [] (t.bay f.bay).hq q = tget [] (s.bay f.bay).hq q) ∧
        (∀ b, b ≠ f.bay → t.bay b = s.bay b) ∧ (∀ m, m ≠ n.val → t.core m = s.core m) ∧ t.mem = s.mem ∧ t.out = s.out)) ∧
    (s.semFly.find? (fun f => f.src = n.val) = none → exec (.remoteSemsigArrival n) s = .next s) ∧
    (s.hqFly.find? (fun f => f.src = n.val) = none → exec (.remoteHqpushArrival n) s = .next s))

/-- HQPUSH and HQPOP (07 R222, 10 R312, R313): to the own bay, or to the bay and queue that a binding gives, held as drain back-pressure
while that queue holds 32 handles with those under way; a pop takes the oldest handle, held while the queue is empty. Claims (08 R258): the
request acts on the counter at once; its answer reaches the core 8 beats later, claim-counter wait till then; an arm answers with the
previous value. -/
def Obligations.HandleQueuesAndClaims : Prop :=
  (
  ∀ (s : State) (n : CoreId) (p k : Nat) (j : Job), CanIssue s n p k j →
    ∀ (q : Fin 128) (r : XReg) (b d : Nat) (h : BitVec 16) (rest : List (BitVec 16)),
    let t := s.tickCore n
    let c := t.core n
    (t.hqDest n q j = some (n.val / 16, d) → t.hqLoad (n.val / 16) d < 32 →
      exec (.hqpush n false q r) s = .next (issued s n p k (·.fly 2 (.hqLand d ((c.rdX r).setWidth 16))))) ∧
    (t.hqDest n q j = some (b, d) → b ≠ n.val / 16 → t.hqLoad b d < 32 → exec (.hqpush n false q r) s =
      .next { issued s n p k id with
        hqFly := s.hqFly ++ [{ src := n, bay := b, queue := d, handle := (c.rdX r).setWidth 16 }] }) ∧
    (t.hqDest n q j = some (b, d) → 32 ≤ t.hqLoad b d → exec (.hqpush n false q r) s = .next (held s n p 4 (.hqpush q r))) ∧
    (tget [] (t.bay (n.val / 16)).hq q = h :: rest → exec (.hqpop n false q r) s =
      .next { issued s n p k (·.fly 1 (.setX r (h.setWidth 64))) with
        bays := tset t.bays (n.val / 16) { t.bay (n.val / 16) with hq := tset (t.bay (n.val / 16)).hq q rest } }) ∧
    (tget [] (t.bay (n.val / 16)).hq q = [] → exec (.hqpop n false q r) s = .next (held s n p 3 (.hqpop q r)))) ∧ (
  ∀ (s : State) (n : CoreId) (p k : Nat) (j : Job), CanIssue s n p k j →
    ∀ (q : Fin 64) (cnt : BitVec 12) (r : XReg),
    (s.core n).claimVal = none →
    let b := n.val / 16
    let x := tget {} (s.bay b).claims q
    let c := (s.tickCore n).core n
    let got : Word := if cnt = 0 ∨ x.value < x.limit then BitVec.ofNat 64 x.value else BitVec.allOnes 64
    let after : Claim := if x.value < x.limit then { x with value := min (x.value + cnt.toNat) (2 ^ 32 - 1) } else x
    Gives (.claimTake n false q cnt r) s (fun t =>
      (t.core n).claimVal = some got ∧ (t.core n).claimWait = 7 ∧ (t.core n).cause = some 8 ∧
      (t.core n).queue = [[.claimTake q cnt r]] ∧ (t.core n).x = c.x ∧ (t.core n).pc = c.pc ∧
      (cnt ≠ 0 → tget {} (t.bay b).claims q = after) ∧ (cnt = 0 → tget {} (t.bay b).claims q = x) ∧ t.mem = s.mem ∧ t.out = s.out) ∧
    Gives (.claimArm n false q r) s (fun t =>
      (t.core n).claimVal = some (BitVec.ofNat 64 x.value) ∧ (t.core n).claimWait = 7 ∧ (t.core n).cause = some 8 ∧
      (t.core n).queue = [[.claimArm q r]] ∧ (t.core n).x = c.x ∧ (t.core n).pc = c.pc ∧
      tget {} (t.bay b).claims q = { value := 0, limit := (c.rdX r).toNat % 2 ^ 32 } ∧ t.mem = s.mem ∧ t.out = s.out))

/-- A held claim takes its answer when its beats are up, and another beat of waiting otherwise (08 R258, 07 R231): BUBBLE_BEAT. A core with
no bundle waiting, in a program that goes on, is left as it is; one that issued END waits as operand wait (07 R214). -/
def Obligations.BubbleBeats : Prop :=
  ∀ (s : State) (n : CoreId) (p k : Nat) (j : Job), s.liveJob n = some (p, k, j) → s.paced n p = true →
    (s.core n).pc < s.progLen n → ∀ (q : Fin 64) (cnt : BitVec 12) (r : XReg) (v : Word),
    let c := (s.tickCore n).core n
    ((s.bay (n.val / 16)).stopping = none → (s.core n).ending = false → (s.core n).xfer = none →
      (s.core n).queue = [[.claimTake q cnt r]] → (s.core n).claimVal = some v →
      ((s.core n).claimWait = 0 → Gives (.bubbleBeat n) s (fun t =>
        (t.core n).flight = c.flight ++ [{ left := 1, act := .setX r v }] ∧ (t.core n).queue = [] ∧ (t.core n).claimVal = none ∧
        (t.core n).pc = c.pc + 1 ∧ (t.core n).beats = (c.beats + 1) % 2 ^ 64 ∧ t.mem = s.mem)) ∧
      ((s.core n).claimWait ≠ 0 → Gives (.bubbleBeat n) s (fun t =>
        (t.core n).claimWait = (s.core n).claimWait - 1 ∧ (t.core n).queue = (s.core n).queue ∧ (t.core n).claimVal = some v ∧
        (t.core n).cause = some 8 ∧ (t.core n).flight = c.flight ∧ (t.core n).beats = (c.beats + 1) % 2 ^ 64 ∧ t.mem = s.mem))) ∧
    ((s.bay (n.val / 16)).stopping = none → (s.core n).ending = false → (s.core n).queue = [] →
      exec (.bubbleBeat n) s = .next s) ∧
    ((s.bay (n.val / 16)).stopping = none → (s.core n).ending = true → (s.core n).ended = false → c.flight ≠ [] →
      Gives (.bubbleBeat n) s (fun t => (t.core n).cause = some 0 ∧ (t.core n).flight = c.flight ∧ (t.core n).ended = false ∧
        (t.core n).pc = c.pc ∧ (t.core n).beats = (c.beats + 1) % 2 ^ 64 ∧ t.mem = s.mem)) ∧
    ((s.bay (n.val / 16)).stopping ≠ none → Gives (.bubbleBeat n) s (fun t =>
      (t.core n).cause = some 9 ∧ (t.core n).flight = c.flight ∧ (t.core n).pc = c.pc ∧
      (t.core n).beats = (c.beats + 1) % 2 ^ 64 ∧ t.mem = s.mem))

/-- Hoops (09 R275, R276, R478): what each operation moves at issue and what follows when its row access completes; the checks come before
the holds. -/
def Obligations.HoopOperations : Prop :=
  ∀ (s : State) (n : CoreId) (p k : Nat) (j : Job), CanIssue s n p k j →
    ∀ (h : Fin 16) (w : WReg) (r : XReg) (adr : AReg) (cnt : BitVec 12),
    let c := (s.tickCore n).core n
    let x := tget {} c.hoops h
    let m := cnt.toNat
    let base := (c.rdA adr).toNat
    let put (y : Hoop) (z : Core) : Core := { z with hoops := tset z.hoops h y }
    let use (row : Nat) (rd : Bool) : BankUse := { left := 3, bank := row % 8, read := rd }
    let peeked := x.base + (x.head + m) % x.size
    let moving : Prop := ∃ f ∈ c.flight, f.act = .hoopA h ∨ ∃ q, f.act = .hoopO h q
    let faults (e : Nat) : Res := .next ((s.tickCore n).coreFault n e c.pc)
    (x.size ≠ 0 →
      (x.o ≠ x.size → use (x.base + x.tail) false ∉ c.banks → exec (.hoopPush n false h w) s = .next (issued s n p k (fun z =>
        ((put { x with tail := (x.tail + 1) % x.size, o := x.o + 1 } (useBanks [use (x.base + x.tail) false] z)).fly 3
          (.writeSpad (x.base + x.tail) (c.rdW w))).fly 7 (.hoopA h)))) ∧
      (x.o = x.size → exec (.hoopPush n false h w) s = .next (held s n p 4 (.hoopPush h w))) ∧
      (x.a ≠ 0 → use (x.base + x.head) true ∉ c.banks → exec (.hoopPop n false h w) s = .next (issued s n p k (fun z =>
        ((put { x with head := (x.head + 1) % x.size, a := x.a - 1 } (useBanks [use (x.base + x.head) true] z)).fly 3
          (.readSpad w (x.base + x.head))).fly 7 (.hoopO h 1)))) ∧
      (x.a = 0 → exec (.hoopPop n false h w) s = .next (held s n p 0 (.hoopPop h w))) ∧
      (m < x.size → m < x.a → use peeked true ∉ c.banks → exec (.hoopPeek n false h w cnt) s =
        .next (issued s n p k (fun z => (useBanks [use peeked true] z).fly 3 (.readSpad w peeked)))) ∧
      (m < x.size → x.a ≤ m → exec (.hoopPeek n false h w cnt) s = .next (held s n p 0 (.hoopPeek h w cnt))) ∧
      (x.size ≤ m → exec (.hoopPeek n false h w cnt) s = faults 0x12) ∧
      (m ≠ 0 → m ≤ x.size → m ≤ x.a → exec (.hoopDrop n false h cnt) s = .next (issued s n p k (fun z =>
        (put { x with head := (x.head + m) % x.size, a := x.a - m } z).fly 2 (.hoopO h m)))) ∧
      (m = 0 → exec (.hoopDrop n false h cnt) s = .next (issued s n p k id)) ∧
      (m ≤ x.size → x.a < m → exec (.hoopDrop n false h cnt) s = .next (held s n p 0 (.hoopDrop h cnt))) ∧
      (x.size < m → exec (.hoopDrop n false h cnt) s = faults 0x12) ∧
      exec (.hoopCount n false h r) s = .next (issued s n p k (·.fly 1 (.setX r (BitVec.ofNat 64 x.a))))) ∧
    (x.size = 0 → exec (.hoopPush n false h w) s = faults 0x13 ∧ exec (.hoopPop n false h w) s = faults 0x13 ∧
      exec (.hoopPeek n false h w cnt) s = faults 0x13 ∧ exec (.hoopDrop n false h cnt) s = faults 0x13 ∧
      exec (.hoopCount n false h r) s = faults 0x13) ∧
    (base < 4096 → (m = 0 ∨ base + m ≤ 4096) → ¬moving →
      exec (.hoopConfig n false h adr cnt) s = .next (issued s n p k (put { base := base, size := m }))) ∧
    (base < 4096 → (m = 0 ∨ base + m ≤ 4096) → moving →
      exec (.hoopConfig n false h adr cnt) s = .next (held s n p 0 (.hoopConfig h adr cnt))) ∧
    (4096 ≤ base → exec (.hoopConfig n false h adr cnt) s = faults 0x13) ∧
    (base < 4096 → m ≠ 0 → 4096 < base + m → exec (.hoopConfig n false h adr cnt) s = faults 0x12)

/-- Arrival counters and MWAIT (09 R281, 07 R228): a threshold reached lets the bundle issue, and with subtraction takes it off; below it
the bundle holds as semaphore wait; MWAIT writes the most recent macro's result once, OK_ZERO where there is none, and holds while a macro
is in flight. -/
def Obligations.ArrivalsAndMacroResults : Prop :=
  ∀ (s : State) (n : CoreId) (p k : Nat) (j : Job), CanIssue s n p k j → ∀ (q : Fin 128) (r : XReg),
    let c := (s.tickCore n).core n
    let v := tget 0 c.arr q
    let want := (c.rdX r).toNat % 2 ^ 32
    (want ≤ v → exec (.arrwait n false q r) s = .next (issued s n p k id) ∧
      exec (.arrwaitSub n false q r) s = .next (issued s n p k (fun x => { x with arr := tset x.arr q (v - want) }))) ∧
    (v < want → exec (.arrwait n false q r) s = .next (held s n p 2 (.arrwait q r false)) ∧
      exec (.arrwaitSub n false q r) s = .next (held s n p 2 (.arrwait q r true))) ∧
    exec (.arrivalReset n false q) s = .next (issued s n p k (fun x => { x with arr := tset x.arr q 0 })) ∧
    (c.mac = none → exec (.mwait n false r) s = .next (issued s n p k (fun x => ({ x with macRes := none } : Core).fly 1
      (.setX r (match c.macRes with
        | some (status, cls, result) => BitVec.ofNat 64 (status + 2 ^ 8 * cls + 2 ^ 16 * result)
        | none => 0x01))))) ∧
    (c.mac ≠ none → exec (.mwait n false r) s = .next (held s n p 0 (.mwait r)))

/-- Streams at issue (10 R292-R296, R300, R308): STRMGO makes its checks and starts a Pricking with its registers captured; while requests of
the old stream are still to complete it holds, the old stream's requests not issued dropped; STRMSWAP releases a load's half, whose bytes
count toward its consumption, or hands a store's half over; STRMWAIT gives the bytes of the current half, and both hold while the half is
not there. -/
def Obligations.StreamInstructions : Prop :=
  ∀ (s : State) (n : CoreId) (p k : Nat) (j : Job), CanIssue s n p k j →
    ∀ (st : Fin 16) (prick : BitVec 12) (adr : AReg) (r : XReg),
    let t0 := s.tickCore n
    let c := t0.core n
    let m := tget {} c.strms st
    let base := c.rdA adr
    let now := s.dev.tsc.toNat
    let bytes : Nat := ((m.tiles.getD m.cur []).map (·.2)).sum
    let put (y : Strm) (z : Core) : Core := { z with strms := tset z.strms st y }
    (∀ img pr, (s.pdk p).img = some img → img.pricks[prick.toNat]? = some pr → prick.toNat ≤ 1023 →
      (t0.strmgoFault n st prick.toNat c base = none → ((t0.core (t0.leadOf n st)).strm st).settled = true →
        Gives (.strmgo n false st prick adr) s (fun t =>
          let y := (t.core n).strm st
          y.live = true ∧ y.prick = prick.toNat ∧ y.base = base.toNat ∧ y.dir = pr.dir ∧ y.deadline = pr.deadline ∧
          y.arrival = pr.arrival ∧ y.bufRow = pr.bufRow ∧ y.halfRows = pr.halfRows ∧ y.group = pr.group ∧ y.target = pr.target ∧
          y.bundle = c.pc ∧ y.cur = 0 ∧ y.landed = [] ∧ y.fly = [] ∧ y.send = [] ∧
          y.tiles = (State.prickTiles c pr base).map (fun l => l.map (fun e =>
            (if pr.dir = 3 then e.1.toNat else (s.pkgAddr p e.1).toNat, e.2))) ∧
          (pr.dir ≠ 2 → y.started = true ∧ y.lead = true ∧ y.todo = if pr.dir = 0 then y.piecesFrom 0 else []) ∧
          (∀ q, q ≠ st.val → pr.dir ≠ 2 → (t.core n).strm q = c.strm q) ∧ (t.core n).flight = c.flight ∧ t.mem = s.mem ∧ t.out = s.out)) ∧
      (∀ e, t0.strmgoFault n st prick.toNat c base = some e →
        exec (.strmgo n false st prick adr) s = .next (t0.coreFault n e c.pc)) ∧
      (t0.strmgoFault n st prick.toNat c base = none → m.live = true → m.loads = false → m.settled = false →
        Gives (.strmgo n false st prick adr) s (fun t => (t.core n).cause = some 0 ∧ (t.core n).queue = [[.strmgo st prick adr]] ∧
          (t.core n).pc = c.pc ∧ ((t.core n).strm st).fly = m.fly ∧ ((t.core n).strm st).send = m.send ∧
          ((t.core n).strm st).todo = [] ∧ ((t.core n).strm st).tiles = m.tiles ∧ t.mem = s.mem))) ∧
    (1023 < prick.toNat → exec (.strmgo n false st prick adr) s = .refused .undefinedEncoding) ∧
    (m.ended = true → exec (.strmswap n false st) s = .next (issued s n p k (put m))) ∧
    (m.ended = false → m.loads = true → m.waits = false →
      exec (.strmswap n false st) s = .next (issued s n p k (put { m with
        cur := m.cur + 1, rel := m.rel.filter (fun e => now < e.1 + 16384) ++ [(now, bytes)] }))) ∧
    (m.ended = false → m.loads = false → exec (.strmswap n false st) s =
      .next (issued s n p k (put { m with todo := m.todo ++ m.piecesOf m.cur, cur := m.cur + 1 }))) ∧
    (m.loads = true → m.waits = true → exec (.strmswap n false st) s = .next (held s n p (t0.strmCause n st) (.strmswap st))) ∧
    (m.waits = false → exec (.strmwait n false st r) s = .next (issued s n p k (·.fly 1 (.setX r (BitVec.ofNat 64
      (if m.ended = true then 0 else if m.loads = true then bytes else 512 * m.halfRows)))))) ∧
    (m.waits = true → exec (.strmwait n false st r) s = .next (held s n p (t0.strmCause n st) (.strmwait st r)))

/-- The bay stream engine (10 R295, R302-R308; 01 R28): a ready request of a load takes its tags and goes to its controller in the class of
its Pricking, with a dry time of the present tick and its runway, or joins an identical open fetch; a store reads its first row; round-robin
order over the seventeen streams of each core. A row that has come lands on every destination core and frees its tag; a row of a store that
is written frees its tag, one of a forward goes into the target's scratchpad. -/
def Obligations.StreamEngine : Prop :=
  ∀ (s : State) (b : BayId) (n : CoreId) (st : Fin 16) (f : StrmRow) (rest : List StrmRow) (i : Nat) (piece : List StrmRow),
    let m := (s.core n).strm st
    let at_ := 16 * b.val + i / 17
    let o := (s.core at_).strm (i % 17)
    let asks (i : Nat) : Option (List StrmRow) :=
      if i % 17 = 16 then s.readySeq (16 * b.val + i / 17) else s.readyPiece (16 * b.val + i / 17) (i % 17)
    let ready (i : Nat) : Prop := ∃ q, asks i = some q ∧ (q.map (·.tags)).sum ≤ (s.bay b).tags
    let calm : Prop := ∀ q, q / 16 = b.val → (∀ e ∈ (s.core q).strms, e.2.send = []) ∧ (s.core q).mac = none
    let tag := ownTags + s.memTag
    let marked := piece.map (fun g => { g with rtag := tag })
    let addr := (piece.head?.map (·.addr)).getD 0
    let len := (piece.map (·.len)).sum
    let ctl := addr / 4096 % 6
    (m.fly = f :: rest → f.ret = true → m.live = true → m.loads = true → m.lead = true → f.tile ≤ s.minCur n st + 1 →
      (s.mates n st).Nodup →
      Gives (.streamRowDelivered n st.castSucc) s (fun t =>
        (∀ q ∈ s.mates n st, (t.core q).rowAt f.row = State.putPart ((s.core q).rowAt f.row) f.off f.data true ∧
          (∀ r, r ≠ f.row → (t.core q).rowAt r = (s.core q).rowAt r) ∧
          (f.last = true → tget 0 ((t.core q).strm st).landed f.tile = tget 0 ((s.core q).strm st).landed f.tile + 1) ∧
          (f.last = true → bitAt ((s.core q).strm st).arrival 7 = true → tget 0 (t.core q).arr (((s.core q).strm st).arrival % 128) =
            min (tget 0 (s.core q).arr (((s.core q).strm st).arrival % 128) + 1) (2 ^ 32 - 1))) ∧
        (∀ q, q ∉ s.mates n st → q ≠ n.val → t.core q = s.core q) ∧
        ((t.core n).strm st).fly = rest ∧ (t.bay (n.val / 16)).tags = (s.bay (n.val / 16)).tags + f.tags ∧ t.mem = s.mem)) ∧
    (m.fly = [f] → f.ret = false → exec (.streamRowDelivered n st.castSucc) s = .next s ∧ exec (.streamWriteAck n st) s = .next s) ∧
    (m.fly = f :: rest → f.ret = true → m.live = true → m.dir = 1 → Gives (.streamWriteAck n st) s (fun t =>
        ((t.core n).strm st).fly = rest ∧ (t.bay (n.val / 16)).tags = (s.bay (n.val / 16)).tags + f.tags ∧
        (f.last = true → tget 0 ((t.core n).strm st).landed f.tile = tget 0 m.landed f.tile + 1) ∧
        (∀ r, (t.core n).rowAt r = (s.core n).rowAt r) ∧ t.mem = s.mem)) ∧
    (∀ p k j d, m.fly = f :: rest → f.ret = true → m.live = true → m.dir = 3 → (s.bay (n.val / 16)).job = some (p, k) →
      (s.ring p k).job = some j → m.target / 16 < j.bays → j.lays[m.target / 16]? = some d → 16 * d + m.target % 16 ≠ n.val →
      let q := 16 * d + m.target % 16
      Gives (.streamWriteAck n st) s (fun t => ((t.core n).strm st).fly = rest ∧
        (t.core q).rowAt (f.addr / 512) = State.putPart ((s.core q).rowAt (f.addr / 512)) (f.addr % 512) f.data false ∧
        (f.last = true → bitAt m.arrival 7 = true → tget 0 (t.core q).arr (m.arrival % 128) =
          min (tget 0 (s.core q).arr (m.arrival % 128) + 1) (2 ^ 32 - 1)) ∧ t.mem = s.mem)) ∧
    (calm → (∃ l1 l2, (List.range 272).map (fun i => ((s.bay b).rr + i) % 272) = l1 ++ i :: l2 ∧ (∀ x ∈ l1, ¬ready x)) → ready i →
      asks i = some piece → i % 17 ≠ 16 →
      (o.loads = true → (∀ g ∈ piece, s.quarTouch g.addr g.len = false) → Gives (.streamRequestIssue b) s (fun t =>
        ((t.core at_).strm (i % 17)).todo = o.todo.drop 1 ∧ ((t.core at_).strm (i % 17)).fly = o.fly ++ marked ∧
        (t.bay b).tags = (s.bay b).tags - (piece.map (·.tags)).sum ∧ (t.bay b).rr = (i + 1) % 272 ∧ t.mem = s.mem ∧
        ((∀ g ∈ (s.mc ctl).fetches, ¬(g.addr = addr ∧ g.len = len ∧ g.closed = false)) →
          (∃ w, (t.mc ctl).queue = (s.mc ctl).queue ++ [w] ∧ w.tag = tag ∧ w.addr = addr ∧ w.len = len ∧ w.write = false ∧
            w.cls = (if o.deadline = true then .deadline else .fcfs) ∧ w.dry = s.dev.tsc.toNat + s.runway at_ (i % 17) ∧
            w.bay = b.val ∧ w.core = at_ ∧ w.slots = (len + 511) / 512 + 2) ∧
          ∃ g, (t.mc ctl).fetches = (s.mc ctl).fetches ++ [g] ∧ g.tags = [tag] ∧
            g.data = (List.range len).map (fun i => readByte s.mem (addr + i))) ∧
        ((∃ g ∈ (s.mc ctl).fetches, g.addr = addr ∧ g.len = len ∧ g.closed = false) → (t.mc ctl).queue = (s.mc ctl).queue ∧
          (t.mc ctl).fetches.length = (s.mc ctl).fetches.length))) ∧
      (∀ more, o.loads = false → piece = f :: more → more ≠ [] → (o.dir = 3 ∨ ∀ g ∈ piece, s.quarTouch g.addr g.len = false) →
        Gives (.streamRequestIssue b) s (fun t =>
          ((t.core at_).strm (i % 17)).todo = o.todo.drop 1 ∧
          ((t.core at_).strm (i % 17)).send = more.map (fun g => { g with rtag := tag }) ∧
          ((t.core at_).strm (i % 17)).fly = o.fly ++
            [{ f with rtag := tag, ret := decide (o.dir = 3), data := State.rowPart ((s.core at_).rowAt f.row) f.off f.len }] ∧
          (t.bay b).tags = (s.bay b).tags - f.tags ∧ (t.bay b).rr = (i + 1) % 272 ∧ t.mem = s.mem)) ∧
      (o.dir ≠ 3 → (∃ g ∈ piece, s.quarTouch g.addr g.len = true) → Gives (.streamRequestIssue b) s (fun t =>
        (t.core at_).fault = 0x70 ∧ (t.core at_).running = false ∧ (t.bay b).rr = (i + 1) % 272 ∧ t.mem = s.mem)))

/-- The tile sequencer's stream and dry time (10 R304, R305, R308; 08 R252, R253, R265): a matrix macro's operands are fetched as stream 16 of
its core, in the deadline class with a dry time of the present tick and the runway of the operand; what comes is staged for its step, and its
tags are free; a request for bytes of a quarantined stack faults against the macro bundle. A stream's runway is the bytes of its full halves
over those released in the last 16,384 ticks, in whole ticks by the model's choice (log 84, DESIGN CHOICE), and zero where none was released
or its consumer is held on it. -/
def Obligations.TileSequencerStreamAndRunway : Prop :=
  ∀ (s : State) (b : BayId) (n : CoreId) (bundle st : Nat) (f : MatFly) (r : StrmRow) (rest piece : List StrmRow),
    let now := s.dev.tsc.toNat
    let m := (s.core n).strm st
    let recent := m.rel.filter (fun e => now < e.1 + 16384)
    let released := (recent.map (·.2)).sum
    let halves := [m.cur, m.cur + 1].filter (fun t => t < m.tiles.length && m.tileDone t)
    let full := (halves.map (fun t => ((m.tiles.getD t []).map (·.2)).sum)).sum
    let asks (i : Nat) : Option (List StrmRow) :=
      if i % 17 = 16 then s.readySeq (16 * b.val + i / 17) else s.readyPiece (16 * b.val + i / 17) (i % 17)
    let ready (i : Nat) : Prop := ∃ q, asks i = some q ∧ (q.map (·.tags)).sum ≤ (s.bay b).tags
    let own := 17 * (n.val % 16) + 16
    let tag := ownTags + s.memTag
    let addr := (piece.head?.map (·.addr)).getD 0
    let len := (piece.map (·.len)).sum
    let ctl := addr / 4096 % 6
    (recent = [] → s.runway n st = 0) ∧
    ((∃ q ∈ s.mates n st, s.heldOn q st = true) → s.runway n st = 0) ∧
    (released ≠ 0 → (∀ q ∈ s.mates n st, s.heldOn q st = false) → s.runway n st = full * 16384 / released) ∧
    ((s.core n).mac = some ⟨bundle, .matrix f⟩ →
      (f.seq.fly = r :: rest → r.ret = true → r.tile ≤ f.pos + 1 → (if f.db then 2 else 1) ≤ f.full.length →
        Gives (.streamRowDelivered n 16) s (fun t =>
          (t.core n).mac = some ⟨bundle, .matrix { f with seq := { f.seq with
            fly := rest, landed := tmod 0 f.seq.landed r.tile (· + r.len)
            staged := tmod [] f.seq.staged r.tile (fun l => writeBytes l r.addr r.data) } }⟩ ∧
          (t.bay (n.val / 16)).tags = (s.bay (n.val / 16)).tags + r.tags ∧
          (∀ q, (t.core n).rowAt q = (s.core n).rowAt q) ∧ (t.core n).acc = (s.core n).acc ∧ t.mem = s.mem)) ∧
      (n.val / 16 = b.val → f.pos + 2 < f.seq.asked →
        (∀ q, q / 16 = b.val → (∀ e ∈ (s.core q).strms, e.2.send = []) ∧ (q ≠ n.val → (s.core q).mac = none)) →
        (∃ l1 l2, (List.range 272).map (fun i => ((s.bay b).rr + i) % 272) = l1 ++ own :: l2 ∧ (∀ x ∈ l1, ¬ready x)) → ready own →
        s.readySeq n = some piece →
        ((∀ g ∈ piece, s.quarTouch g.addr g.len = false) → Gives (.streamRequestIssue b) s (fun t =>
          (t.core n).mac = some ⟨bundle, .matrix { f with seq := { f.seq with
            todo := f.seq.todo.drop 1, fly := f.seq.fly ++ piece.map (fun g => { g with rtag := tag }) } }⟩ ∧
          (t.bay b).tags = (s.bay b).tags - (piece.map (·.tags)).sum ∧ (t.bay b).rr = (own + 1) % 272 ∧ t.mem = s.mem ∧
          ((∀ g ∈ (s.mc ctl).fetches, ¬(g.addr = addr ∧ g.len = len ∧ g.closed = false)) →
            ∃ w, (t.mc ctl).queue = (s.mc ctl).queue ++ [w] ∧ w.tag = tag ∧ w.addr = addr ∧ w.len = len ∧ w.write = false ∧
              w.cls = .deadline ∧ w.dry = now + State.seqRunway f ((piece.head?.map (·.tile)).getD 0) ∧ w.bay = b.val ∧ w.core = n.val))) ∧
        ((∃ g ∈ piece, s.quarTouch g.addr g.len = true) → Gives (.streamRequestIssue b) s (fun t =>
          (t.core n).fault = 0x70 ∧ (t.core n).running = false ∧ (t.bay b).rr = (own + 1) % 272 ∧ t.mem = s.mem))))

/-- Macro bundles at issue (07 R226-R228; 08 R245-R251, R255, R257, R260; 12 R360; 13 R370): a check that fails faults and the macro does
nothing; counted work of zero completes at once with OK_ZERO; a macro that passes is in flight with the index of its bundle, one that
claims its tiles with the first one taken, its staging rows given over and nothing else moved; while another is in flight the bundle holds
as operand wait. -/
def Obligations.TensorMacros : Prop :=
  ∀ (s : State) (n : CoreId) (p k : Nat) (j : Job), CanIssue s n p k j → ∀ (adr : AReg) (off : BitVec 12) (xs : XReg) (img : TenImage),
    (s.pdk p).img = some img →
    let t0 := s.tickCore n
    let c := t0.core n
    let row := spadRow c adr off
    let d := rowBytes (c.rowAt row)
    let l := (c.rdX xs).toNat
    let faults (e : Nat) : Res := .next (t0.coreFault n e c.pc)
    let zero (cls r : Nat) : Res := .next (issued s n p k (fun x => { x with macRes := some (0x01, cls, r) }))
    (c.mac ≠ none → exec (.matmul n adr off xs) s = .next (held s n p 0 (.mac .matmul adr off xs)) ∧
      exec (.attend n adr off xs) s = .next (held s n p 0 (.mac .attend adr off xs))) ∧
    (c.mac = none → 4096 ≤ row → exec (.matmul n adr off xs) s = faults 0x13 ∧ exec (.attend n adr off xs) s = faults 0x13) ∧
    (c.mac = none → row < 4096 →
      (∀ e, t0.matStart n p img d l = .fault e → e ≠ 0x21 → exec (.matmul n adr off xs) s = faults e) ∧
      (∀ r, t0.matStart n p img d l = .zero r → exec (.matmul n adr off xs) s = zero 0xE0 r) ∧
      (∀ f, t0.matStart n p img d l = .go (.matrix f) → Gives (.matmul n adr off xs) s (fun t =>
        (t.core n).macRes = none ∧ (t.core n).x = c.x ∧ (t.core n).flight = c.flight ∧ t.mem = s.mem ∧ t.out = s.out ∧
        (∀ r, (∀ o ∈ [f.a, f.b, f.c, f.d], o.loc = 1 → r < o.stage ∨ o.stage + o.stageRows ≤ r) →
          (t.core n).rowAt r = c.rowAt r) ∧
        (f.claim = none → (t.core n).mac = some ⟨c.pc, .matrix f⟩) ∧
        (∀ q, f.claim = some q →
          let x := tget {} (s.bay (n.val / 16)).claims q
          (x.limit ≤ x.value → (t.core n).mac = some ⟨c.pc, .matrix { f with stopped := true }⟩) ∧
          (x.value < x.limit → (tget {} (t.bay (n.val / 16)).claims q).value = min (x.value + 1) (2 ^ 32 - 1) ∧
            (t.core n).mac = some ⟨c.pc, .matrix (if x.value < tileCount f then { f with taken := f.taken ++ [x.value] }
                                                   else { f with stopped := true })⟩)))) ∧
      (∀ e, t0.attStart n p img d l = .fault e → e ≠ 0x21 → exec (.attend n adr off xs) s = faults e) ∧
      (t0.attStart n p img d l = .fault 0x21 →
        exec (.attend n adr off xs) s = .next (issued s n p k (fun x => { x with macRes := some (0x21, 0xE1, 0) }))) ∧
      (∀ r, t0.attStart n p img d l = .zero r → exec (.attend n adr off xs) s = zero 0xE1 r) ∧
      (∀ f, t0.attStart n p img d l = .go (.attention f) → Gives (.attend n adr off xs) s (fun t =>
        ∃ g, (t.core n).mac = some ⟨c.pc, .attention g⟩ ∧ g.h = f.h ∧ g.ents = f.ents ∧ g.q = f.q ∧ g.o = f.o ∧ g.lse = f.lse ∧
          (t.core n).macRes = none ∧ (t.core n).x = c.x)))

/-- TILE_DRAIN and MACRO_COMPLETE of a matrix macro (08 R246, R252, R253, R256, R257, R260, R263-R265): of what is computed, the oldest output
tile is drained once its half has to be free: the rows of its tile go into C and nowhere else, the unit of its special functions is taken;
where its chain rounds stochastically it waits for the DRBG; a tile of a quarantined stack faults against the macro bundle; with nothing
computed and nothing to compute nothing happens; a macro whose tiles are all drained ends with OK, CLASS 0xE0 and the count of tiles.
Splits of attention (12 R355, R356): a finished split is taken by the open fold that waits for it, once; folding merges it into the owner's
partial, row by row, and after the last split the fold closes. -/
def Obligations.TilesSplitsAndResults : Prop :=
  (
  ∀ (s : State) (n : CoreId) (p k : Nat) (j : Job) (bundle : Nat) (f : MatFly) (u : FullTile) (more : List FullTile),
    s.liveJob n = some (p, k, j) → (s.core n).mac = some ⟨bundle, .matrix f⟩ →
    let sr := f.chain.elim false (fun c => c.sr)
    let still : Prop := stepAt f f.pos = none ∨ (if f.db then 2 else 1) ≤ f.full.length ∨ s.stepLanded f f.pos = false
    let rows := boxExtents f.c (u.mt * f.tm) (min f.tm (f.me - u.mt * f.tm)) (u.nt * f.tn) (min f.tn (f.ne - u.nt * f.tn))
    let finished : Prop := f.full = [] ∧ (f.claim = none → tileCount f * kTiles f ≤ f.pos) ∧
      (f.claim ≠ none → f.stopped = true ∧ f.taken = [])
    (still → f.full = u :: more → sr = false → s.tileBad f u = none →
      Gives (.tileDrain n) s (fun t =>
        (t.core n).mac = some ⟨bundle, .matrix { f with
          full := more, drained := f.drained + 1, taken := f.taken.drop (if f.claim = none then 0 else 1)
          first := f.first + (if f.claim = none then 0 else 1) }⟩ ∧
        (t.core n).x = (s.core n).x ∧ (t.core n).w = (s.core n).w ∧ (t.core n).acc = (s.core n).acc ∧ (t.core n).pc = (s.core n).pc ∧
        (∀ q, q ≠ n.val → t.core q = s.core q) ∧ t.out = s.out ∧
        (f.c.loc = 0 → t.mem = s.mem) ∧
        (f.c.loc = 1 → f.chain = none → (∀ r, (t.core n).rowAt r = (s.core n).rowAt r) ∧
          ∀ a, (∀ e ∈ rows, a < (s.pkgAddr f.pdk e.1).toNat ∨ (s.pkgAddr f.pdk e.1).toNat + e.2 ≤ a) →
            readByte t.mem a = readByte s.mem a) ∧
        (∀ c, f.chain = some c → (∃ e ∈ c.steps, e.kind = 8 ∨ e.kind = 9) →
          ∃ g ∈ (t.core n).flight, g.act = .drainUse))) ∧
    (still → f.full = u :: more → sr = true → s.drbgReady = false → exec (.tileDrain n) s = .next s) ∧
    (∀ e, still → f.full = u :: more → sr = false → s.tileBad f u = some e →
      exec (.tileDrain n) s = .next (s.coreFault n e bundle)) ∧
    (still → f.full = [] → exec (.tileDrain n) s = .next s) ∧
    (finished → (s.core n).ending = false → exec (.macroComplete n) s = .next (s.modCore n (fun c => { c with
      mac := none, macRes := some (0, 0xE0, f.drained % 2 ^ 32 + f.bucket * 2 ^ 32 + (if f.tileSrc then 1 else 0) * 2 ^ 35) }))) ∧
    (¬finished → exec (.macroComplete n) s = .next s)) ∧ (
  ∀ (s : State) (n : CoreId) (b : BayId) (bundle : Nat) (f : AttFly) (sp : Split) (x : Fold),
    (∀ rest, (s.core n).mac = some ⟨bundle, .attention f⟩ → f.due = some sp → (s.bay (n.val / 16)).folds = x :: rest →
      x.part.key = sp.key → x.part.entry = sp.entry → x.part.group = sp.group → x.part.tile = sp.tile → x.next = sp.index → x.fly = none →
      Gives (.splitDelivery n) s (fun t =>
        (t.bay (n.val / 16)).folds.head? = some { x with fly := some sp } ∧
        (t.core n).mac = some ⟨bundle, .attention { f with
          due := none, done := if sp.failed = 0 then min (f.done + 1) (2 ^ 24 - 1) else f.done }⟩ ∧ t.mem = s.mem)) ∧
    ((s.core n).mac = some ⟨bundle, .attention f⟩ → f.due = none → exec (.splitDelivery n) s = .next s) ∧
    ((s.bay b).folds = [x] → x.fly = some sp → x.next + 1 < x.part.total → Gives (.splitFold b) s (fun t =>
      (t.bay b).folds = [{ x with
        next := x.next + 1, fly := none
        part := { x.part with rows := (x.part.rows.zip sp.rows).map (fun e => foldRow e.1 e.2)
                              failed := if x.part.failed ≠ 0 then x.part.failed else sp.failed } }] ∧ t.mem = s.mem ∧ t.out = s.out)) ∧
    ((s.bay b).folds = [x] → x.fly = some sp → x.part.total ≤ x.next + 1 → Gives (.splitFold b) s (fun t => (t.bay b).folds = [])) ∧
    ((∀ x ∈ (s.bay b).folds, x.fly = none) → exec (.splitFold b) s = .next s))

/-- Yard macros at issue (13 R368-R370, R379, R381): an operation that passes its checks joins the Yard with the fields of its descriptor
and the data read at issue; a fault or a count of zero ends the macro at once; a full intake holds it as Yard wait. -/
def Obligations.YardMacros : Prop :=
  ∀ (s : State) (n : CoreId) (p k : Nat) (j : Job), CanIssue s n p k j → ∀ (adr : AReg) (off : BitVec 12) (xs : XReg) (img : TenImage),
    (s.pdk p).img = some img →
    let t0 := s.tickCore n
    let c := t0.core n
    let row := spadRow c adr off
    let d := rowBytes (c.rowAt row)
    let l := (c.rdX xs).toNat
    c.mac = none → row < 4096 →
    ∀ (op : YardOp) (i : Instr),
      (i, op) ∈ [(.create n adr off xs, YardOp.create), (.yardRelease n adr off xs, .release), (.append n adr off xs, .append),
        (.trim n adr off xs, .trim), (.fork n adr off xs, .fork), (.lookup n adr off xs, .lookup), (.publish n adr off xs, .publish),
        (.pin n adr off xs, .pin), (.unpin n adr off xs, .unpin), (.prefetch n adr off xs, .prefetch), (.query n adr off xs, .query),
        (.ptread n adr off xs, .ptread)] →
      (4 ≤ s.intake (n.val / 16) → exec i s = .next (held s n p 6 (.mac (.yard op) adr off xs))) ∧
      (s.intake (n.val / 16) < 4 →
        (∀ e, t0.yardChecks p op d l = .fault e → exec i s = .next (t0.coreFault n e c.pc)) ∧
        (∀ r, t0.yardChecks p op d l = .zero r →
          exec i s = .next (issued s n p k (fun x => { x with macRes := some (0x01, 0xE2, r) }))) ∧
        (t0.yardChecks p op d l = .go (.yard s.yard.nextOp) →
          let o : YOp := { pdk := p, bay := n.val / 16, op := op, seq := fieldAt d 4 4, a0 := fieldAt d 8 4, a1 := fieldAt d 12 4,
                           row := fieldAt d 0x10 2, n := l, data := (t0.yardOpOf n p op d l).data }
          let u := issuing s n p k (fun x => { x with mac := some ⟨c.pc, .yard s.yard.nextOp⟩, macRes := none })
          exec i s = .next (((u.yardAccept o).countBeat n p none).checkEnded n)))

/-- Operations of the Yard that start with nothing before them on their sequences (13 R369, R378): what each refuses, and the effect and
result of those that move no page. MACRO_COMPLETE of a Yard macro (07 R228, 13 R369): the operation's status and result reach MWAIT where
the status is one that MWAIT returns, and end the job with a fault otherwise; an operation not done keeps its macro in flight. -/
def Obligations.YardOperationEffectsAndResult : Prop :=
  (
  ∀ (s : State) (id : Nat) (o : YOp) (q : Seq), s.yard.ops = [(id, o)] → o.st = .queued → o.frames = [] → s.seqAt o.pdk o.seq = some q →
    let i := o.seq % 65536
    let pages : List Nat := if o.n = 0 then [] else (List.range ((o.a0 + o.n - 1) / 16 - o.a0 / 16 + 1)).map (· + o.a0 / 16)
    let ends (status result : Nat) : Prop := ∃ o', tfind (s.startOp id).yard.ops id = some o' ∧ o'.st = .done ∧ o'.status = status ∧
      o'.result = result
    (o.op = .append → q.maxlen < q.length + o.n → ends 0x21 0) ∧
    (o.op = .trim → q.length < o.a0 → ends 0x21 0) ∧
    (o.op = .lookup → q.length ≠ 0 → ends 0x21 0) ∧
    ((o.op = .pin ∨ o.op = .unpin ∨ o.op = .prefetch) → q.length < o.a0 + o.n → ends 0x21 0) ∧
    (o.op = .ptread → ceilDiv q.maxlen 16 < o.a0 + o.n → ends 0x21 0) ∧
    (o.op = .query → ends 0 0 ∧ ∃ o', tfind (s.startOp id).yard.ops id = some o' ∧ o'.out = s.descriptor i q ∧
      (s.startOp id).yard.seqs = s.yard.seqs ∧ (s.startOp id).yard.ptes = s.yard.ptes ∧ (s.startOp id).mem = s.mem) ∧
    (o.op = .ptread → o.a0 + o.n ≤ ceilDiv q.maxlen 16 → ends 0 0 ∧ ∃ o', tfind (s.startOp id).yard.ops id = some o' ∧
      o'.out = ((List.range o.n).map (fun m => s.pteBytes (s.pte i (o.a0 + m)))).flatten ∧ (s.startOp id).mem = s.mem) ∧
    (o.op = .unpin → o.a0 + o.n ≤ q.length → ends 0 (pages.filter (fun g => (s.pte i g).pin)).length ∧
      (∀ g ∈ pages, ((s.startOp id).pte i g).pin = false) ∧ (s.startOp id).yard.seqs = s.yard.seqs ∧ (s.startOp id).mem = s.mem) ∧
    (o.op = .pin → o.a0 + o.n ≤ q.length → (∀ g ∈ pages, s.inLoft i g = false) →
      ends 0 (pages.filter (fun g => !(s.pte i g).pin)).length ∧ (∀ g ∈ pages, ((s.startOp id).pte i g).pin = true) ∧
      (s.startOp id).mem = s.mem) ∧
    (o.op = .prefetch → o.a0 + o.n ≤ q.length → (∀ g ∈ pages, s.inLoft i g = false) → ends 0 o.got) ∧
    (o.op = .release → s.macNames o.pdk o.seq = false → ends 0 0 ∧ tfind (s.startOp id).yard.seqs i = none)) ∧ (
  ∀ (s : State) (n : CoreId) (p k : Nat) (j : Job) (bundle id : Nat) (o : YOp), s.liveJob n = some (p, k, j) →
    (s.core n).mac = some ⟨bundle, .yard id⟩ → tfind s.yard.ops id = some o →
    (o.st ≠ .done → exec (.macroComplete n) s = .next s) ∧
    (o.st = .done → o.status ∈ [0x00, 0x01, 0x20, 0x21, 0x22] → Gives (.macroComplete n) s (fun t =>
      (t.core n).mac = none ∧ (t.core n).macRes = some (o.status, 0xE2, o.result) ∧ tfind t.yard.ops id = none ∧
      (o.out = [] → (t.core n).spad = (s.core n).spad) ∧ t.mem = s.mem ∧ t.out = s.out)) ∧
    (o.st = .done → o.status ∉ [0x00, 0x01, 0x20, 0x21, 0x22] → Gives (.macroComplete n) s (fun t =>
      (t.core n).fault = o.status ∧ (t.core n).running = false ∧ tfind t.yard.ops id = none ∧ t.mem = s.mem)))

/-- The Yard's registers and its housekeeping (13 R373, R380, R387, R388, R391): a zeroed frame or slot returns to its quota and reads zero;
prefix keys may be written only while no node stands; a Loft grant's register refuses what R388 refuses; a Loft read of destroyed keys is
counted and dropped. -/
def Obligations.YardRegistersAndFrames : Prop :=
  ∀ (s : State) (p : PdkId) (v : Word) (ide : Option Nat) (i : Nat) (x : PFrame) (own : Nat) (g : Fin 16) (c : CoreId),
    Heeds s (p.val + 1) ide →
    (tfind s.yard.frames i = some x → x.use = .zeroing → Gives (.frameZeroed false i) s (fun t =>
      t.yard.frames = tdel s.yard.frames i ∧
      (∀ a, readByte t.mem a = if s.poolAddr i ≤ a ∧ a < s.poolAddr i + s.pageB then 0 else readByte s.mem a))) ∧
    (tfind s.yard.slots i = some own → 64 ≤ own → Gives (.frameZeroed true i) s (fun t => t.yard.slots = tdel s.yard.slots i ∧
      (∀ a, readByte t.yard.manger a = if i * s.pageB ≤ a ∧ a < (i + 1) * s.pageB then 0 else readByte s.yard.manger a) ∧
      t.mem = s.mem)) ∧
    (s.nodesUsed p = 0 →
      exec (.yrdPfxKeyWrite p false v ide) s = .next (s.modPdk p (fun d => { d with pfxKey0 := v })) ∧
      exec (.yrdPfxKeyWrite p true v ide) s = .next (s.modPdk p (fun d => { d with pfxKey1 := v }))) ∧
    (s.nodesUsed p ≠ 0 → ∀ second,
      exec (.yrdPfxKeyWrite p second v ide) s = .next (s.modPdk p (fun d => { d with keyRefused := true }))) ∧
    (let y := s.grant p g
     let live := (s.loftPages p).any (fun u => u.1 = g.val)
     (live = true → ∀ size, exec (.yrdLoftWrite p g size v ide) s =
       .next (s.modPdk p (fun d => { d with loft := tset d.loft g { y with refused := true } }))) ∧
     (live = false → y.en = true → exec (.yrdLoftWrite p g false v ide) s =
       .next (s.modPdk p (fun d => { d with loft := tset d.loft g { y with refused := true } }))) ∧
     (live = false → y.en = false → v.toNat ≠ y.base → Gives (.yrdLoftWrite p g false v ide) s (fun t =>
       (t.grant p g).base = v.toNat ∧ (t.grant p g).en = false ∧ t.sec.epoch = (s.sec.epoch + 1) % 2 ^ 32 ∧ t.mem = s.mem)) ∧
     (live = false → y.en = false → bitAt v.toNat 31 = true → y.base % 4096 = 0 → bits v.toNat 20 0 ≠ 0 →
       g.val < (s.quota p).loftGrants →
       (((List.range 16).filter (fun q => q ≠ g.val && (s.grant p q).en)).map (fun q => (s.grant p q).mib)).sum + bits v.toNat 20 0
         ≤ (s.quota p).loftMib →
       Gives (.yrdLoftWrite p g true v ide) s (fun t => (t.grant p g).en = true ∧ (t.grant p g).mib = bits v.toNat 20 0 ∧
         (t.grant p g).base = y.base ∧ t.sec.epoch = (s.sec.epoch + 1) % 2 ^ 32 ∧ t.mem = s.mem))) ∧
    (s.yard.deferred = [] → s.yard.ops = [] → Gives (.deferredRelease c) s (fun t => t.yard.seqs = s.yard.seqs ∧ t.mem = s.mem)) ∧
    (∀ d, s.yard.deferred = [d] → s.macNames d.pdk d.seq = false → d.ptes = [] → d.release = none → s.yard.ops = [] →
      Gives (.deferredRelease c) s (fun t => t.yard.deferred = [] ∧ t.mem = s.mem)) ∧
    (∀ f ok data, tfind s.hif.reads i = some .loft → tfind s.yard.fetches i = some f → f.dead = true → f.op = none →
      s.yard.ops = [] → s.cores = [] → Gives (.loftPageReturn i ok data) s (fun t =>
        t.sec.keyRetired = min (2 ^ 32 - 1) (s.sec.keyRetired + 1) ∧ tfind t.hif.reads i = none ∧ tfind t.yard.fetches i = none ∧ t.mem = s.mem)) ∧
    (tfind s.hif.reads i ≠ some .loft → ∀ ok data, exec (.loftPageReturn i ok data) s = .next s)

/-- Work comes to rest (05 R150, R151, R153, R164; 06 R178; 07 R232, R235, R236; 13 R370): CORES_STOPPED stops every core of a bay that is to
stop, once; JOB_END completes a job whose cores have all ended with OK, x16 and the time of its last bundle, and a faulted one with the
fault's status and DETAIL, after its accepted Yard operations; its bays stay held, idle and resident; it does nothing before the job may end;
ENTROPY_WAIT_TIMEOUT faults a core that waits for a DRBG that is stopped. A fault ends the whole job with the first fault's status, core and
bundle, of several in one beat those of the lowest core, and takes the macro of its own bundle with it. That one tick is one beat is the
model's (log 82, DESIGN CHOICE). -/
def Obligations.CoresStopFirstFaultAndJobsEnd : Prop :=
  (
  ∀ (s : State) (b : BayId) (p : PdkId) (k : Fin 256) (n : CoreId) (j : Job),
    let mine (c : Nat) : Prop := (s.bay c).job = some (p.val, k.val)
    let ended (t : State) (status detail : Nat) : Prop :=
      (∃ c, (t.ring p k).cpls = (s.ring p k).cpls ++ [c] ∧ c.status = status ∧ c.tag = j.tag ∧ c.detail = detail ∧ c.interim = false ∧
        c.sqHead = j.sqHead ∧ c.startTs = j.startTs ∧ (j.started = true → c.endTs = j.endTs) ∧
        ((s.bay b).lbay = 0 → (∀ e, e < 16 → mine e → e = b.val) → (s.core (16 * b)).flight = [] →
          c.result = ((s.core (16 * b)).rdX 16).toNat % 2 ^ 32)) ∧
      (∀ q, (t.ring p k).job = some q → q.ph = .done) ∧
      (t.bay b).job = none ∧ (t.bay b).resident = true ∧ (t.bay b).holder = (s.bay b).holder
    (∀ why, (s.bay b).stopping = some why → (s.bay b).stopped = false → Gives (.coresStopped b) s (fun t =>
      (t.bay b).stopped = true ∧ (t.bay b).stopping = some why ∧
      (∀ m, m / 16 = b.val → (t.core m).running = false ∧ (t.core m).claimWait = 0 ∧ (t.core m).claimVal = none ∧
        (NoTraffic s → (t.core m).queue = (s.core m).queue ∧ (t.core m).pc = (s.core m).pc)))) ∧
    ((s.bay b).stopping = none → exec (.coresStopped b) s = .next s) ∧
    ((s.ring p k).job = some j → j.ph = .running → (s.ring p k).mute = false → mine b → NoTraffic s →
      (∀ e, j.endWith = some e → Gives (.jobEnd p k) s (fun t => ended t e j.detail)) ∧
      (j.endWith = none → j.bays = ((List.range 16).filter (fun c => (s.bay c).job = some (p.val, k.val))).length →
        (∀ c, c < 16 → mine c → ∀ m ∈ coresOf c, (s.core m).ended = true) → Gives (.jobEnd p k) s (fun t => ended t 0 j.detail))) ∧
    ((s.ring p k).job = some j → j.ph = .running → j.endWith = none → (∀ c, c < 16 → mine c → (s.bay c).stopping ≠ some .quarantine) →
      (∃ c, c < 16 ∧ mine c ∧ ∃ m ∈ coresOf c, (s.core m).ended = false) → exec (.jobEnd p k) s = .next s) ∧
    (∀ m bundle id, mine b → m ∈ coresOf b → (s.core m).mac = some ⟨bundle, .yard id⟩ → (s.core m).ended = false →
      (∀ q, (s.core q).strms = []) → Gives (.jobEnd p k) s (fun t =>
      (t.ring p k).cpls = (s.ring p k).cpls ∧ (t.bay b).job = (s.bay b).job ∧ (t.core m).mac = (s.core m).mac)) ∧
    ((s.ring p k).job = some j → j.ph ≠ .running → exec (.jobEnd p k) s = .next s) ∧
    ((s.ring p k).job = none → exec (.jobEnd p k) s = .next s) ∧
    (∀ q r rest, s.liveJob n = some q → (s.core n).queue = [.rand r] :: rest →
      (s.sec.rng.running = false → exec (.entropyWaitTimeout n) s = .next (s.coreFault n 0x30 (s.core n).pc)) ∧
      (s.sec.rng.running = true → exec (.entropyWaitTimeout n) s = .next s))) ∧ (
  ∀ (s : State) (n p k status bundle : Nat) (j : Job), (s.bay (n / 16)).job = some (p, k) → (s.ring p k).job = some j →
    let t := s.coreFault n status bundle
    let now := s.dev.tsc.toNat
    (t.core n).fault = status ∧ (t.core n).running = false ∧ (t.core n).queue = [] ∧ (t.core n).spad = (s.core n).spad ∧
    (t.core n).x = (s.core n).x ∧ (t.core n).flight = (s.core n).flight ∧ (∀ m, m ≠ n → t.core m = s.core m) ∧ t.mem = s.mem ∧
    (∀ m, (s.core n).mac = some m → (t.core n).mac = if m.bundle = bundle then none else some m) ∧
    (j.endWith = none ∨ (j.faultTs = now ∧ n < j.detail % 256) → (t.ring p k).job = some { j with
      endWith := some status, detail := n % 256 + 256 * bundle, faultTs := now }) ∧
    (∀ e, j.endWith = some e → ¬(j.faultTs = now ∧ n < j.detail % 256) → (t.ring p k).job = some j))

/-- A result of latency L is visible to a bundle that issues L beats after, and the register file is as it was until then; a row read goes
by the row as it stands at its bank stage; x0 keeps reading zero (07 R205, R229; 09 R269). -/
def Obligations.ResultsAfterTheirLatency : Prop :=
  ∀ (c : Core) (l r q : Nat) (v : Word) (w : Row), c.flight = [] → c.banks = [] → 0 < l →
    let run (x : Core) (m : Nat) : Core := (List.range m).foldl (fun y _ => y.tick) x
    (∀ m, m < l → (run (c.fly l (.setX r v)) m).x = c.x ∧ (run (c.fly l (.setW r w)) m).w = c.w) ∧
    run (c.fly l (.setX r v)) l = (if r = 0 then c else { c with x := tset c.x r v }) ∧
    run (c.fly l (.setW r w)) l = { c with w := tset c.w r w } ∧
    run (c.fly l (.setAcc r w)) l = { c with acc := tset c.acc r w } ∧
    run (c.fly l (.writeSpad r w)) l = c.setRow r w ∧
    run (c.fly l (.readSpad r q)) (l + 3) = { c with w := tset c.w r (c.rowAt q) } ∧
    (run (c.fly l (.setX 0 v)) l).rdX 0 = 0

/-- A bundle is gathered slot by slot and issues with its last (07 R208, R209): a slot with more to come changes nothing but the gathered
bundle; three slots that issue together all read the core as it stood; slots that do not go together are no encoding (07 R210). -/
def Obligations.SlotsIssueTogether : Prop :=
  ∀ (s : State) (n : CoreId) (p k : Nat) (j : Job), CanIssue s n p k j → ∀ (rd r1 r2 : XReg) (wd w1 w2 w : WReg) (adr : AReg) (off : BitVec 12),
    let c := (s.tickCore n).core n
    let row := spadRow c adr off
    let rdU : BankUse := { left := 3, bank := row % 8, read := true }
    let s1 := s.modCore n (fun x => { x with gather := [.alu .add rd r1 r2] })
    let s2 := s.modCore n (fun x => { x with gather := [.alu .add rd r1 r2, .lane .or wd w1 w2 0 0] })
    exec (.add n true rd r1 r2) s = .next s1 ∧
    exec (.vor n true wd w1 w2) s1 = .next s2 ∧
    (wd ≠ w → row < 4096 → rdU ∉ c.banks → exec (.ldr n false w adr off) s2 = .next (issued s n p k (fun x =>
      (((useBanks [rdU] x).fly 1 (.setX rd (c.rdX r1 + c.rdX r2))).fly 1 (.setW wd (c.rdW w1 ||| c.rdW w2))).fly 3 (.readSpad w row)))) ∧
    (wd = w → exec (.ldr n false w adr off) s2 = .refused .undefinedEncoding) ∧
    exec (.sub n true rd r1 r2) s1 = .refused .undefinedEncoding

/-- Scratchpad health (09 R284-R290): corrected code words are counted, and a row is marked at its third corrected check; a row that the
patrol found is written back unless a write has come since; the patrol goes on row by row through a bank's visible rows and then its unused
spares, and rests without the compute rails; an uncorrectable error retires the row to a zeroed spare, whose history is its own, and ends the
job that runs, or quarantines the bay where no spare is left. -/
def Obligations.ScratchpadHealth : Prop :=
  ∀ (s : State) (n : CoreId) (row : Fin 4096) (bank : Fin 8) (words bundle : Nat),
    let c := s.core n
    let v := s.spare n (row.val % 8)
    let q := tget 0 c.patrol bank
    let counted (t : State) (r : Nat) : Prop := (t.core n).ce = min (c.ce + words) 65535 ∧
      tget 0 (t.core n).corrected r = tget 0 c.corrected r + 1 ∧
      (r ∈ (t.core n).marked ↔ r ∈ c.marked ∨ 2 ≤ tget 0 c.corrected r) ∧ (t.core n).spad = c.spad ∧ t.mem = s.mem
    exec (.eccWriteback n { row := row }) s = .next (s.modCore n (fun c => { c with dirty := c.dirty.filter (· != row.val) })) ∧
    Gives (.eccWriteback n { row := row, words := some words }) s (fun t => counted t row ∧ (t.core n).dirty = c.dirty) ∧
    (∀ e, s.dev.computeRails = false → exec (.spadPatrol n bank e) s = .next s) ∧
    (s.dev.computeRails = true → (s.bay (n.val / 16)).powered = true →
      (q < 512 →
        Gives (.spadPatrol n bank .clean) s (fun t => tget 0 (t.core n).patrol bank = q + 1 ∧ (t.core n).ce = c.ce ∧
          (t.core n).spad = c.spad ∧ t.mem = s.mem) ∧
        Gives (.spadPatrol n bank (.corrected words)) s (fun t => counted t (8 * q + bank.val) ∧ tget 0 (t.core n).patrol bank = q + 1 ∧
          8 * q + bank.val ∈ (t.core n).dirty)) ∧
      (∀ j, 512 ≤ q → (s.spareRows n bank).find? (fun i => q - 512 ≤ i) = some j →
        Gives (.spadPatrol n bank (.corrected words)) s (fun t => counted t (4096 + 8 * bank.val + j) ∧
          tget 0 (t.core n).patrol bank = 512 + j + 1 ∧ (t.core n).dirty = c.dirty)) ∧
      (512 ≤ q → (s.spareRows n bank).find? (fun i => q - 512 ≤ i) = none →
        Gives (.spadPatrol n bank .clean) s (fun t => tget 0 (t.core n).patrol bank = 1 ∧ t.mem = s.mem))) ∧
    (v ≠ 0 → (s.bay (n.val / 16)).job ≠ none → Gives (.spadUncorrectable n row (.program bundle)) s (fun t =>
      (t.core n).rowAt row = 0 ∧ (∀ r, r ≠ row.val → (t.core n).rowAt r = c.rowAt r) ∧ t.spare n (row.val % 8) = v - 1 ∧
      ((∀ r ∈ c.marked, r < 4096) → row.val ∉ (t.core n).marked) ∧
      (t.core n).ue = min (c.ue + 1) 255 ∧ (t.core n).fault = 0x60 ∧ (t.core n).running = false ∧ t.mem = s.mem)) ∧
    (v ≠ 0 → (s.bay (n.val / 16)).job = none → (s.bay (n.val / 16)).holder ≠ none → Gives (.spadUncorrectable n row .patrol) s (fun t =>
      (t.core n).rowAt row = 0 ∧ t.spare n (row.val % 8) = v - 1 ∧ (t.bay (n.val / 16)).lossMark = true ∧
      (t.core n).running = c.running ∧ t.mem = s.mem)) ∧
    (v = 0 → s.liveJob n = none → (s.bay (n.val / 16)).unit_ ≠ .quarantined → (s.bay (n.val / 16)).job = none →
      Gives (.spadUncorrectable n row .patrol) s (fun t => (t.bay (n.val / 16)).unit_ = .draining ∧
        (t.bay (n.val / 16)).stopping = some .quarantine ∧ (t.core n).spad = c.spad ∧ t.mem = s.mem))

/-! ### Package memory (01, 10, 16) -/

/-- A request to package memory (01 R28-R31; 04 R113; 06 R192; 10 R305-R307; 16 R463): a length of zero answers OK_ZERO and touches nothing;
an address out of range, a frame that its sender may not reach, or a locked frame written to, answers ACCESS_DENIED or ACCESS_SPAN, a
quarantined stack QUARANTINED, and nothing moves; a write within one granule changes exactly its bytes and waits for its row slots in the
class of its sender; a read of its own bytes joins an identical open fetch or starts one with what the bytes hold. -/
def Obligations.PackageMemoryRequests : Prop :=
  ∀ (s : State) (rq : MemReq), s.dev.memRails = true →
    let frame := rq.addr / 2 ^ 21
    let st := rq.addr / 4096 % 6
    let within : Prop := rq.addr / 4096 = (rq.addr + rq.len - 1) / 4096
    let reached (f : Nat) : Prop := s.mayReach (s.ownerOf f) rq.by_ = true
    let unlocked : Prop := rq.write = true → ∀ p, s.writerOf rq.by_ = some p → s.frameLocked p frame = false
    let done (e : Nat) : Res := .next (s.send (.memDone rq.tag e []))
    let joins (w : Waiting) : Prop := w.tag = rq.tag ∧ w.addr = rq.addr ∧ w.len = rq.len ∧ w.write = rq.write ∧
      w.slots = (rq.len + 511) / 512 + 2 ∧ (rq.by_ = .save → w.cls = .save) ∧ (∀ p, rq.by_ = .host p → w.cls = .fcfs) ∧
      (∀ (c : CoreId) (k : Fin 17), rq.by_ = .core c k → k.val < 16 → w.bay = c.val / 16 ∧ w.core = c.val ∧
        (((s.core c).strm k).deadline = true → w.cls = .deadline ∧ w.dry = s.dev.tsc.toNat + s.runway c k) ∧
        (((s.core c).strm k).deadline = false → w.cls = .fcfs))
    (rq.len = 0 → exec (.pkgMemAccess rq) s = done 0x01) ∧
    (rq.len ≠ 0 → 0x1800000000 ≤ rq.addr → exec (.pkgMemAccess rq) s = done 0x13) ∧
    (rq.len ≠ 0 → rq.addr < 0x1800000000 → 0x1800000000 < rq.addr + rq.len → exec (.pkgMemAccess rq) s = done 0x12) ∧
    (rq.len ≠ 0 → rq.addr + rq.len ≤ 0x1800000000 → ¬reached frame → exec (.pkgMemAccess rq) s = done 0x13) ∧
    (rq.len ≠ 0 → rq.addr + rq.len ≤ 0x1800000000 → reached frame → (∃ f, frame < f ∧ f ≤ (rq.addr + rq.len - 1) / 2 ^ 21 ∧ ¬reached f) →
      exec (.pkgMemAccess rq) s = done 0x12) ∧
    (rq.len ≠ 0 → rq.addr + rq.len ≤ 0x1800000000 → reached frame → within →
      (s.stackBad st = true → exec (.pkgMemAccess rq) s = done 0x70) ∧
      (s.stackBad st = false → ¬unlocked → exec (.pkgMemAccess rq) s = done 0x13) ∧
      (s.stackBad st = false → unlocked →
        (rq.write = true → rq.data.length = rq.len → Gives (.pkgMemAccess rq) s (fun t =>
          (∀ a, readByte t.mem a = if rq.addr ≤ a ∧ a < rq.addr + rq.len ∧ a / 4096 ∉ s.ras.dead
            then rq.data.getD (a - rq.addr) 0 else readByte s.mem a) ∧
          (∃ w, (t.mc st).queue = (s.mc st).queue ++ [w] ∧ joins w) ∧ t.out = s.out)) ∧
        (rq.write = false → (∀ f ∈ (s.mc st).fetches, ¬(f.addr = rq.addr ∧ f.len = rq.len ∧ f.closed = false)) →
          Gives (.pkgMemAccess rq) s (fun t => t.mem = s.mem ∧ t.out = s.out ∧
            (∃ w, (t.mc st).queue = (s.mc st).queue ++ [w] ∧ joins w) ∧
            (t.mc st).fetches = (s.mc st).fetches ++ [{ addr := rq.addr, len := rq.len, tags := [rq.tag], closed := false, ep := s.sec.epoch
                                                        data := (List.range rq.len).map (fun i => readByte s.mem (rq.addr + i))
                                                        status := if s.poisonTouch rq.addr rq.len then 0x60 else 0 }])) ∧
        (rq.write = false → (∃ f ∈ (s.mc st).fetches, f.addr = rq.addr ∧ f.len = rq.len ∧ f.closed = false) →
          Gives (.pkgMemAccess rq) s (fun t => t.mem = s.mem ∧ t.out = s.out ∧ (t.mc st).queue = (s.mc st).queue ∧
            (t.mc st).fetches.length = (s.mc st).fetches.length))))

/-- Row slots and completions (10 R306, R307; 01 R30, R31): the slot goes to the save class first, then to FCFS where none of the last three
went there and to the deadline class otherwise, in it by dry time; a request's last slot takes it off the queue; a fetch answers every
request merged into it, with its data or with ROW_RETIRED, and the rows of a stream that it was for have come; a write answers OK. The memory
patrol (16 R459, R460): granule after granule of a stack; a row corrected on three passes is queued for repair; an uncorrectable error
poisons the granule; without the memory rails it rests. -/
def Obligations.RowSlotsCompletionsAndPatrol : Prop :=
  (
  ∀ (s : State) (st : StackId) (tag row : Nat) (f : Fetch) (v w : Waiting) (rest : List Waiting) (others : List Waiting),
    let m := s.mc st
    let leaves (q : List Waiting) : Prop := Gives (.rowSlotGrant st) s (fun t => (t.mc st).queue = q ∧ t.mem = s.mem ∧ t.out = s.out)
    let tenant : Prop := ∀ q ∈ f.tags, q < 2 ^ 32
    (m.queue = [] → exec (.rowSlotGrant st) s = .next (s.modMc st (fun _ => m))) ∧
    (m.queue = w :: rest → w.cls = .save → (∀ v ∈ rest, v.cls ≠ .save) →
      (1 < w.slots → leaves ({ w with slots := w.slots - 1 } :: rest)) ∧
      (w.slots ≤ 1 → leaves rest ∧ Gives (.rowSlotGrant st) s (fun t =>
        (t.mc st).writing = if w.write = true then m.writing ++ [w] else m.writing))) ∧
    (m.queue = [v, w] → v.slots ≤ 1 → w.slots ≤ 1 →
      (v.cls = .deadline → w.cls = .fcfs → (true ∈ m.recent → leaves [w]) ∧ (true ∉ m.recent → leaves [v])) ∧
      (v.cls = .deadline → w.cls = .deadline → (v.dry < w.dry → leaves [w]) ∧ (w.dry < v.dry → leaves [v])) ∧
      (v.cls = .fcfs → w.cls = .fcfs → v.tick = w.tick → w.bay < v.bay → leaves [v])) ∧
    (m.fetches = [f] → tag ∈ f.tags → m.queue = [] →
      (tenant → f.status = 0 → Gives (.pkgMemFetchComplete st tag .clean row) s (fun t => (t.mc st).fetches = [] ∧ t.mem = s.mem ∧
        t.out = s.out ++ f.tags.map (fun q => .memDone q 0x00 f.data))) ∧
      (tenant → f.status ≠ 0 → Gives (.pkgMemFetchComplete st tag .clean row) s (fun t => (t.mc st).fetches = [] ∧ t.mem = s.mem ∧
        t.out = s.out ++ f.tags.map (fun q => .memDone q 0x60 []))) ∧
      (tenant → Gives (.pkgMemFetchComplete st tag .uncorrectable row) s (fun t => (t.mc st).fetches = [] ∧ t.mem = s.mem ∧
        f.addr / 4096 ∈ t.ras.poison ∧ row ∈ t.ras.pending ∧ (∀ q ∈ f.tags, Out.memDone q 0x60 [] ∈ t.out))) ∧
      (∀ n c k (y : Strm) g, f.tags = [tag] → 2 ^ 32 ≤ tag → f.status = 0 → f.data ≠ [] → s.cores = [(n, c)] → c.strms = [(k, y)] →
        y.fly = [g] → g.rtag = tag → g.ret = false → Gives (.pkgMemFetchComplete st tag .clean row) s (fun t =>
          ((t.core n).strm k).fly = [{ g with ret := true, data := (f.data.drop (g.addr - f.addr)).take g.len }] ∧
          (t.core n).spad = c.spad ∧ t.mem = s.mem ∧ t.out = s.out))) ∧
    ((∀ g ∈ m.fetches, tag ∉ g.tags) → ∀ e, exec (.pkgMemFetchComplete st tag e row) s = .next s) ∧
    (m.writing = w :: others → w.tag = tag → tag < 2 ^ 32 → Gives (.pkgMemWriteComplete st tag) s (fun t =>
      (t.mc st).writing = others ∧ t.out = s.out ++ [.memDone tag 0x00 []] ∧ t.mem = s.mem))) ∧ (
  ∀ (s : State) (st : StackId) (row words : Nat) (late : Bool),
    let m := s.mc st
    let g := m.granule
    let old := tget [] s.ras.rowHits row
    let hits := if m.pass ∈ old then old else old ++ [m.pass]
    let on (t : State) : Prop := (t.mc st).granule = (g + 1) % 4194304 ∧ (t.mc st).pass = (if g + 1 = 4194304 then m.pass + 1 else m.pass) ∧
      t.mem = s.mem
    (∀ e, s.dev.memRails = false → exec (.memPatrol st e row late) s = .next s) ∧
    (s.dev.memRails = true →
      Gives (.memPatrol st .clean row late) s (fun t => on t ∧ t.ras = s.ras ∧ t.out = s.out) ∧
      Gives (.memPatrol st (.corrected words) row late) s (fun t => on t ∧ tget [] t.ras.rowHits row = hits ∧
        (row ∈ t.ras.pending ↔ row ∈ s.ras.pending ∨ 3 ≤ hits.length) ∧ t.ras.poison = s.ras.poison) ∧
      Gives (.memPatrol st .uncorrectable row late) s (fun t => on t ∧
        g * 6 + st.val ∈ t.ras.poison ∧ row ∈ t.ras.pending ∧ t.mgt.logSeq = (s.mgt.logSeq + 1) % 2 ^ 32)))

/-- A BAR2 TLP (03 R86, R94, R95; 06 R189, R203): a write of the paddock's own frames changes exactly its bytes, a read answers them;
outside the window or the frames it is recorded and refused, a read with Completer Abort; a request off the bound stream of a TDI in RUN is
an unsupported request; one under a destroyed key is dropped and counted. A read of a poisoned granule is aborted by the model's choice (log
48, DEDUCED); which error message goes with a refusal is too (log 50, PRESUMED). -/
def Obligations.Bar2Accesses : Prop :=
  ∀ (s : State) (p : PdkId) (off len : Nat) (data : List Byte) (ide : Option Nat),
    let fn := p.val + 1
    let idx := (s.pdk p).win + off / 2 ^ 21
    let a := ((s.quota p).frameBase + idx) * 2 ^ 21 + off % 2 ^ 21
    (Heeds s fn ide → s.bar2Check p true a idx len = none → data.length = len → Gives (.bar2Tlp p true off len data ide) s (fun t =>
      (∀ x, readByte t.mem x = if a ≤ x ∧ x < a + len ∧ x / 4096 ∉ s.ras.dead then data.getD (x - a) 0 else readByte s.mem x) ∧
      t.out = s.out ∧ t.pdks = s.pdks)) ∧
    (Heeds s fn ide → s.bar2Check p false a idx len = none →
      (s.poisonTouch a len = false → Gives (.bar2Tlp p false off len data ide) s (fun t => t.mem = s.mem ∧ t.pdks = s.pdks ∧
        t.out = s.out ++ [.cpl fn .success ((List.range len).map (fun i => readByte s.mem (a + i)))])) ∧
      (s.poisonTouch a len = true → exec (.bar2Tlp p false off len data ide) s =
        .next ((s.errMsg fn false false).send (.cpl fn .abort [])))) ∧
    (Heeds s fn ide → (s.quota p).frameCount ≤ idx →
      exec (.bar2Tlp p true off len data ide) s = .next (s.refuse fn 0x13 1 off) ∧
      exec (.bar2Tlp p false off len data ide) s = .next (((s.refuse fn 0x13 1 off).errMsg fn false false).send (.cpl fn .abort []))) ∧
    (s.keyGone ide = false → s.ideBad fn ide = true →
      exec (.bar2Tlp p true off len data ide) s = .next ((s.refuse fn 0x13 1 off).errMsg fn true true) ∧
      exec (.bar2Tlp p false off len data ide) s =
        .next (((s.refuse fn 0x13 1 off).errMsg fn false true).send (.cpl fn .unsupported []))) ∧
    (s.keyGone ide = true → ∀ write, exec (.bar2Tlp p write off len data ide) s = .next s.countRetired)

/-! ### Power, resets and removal (02, 03) -/

/-- Rails (02 R57-R59, R61, R62, R473): an update moves each die's rail by at most 10 mV, keeps it at or above 0.72 V and at or below 0.84 V
where it was, and steps down where the beat monitor showed more than 2,560; a trip holds every rail at 0.72 V; the base die's rail is the
lowest of the others where its own reading was not above 2,560, and 0.72 V while the compute dies have none; during a controller restart the
rails hold. PWR_CAP clamps a limit outside 500 to 900 W and says so (02 R60); PDK_PACE takes a valid pace of a paddock whose image allows it
and refuses any other (02 R52, R53). -/
def Obligations.RailsPowerCapAndPace : Prop :=
  (
  ∀ (s : State) (cap therm mon : List Nat) (base d : Nat), d < 4 →
    (s.dev.baseOn = true → s.mgt.restart = false → s.dev.computeRails = true → Gives (.railUpdate cap therm mon base) s (fun t =>
      (720 ≤ s.rail d → s.rail d ≤ 840 → s.dev.tripSeal = false →
        720 ≤ t.rail d ∧ t.rail d ≤ 840 ∧ t.rail d ≤ s.rail d + 10 ∧ s.rail d ≤ t.rail d + 10 ∧
        (2560 < tget 0 s.dev.beatMon d → t.rail d = max 720 (s.rail d - 10))) ∧
      (s.dev.tripSeal = true → t.rail d = 720) ∧
      (s.dev.beatBase ≤ 2560 → (∀ e, e < 4 → t.dev.baseRailMv ≤ t.rail e) ∧
        (t.dev.baseRailMv = 840 ∨ ∃ e, e < 4 ∧ t.dev.baseRailMv = t.rail e)) ∧
      t.dev.beatBase = base ∧ tget 0 t.dev.beatMon d = mon.getD d 0 ∧ t.mem = s.mem ∧ t.dev.phase = s.dev.phase ∧
      t.dev.capWatts = s.dev.capWatts ∧ (∀ n, t.core n = s.core n))) ∧
    (s.dev.baseOn = true → s.mgt.restart = false → s.dev.computeRails = false → Gives (.railUpdate cap therm mon base) s (fun t =>
      t.rail d = 0 ∧ t.dev.baseRailMv = 720 ∧ t.mem = s.mem)) ∧
    (s.mgt.restart = true → exec (.railUpdate cap therm mon base) s = .next s)) ∧ (
  ∀ (s : State) (v : Word) (p : PdkId) (ide : Option Nat),
    let w := bits v.toNat 9 0
    let n := bits v.toNat 14 8
    let on := bitAt v.toNat 0
    let paced : Prop := ∃ img, (s.pdk p).img = some img ∧ bitAt img.features 3 = true
    exec (.pwrCapWrite v) s = .next { s with dev := { s.dev with
      capWatts := if w < 500 then 500 else if 900 < w then 900 else w, clamped := decide (w < 500 ∨ 900 < w) } } ∧
    (Heeds s (p.val + 1) ide →
      ((on = false ∨ (1 ≤ n ∧ n ≤ 108 ∧ paced)) → exec (.pdkPaceWrite p v ide) s = .next (s.modPdk p (fun d =>
        { d with paceEn := on, paceN := n, paceReject := false, paceUnmet := d.paceUnmet && !bitAt v.toNat 17 }))) ∧
      (on = true → (n = 0 ∨ 108 < n ∨ ¬paced) →
        exec (.pdkPaceWrite p v ide) s = .next (s.modPdk p (fun d => { d with paceReject := true })))) ∧
    (s.keyGone ide = false → s.ideBad (p.val + 1) ide = true →
      exec (.pdkPaceWrite p v ide) s = .next ((s.refuse (p.val + 1) 0x13 0 0x80).errMsg (p.val + 1) true true)) ∧
    (s.keyGone ide = true → exec (.pdkPaceWrite p v ide) s = .next s.countRetired))

/-- Temperature (02 R54, R58, R62-R64, R473): above 95 °C a rail at floor goes below it by at most 10 mV, not below 0.66 V, and the first
die to do so raises a thermal event for the operator and every paddock that holds a bay; at 93 °C or below it is back at 0.72 V in one
update; above 105 °C every rail is held at 0.72 V and every running paddock suspended; once no bay holds a job the device is in a tripped
STANDBY, its compute rails gone and its memory kept. That RAIL_UPDATE does not raise a die below floor, and that a trip leaves a requested
STANDBY to its request, is the model's (log 49, DEDUCED). -/
def Obligations.ThermalSteps : Prop :=
  ∀ (s : State) (d : DieId) (tj mv mon : Nat), s.dev.computeRails = true →
    (s.mgt.restart = false → s.dev.tripSeal = false → 95 < tj → s.rail d ≤ 720 → 660 ≤ s.rail d →
      Gives (.junctionAboveFloor d tj mv) s (fun t => t.rail d = max 660 (max (s.rail d - 10) (min mv (s.rail d))) ∧
        tget 0 t.dev.tj d = tj ∧ (∀ e, e ≠ d.val → t.rail e = s.rail e) ∧ (t.rail d < 720 → t.dev.subfloor = true) ∧
        (s.dev.subfloor = false → t.rail d < 720 → bitAt t.dev.pwrEvent.toNat 0 = true ∧
          ∀ p, p < 64 → s.baysOf p ≠ [] → bitAt (t.pdk p).event.toNat 1 = true) ∧
        (s.dev.baseOn = true → ∀ e, e < 4 → t.dev.baseRailMv ≤ t.rail e) ∧ t.dev.phase = s.dev.phase ∧ t.mem = s.mem)) ∧
    (s.dev.tripSeal = true → exec (.junctionAboveFloor d tj mv) s = .next { s with dev := { s.dev with tj := tset s.dev.tj d tj } }) ∧
    (s.mgt.restart = false → tj ≤ 93 → s.rail d < 720 → s.rail d ≠ 0 → Gives (.junctionRecovered d tj mon) s (fun t =>
      t.rail d = 720 ∧ tget 0 t.dev.beatMon d = mon ∧ tget 0 t.dev.tj d = tj ∧ (∀ e, e ≠ d.val → t.rail e = s.rail e) ∧
      ((∀ e, e < 4 → e ≠ d.val → s.rail e = 0 ∨ 720 ≤ s.rail e) → t.dev.subfloor = false) ∧ t.mem = s.mem)) ∧
    (s.dev.baseOn = true → s.mgt.restart = false → s.dev.tripSeal = false → s.rail d < 720 → 660 ≤ s.rail d → ∀ cap therm mon base,
      Gives (.railUpdate cap therm mon base) s (fun t => t.rail d ≤ s.rail d ∧ s.rail d ≤ t.rail d + 10 ∧ 660 ≤ t.rail d)) ∧
    (93 < tj → exec (.junctionRecovered d tj mon) s = .next { s with dev := { s.dev with tj := tset s.dev.tj d tj } }) ∧
    (105 < tj → s.dev.tripSeal = false → Gives (.thermalTrip d tj) s (fun t =>
      (∀ e, e < 4 → t.rail e = 720) ∧ t.dev.subfloor = false ∧ tget 0 t.dev.tj d = tj ∧ t.mem = s.mem ∧
      (s.dev.trans ≠ .toStandby → t.dev.tripSeal = true ∧ t.dev.trans = .trip ∧
        ∀ p, p < 64 → ((s.pdk p).st = .runnable ∨ (s.pdk p).st = .running ∨ (s.pdk p).st = .suspended) →
          (t.pdk p).st = .suspended ∧ (t.pdk p).susp.trip = true) ∧
      (s.dev.trans = .toStandby → t.dev.trans = .toStandby ∧ t.dev.tripSeal = false))) ∧
    (s.dev.tripSeal = true → (∀ b, b < 16 → (s.bay b).job = none) → Gives .tripEnterStandby s (fun t =>
      t.dev.phase = .standby ∧ t.dev.standbyKind = .tripped ∧ t.dev.computeRails = false ∧ t.dev.memRails = s.dev.memRails ∧
      (∀ e, t.rail e = 0) ∧ t.dev.baseRailMv = 720 ∧
      t.dev.tripped = true ∧ t.dev.tripSeal = false ∧ (∀ b, b < 16 → (t.bay b).holder = none) ∧ t.mem = s.mem ∧ t.plat = s.plat)) ∧
    ((∃ b, b < 16 ∧ (s.bay b).job ≠ none) → exec .tripEnterStandby s = .next s)

/-- Power sequence (02 R44, R48, R473; 03 R70, R72, R77; 04 R130; 16 R448): auxiliary power boots the controller, which checks the
compatibility matrix; main power gives the base rails, PERST_N and the reference clock allow training, at whose start the timestamp counter
begins at zero; the ramp ends in INIT with memory zero and every rail between 0.72 V and 0.84 V, or in RESTRICTED for a combination that the
matrix does not list. -/
def Obligations.PowerOnSequence : Prop :=
  ∀ (s : State) (fw uc : Bool) (bad : List Nat),
    (s.dev.aux = false → Gives (.auxPowerOn fw uc) s (fun t => t.dev.aux = true ∧ t.dev.booted = true ∧
      (t.dev.compatBad = true ↔ Config.matrixLists (t.runVersion 1) (t.runVersion 2) = false) ∧
      t.mgt.boot = s.mgt.boot + 1 ∧ t.sec.aliasKey = true ∧ t.dev.phase = s.dev.phase ∧ t.mem = s.mem)) ∧
    (s.dev.aux = true → exec (.auxPowerOn fw uc) s = .next s) ∧
    (s.dev.baseOn = false → s.dev.aux = true → s.dev.booted = true → exec .mainPowerOn s = .next { s with dev := { s.dev with
      p54 := true, removal := .none, baseOn := true, phase := .standby, standbyKind := .reset, baseRailMv := 720, tscHold := true } }) ∧
    exec .perstDeassert s = .next { s with dev := { s.dev with perst := false, needPerst := s.dev.needPerst && !s.dev.perst } } ∧
    exec .refclkStart s = .next { s with dev := { s.dev with refclk := true }, mgt := { s.mgt with osc := false } } ∧
    (s.dev.baseOn = true → s.dev.perst = false → s.dev.conv = none → s.dev.link = .down → s.dev.needPerst = false → s.dev.refclk = true →
      s.dev.phase = .standby → exec .linkTrainingStart s = .next { s with dev := { s.dev with
        link := .training, tsc := 0, tscHold := false, everTrained := true, removal := .none } }) ∧
    (s.dev.needPerst = true → exec .linkTrainingStart s = .next s) ∧
    (s.dev.link = .training → exec .configurationReady s = .next { s with dev := { s.dev with link := .up, cfgReady := true } }) ∧
    (s.dev.phase = .standby → s.dev.conv = none → s.dev.standbyKind = .reset → (s.dev.link = .up ∨ s.dev.link = .training) →
      (s.dev.compatBad = false → Gives (.rampComplete bad) s (fun t => t.dev.phase = .init ∧ t.dev.computeRails = true ∧
        t.dev.memRails = true ∧ t.dev.ramp = false ∧ t.mem = [] ∧ t.yard = {} ∧ t.ras.poison = [] ∧ t.ras.pending = [] ∧
        (∀ d, d < 4 → 720 ≤ t.rail d ∧ t.rail d ≤ 840) ∧ (∀ n, n < 256 → (t.core n).spad = [] ∧ (t.core n).patrol = []))) ∧
      (s.dev.compatBad = true → Gives (.rampComplete bad) s (fun t => t.dev.phase = .restricted ∧ t.dev.compatFail = true ∧
        t.dev.computeRails = s.dev.computeRails ∧ t.mem = s.mem))) ∧
    (s.dev.phase ≠ .standby → exec (.rampComplete bad) s = .next s)

/-- A conventional reset, whatever its trigger (03 R76, R78, R79, R82, R83; 05 R133; 06 R174): the device is in STANDBY without compute or
memory rails, the timestamp counter holds, every session, key and ring is gone and the platform image with them, and every paddock that was
not EMPTY is in TEARDOWN, to be EMPTY when the reset ends; the power limit and the error log are kept. It ends in STANDBY with the Alias key
derived again. A reference clock or a link lost while a reset runs still asks for a PERST_N cycle. -/
def Obligations.ConventionalResets : Prop :=
  (
  ∀ (s : State), s.dev.conv = none →
    let reset (kind : ConvKind) (t : State) : Prop := t.dev.phase = .standby ∧ t.dev.conv = some kind ∧ t.dev.tscHold = true ∧
      t.dev.computeRails = false ∧ t.dev.memRails = false ∧ t.dev.cfgReady = false ∧ t.plat = none ∧ t.rings = [] ∧
      (∀ p d, (p, d) ∈ t.pdks → d.st = .teardown ∧ ∃ e, (p, e) ∈ s.pdks ∧ e.st ≠ .empty) ∧
      (∀ p e, (p, e) ∈ s.pdks → e.st ≠ .empty → ∃ d, (p, d) ∈ t.pdks) ∧
      t.own = [] ∧ t.sec.doe = [] ∧ t.sec.mctp = [] ∧ t.sec.ide = [] ∧ t.sec.tdi = [] ∧ t.hif.fns = [] ∧ t.hif.vfEnable = false ∧
      t.dev.railMv = [] ∧ t.dev.baseRailMv = (if s.dev.baseOn = true then 720 else 0) ∧
      t.dev.capWatts = s.dev.capWatts ∧ t.mgt.keys = s.mgt.keys ∧ s.mgt.log.length ≤ t.mgt.log.length + 1 ∧ t.pending = s.pending
    let linked : Prop := s.dev.link = .up ∨ s.dev.link = .training
    (s.dev.baseOn = true → Gives .perstAssert s (fun t => reset .perst t ∧ t.dev.perst = true ∧ t.dev.link = .down)) ∧
    (s.dev.baseOn = false → exec .perstAssert s = .next { s with dev := { s.dev with perst := true } }) ∧
    (linked → Gives .hotReset s (fun t => reset .hot t ∧ t.dev.link = .down)) ∧
    (linked → Gives .linkDisable s (fun t => reset .disable t ∧ t.dev.link = .disabled)) ∧
    (s.dev.link = .disabled → exec .linkDisableCleared s = .next { s with dev := { s.dev with link := .down } }) ∧
    (linked → Gives .linkDown s (fun t => reset .surprise t ∧ t.dev.link = .down ∧ t.dev.needPerst = true)) ∧
    (s.dev.refclk = true → s.dev.baseOn = true → Gives .refclkStop s (fun t => reset .surprise t ∧ t.dev.refclk = false ∧
      t.mgt.osc = true ∧ t.dev.needPerst = true)) ∧
    (s.dev.refclk = false → exec .refclkStop s = .next s) ∧
    exec .conventionalResetDone s = .next s ∧
    (∀ kind u, u = { s with dev := { s.dev with conv := some kind } } → Gives .conventionalResetDone u (fun t => t.dev.conv = none ∧
      t.pdks = [] ∧ t.sec.aliasKey = true ∧ t.dev.phase = s.dev.phase ∧ t.plat = s.plat ∧ t.mem = s.mem))) ∧ (
  ∀ (s : State) (kind : ConvKind), s.dev.conv = some kind →
    (s.dev.refclk = true → s.dev.baseOn = true → Gives .refclkStop s (fun t => t.dev.needPerst = true ∧ t.dev.conv = some kind ∧
      t.dev.refclk = false ∧ t.dev.link = .down)) ∧
    ((s.dev.link = .up ∨ s.dev.link = .training) → Gives .linkDown s (fun t => t.dev.needPerst = true ∧ t.dev.conv = some kind)))

/-- Loss of power (03 R68, R69, R76, R81, R82): without P54V the device is OFF with the controller up; without the auxiliary supply
everything volatile is lost, a cold reset, and memory with it; what flash holds is kept. A record of a surprise removal is written, unless
P54V went after a STANDBY entered by request and PERST_N or Link Disable, and the auxiliary supply after that. -/
def Obligations.PowerLoss : Prop :=
  ∀ (s : State) (mv : Nat),
    let orderly : Prop := s.dev.removal = .standby ∧ (s.dev.perst = true ∨ s.dev.link = .disabled)
    let last (x : State) (event what : Nat) : Prop :=
      ∃ r, x.mgt.log.getLast? = some r ∧ r.kind = 6 ∧ r.event = event ∧ r.detail = [what]
    (s.dev.p54 = true → Gives (.p54vLoss mv) s (fun t => t.dev.phase = .off ∧ t.dev.p54 = false ∧ t.dev.baseOn = false ∧
      t.dev.computeRails = false ∧ t.dev.memRails = false ∧ t.dev.conv = none ∧ t.plat = none ∧ t.pdks = [] ∧ t.dev.aux = s.dev.aux ∧
      t.sec.rng.running = false ∧ t.sec.rng.passRun = 0 ∧ t.sec.doe = [] ∧ t.mgt.keys = s.mgt.keys ∧
      ((∀ n, n < 256 → (s.core n).marked = []) → (¬orderly → last t 1 1) ∧ (orderly → last t 3 mv))) ∧
      exec (.p54vLowTimeout mv) s = exec (.p54vLoss mv) s) ∧
    (s.dev.p54 = false → exec (.p54vLoss mv) s = .next s ∧ exec (.p54vLowTimeout mv) s = .next s) ∧
    (s.dev.aux = true → Gives (.auxLoss mv) s (fun t => t.dev = { p54 := s.dev.p54, perst := s.dev.perst, refclk := s.dev.refclk } ∧
      t.mem = [] ∧ t.pdks = [] ∧ t.rings = [] ∧ t.plat = none ∧ t.bays = [] ∧ t.mgt.keys = s.mgt.keys ∧
      t.sec = { rng := { draws := s.sec.rng.draws }, nextSid := s.sec.nextSid } ∧
      t.mgt.boot = s.mgt.boot ∧ t.pending = s.pending ∧ (∀ n, (t.core n).spad = [] ∧ (t.core n).x = []) ∧
      (∀ fn, t.fnCfg fn = {}) ∧ (s.dev.removal ≠ .unpowered → last t 1 2) ∧ (s.dev.removal = .unpowered → last t 3 mv))) ∧
    (s.dev.aux = false → exec (.auxLoss mv) s = .next s)

/-- STANDBY on request and power-up (03 R73-R75; 02 R64): refused while a paddock is not EMPTY unless forced; entered when every paddock is
EMPTY, the rails and the platform image gone; power-up ramps again, after a trip only where every die is at 85 °C or below. Power of single
bays (06 R198, R201): a power-down takes an idle bay out of service and, its scrub confirmed, its power; a power-up brings it back scrubbed
and ONLINE. -/
def Obligations.StandbyPowerUpAndBayPower : Prop :=
  (
  ∀ (s : State) (force : Bool),
    let busy : Prop := ∃ p, p < 64 ∧ (s.pdk p).st ≠ .empty
    (s.dev.trans = .none → (s.dev.phase = .init ∨ s.dev.phase = .ready) →
      (busy → exec (.standbyRequest false) s = .next { s with dev := { s.dev with pwrRefused := true } }) ∧
      (¬busy → exec (.standbyRequest force) s = .next { s with dev := { s.dev with pwrRefused := false, trans := .toStandby } }) ∧
      (busy → Gives (.standbyRequest true) s (fun t => t.dev.trans = .toStandby ∧ t.dev.pwrRefused = false ∧
        ∀ p, p < 64 → (s.pdk p).st ≠ .empty → (t.pdk p).st = .teardown))) ∧
    (s.dev.trans ≠ .none → exec (.standbyRequest force) s = .next s) ∧
    (s.dev.trans = .toStandby → ¬busy → Gives .standbyTransitionDone s (fun t => t.dev.phase = .standby ∧ t.dev.standbyKind = .requested ∧
      t.dev.trans = .none ∧ t.dev.computeRails = false ∧ t.dev.memRails = false ∧ t.dev.baseRailMv = 720 ∧ t.dev.removal = .standby ∧
      t.plat = none ∧ t.own = s.own ∧ t.sec.doe = [] ∧ t.sec.mctp = [])) ∧
    (s.dev.trans = .toStandby → busy → exec .standbyTransitionDone s = .next s) ∧
    (s.dev.phase = .standby → s.dev.trans = .none →
      (s.dev.standbyKind = .requested → exec .powerUp s = .next { s with dev := { s.dev with
        pwrRefused := false, ramp := true, removal := .none, trans := .fromStandby } }) ∧
      (s.dev.standbyKind = .tripped → (∀ e ∈ s.dev.tj, e.2 ≤ 85) → exec .powerUp s = .next { s with dev := { s.dev with
        pwrRefused := false, trans := .fromTrip } }) ∧
      (s.dev.standbyKind = .tripped → (∃ e ∈ s.dev.tj, 85 < e.2) →
        exec .powerUp s = .next { s with dev := { s.dev with pwrRefused := true } }) ∧
      (s.dev.standbyKind = .reset → exec .powerUp s = .next s)) ∧
    (s.dev.trans = .fromTrip → Gives .powerUpAfterTripDone s (fun t => t.dev.computeRails = true ∧ t.dev.tripped = false ∧
      (∀ d, d < 4 → 720 ≤ t.rail d ∧ t.rail d ≤ 840) ∧
      t.dev.trans = .none ∧ t.dev.phase = (if s.plat = none then .init else .ready) ∧ t.mem = s.mem ∧ t.plat = s.plat))) ∧ (
  ∀ (s : State) (b : BayId) (mask : BitVec 16), bitAt mask.toNat b = true →
    (s.dev.phase = .ready → (s.bay b).powered = true → (s.bay b).pendOff = false → (s.bay b).test = none → (s.bay b).job = none →
      Gives (.bayPowerDown mask) s (fun t => (t.bay b).pendOff = true ∧ (t.bay b).unit_ = .draining ∧
        (t.bay b).stopping = some .powerDown ∧ (t.bay b).stopped = true ∧ (t.bay b).powered = true ∧ t.mem = s.mem)) ∧
    (s.dev.phase ≠ .ready → exec (.bayPowerDown mask) s = .next s) ∧
    ((s.bay b).pendOff = true → (s.bay b).job = none → (s.bay b).stopping = none → (s.bay b).scrubbed = true →
      Gives (.bayScrubConfirmed b) s (fun t => (t.bay b).powered = false ∧ (t.bay b).pendOff = false ∧ (t.bay b).unit_ = .offline ∧
        t.mem = s.mem)) ∧
    ((s.bay b).job ≠ none → exec (.bayScrubConfirmed b) s = .next s) ∧
    ((s.bay b).powered = false → Gives (.bayPowerUp mask) s (fun t => (t.bay b).pendOn = true ∧ (t.bay b).powered = false ∧
      (∀ c, c < 16 → bitAt mask.toNat c = false → t.bay c = s.bay c) ∧ t.mem = s.mem ∧ t.out = s.out)) ∧
    ((s.bay b).pendOn = true → (s.bay b).powered = false → s.dev.computeRails = true →
      Gives (.bayPowerUpComplete b) s (fun t => (t.bay b).powered = true ∧ (t.bay b).pendOn = false ∧ (t.bay b).unit_ = .online ∧
        (t.bay b).scrubbed = true ∧ (∀ n, n / 16 = b.val → (t.core n).spad = [] ∧ (t.core n).patrol = []) ∧ t.mem = s.mem)) ∧
    ((s.bay b).pendOn = false → exec (.bayPowerUpComplete b) s = .next s))

/-! ### Functions, configuration and the host's accesses (03, 05, 06) -/

/-- Function Level Resets (03 R76, R83, R88; 05 R171): a VF's tears its paddock down, or zeroes the frames of an EMPTY one, and resets the
function; PF0's does so for every VF and then discards the platform image and zeroes package memory, and leaves the device in INIT, from a
STANDBY that was requested, too (log 68, DEDUCED); clearing VF Enable resets every VF. -/
def Obligations.FunctionResets : Prop :=
  ∀ (s : State) (p : PdkId),
    let reset (t : State) (q : Nat) : Prop := t.fnCfg (q + 1) = {} ∧ ((s.pdk q).st ≠ .empty → (t.pdk q).st = .teardown)
    let asked : Prop := s.dev.phase = .standby ∧ s.dev.standbyKind = .requested ∧ s.dev.trans = .none
    (s.vfOn p = false → exec (.vfFlr p) s = .next s) ∧ (s.hif.vfEnable = false → exec .vfEnableClear s = .next s) ∧
    (s.vfOn p = true →
      Gives (.vfFlr p) s (fun t => reset t p ∧
        ((s.pdk p).st ≠ .empty → (s.pdk p).st ≠ .teardown → t.mem = s.mem ∧ (t.pdk p).td = some { drained := false, flr := true }) ∧
        ((s.pdk p).st = .empty → t.tdi p = {} ∧ ∀ a, readByte t.mem a =
          if (s.quota p).frameBase * 2 ^ 21 ≤ a ∧ a < ((s.quota p).frameBase + (s.quota p).frameCount) * 2 ^ 21 then 0
          else readByte s.mem a))) ∧
    (s.hif.vfEnable = true → Gives .vfEnableClear s (fun t => t.hif.vfEnable = false ∧ ∀ q, q < 64 → reset t q)) ∧
    (s.dev.phase ≠ .off → s.dev.conv = none → Gives .pf0Flr s (fun t => t.dev.flr0 = true ∧ t.hif.vfEnable = false ∧ t.hif.numVfs = 0 ∧
      (∀ fn, t.fnCfg fn = {}) ∧ (∀ q, q < 64 → (s.pdk q).st ≠ .empty → (t.pdk q).st = .teardown) ∧
      (∀ k, (tget {} s.sec.ide k).vf ≠ none → (tget {} t.sec.ide k).keys = []) ∧ t.dev.phase = s.dev.phase)) ∧
    (s.dev.flr0 = true → (∀ q, q < 64 → (s.pdk q).st = .empty) → Gives .pf0FlrComplete s (fun t => t.dev.flr0 = false ∧ t.plat = none ∧
      t.mem = [] ∧ t.own = s.own ∧ t.yard = {} ∧ t.pdks = s.pdks ∧
      (asked → t.dev.phase = .init ∧ t.dev.computeRails = true ∧ t.dev.memRails = true) ∧
      (¬asked → t.dev.phase = (if s.dev.phase = .ready then .init else s.dev.phase)))) ∧
    (s.dev.flr0 = false ∨ (∃ q, q < 64 ∧ (s.pdk q).st ≠ .empty) → exec .pf0FlrComplete s = .next s)

/-- D3hot and Bus Master Enable (03 R87; 05 R133-R135): each suspends the paddock by its own cause, PF0's D3hot every paddock; the end of
the last cause makes it RUNNING where it holds bays, else RUNNABLE. -/
def Obligations.FunctionPowerStates : Prop :=
  ∀ (s : State) (p : PdkId),
    let active (q : Nat) : Prop := (s.pdk q).st = .runnable ∨ (s.pdk q).st = .running ∨ (s.pdk q).st = .suspended
    let suspended (t : State) (q : Nat) : Prop := (t.pdk q).st = .suspended ∧ ((s.pdk q).st ≠ .suspended →
      ∀ b, b < 16 → (s.bay b).holder = some q → (t.bay b).stopping ≠ none)
    let going : PdkSt := if s.baysOf p = [] then .runnable else .running
    Gives (.vfD3hot p) s (fun t => (t.fnCfg (p + 1)).d3 = true ∧ t.mem = s.mem ∧
      (active p → suspended t p ∧ (t.pdk p).susp.d3vf = true) ∧ (¬active p → (t.pdk p).st = (s.pdk p).st)) ∧
    Gives .pf0D3hot s (fun t => (t.fnCfg 0).d3 = true ∧ t.mem = s.mem ∧
      ∀ q, q < 64 → active q → suspended t q ∧ (t.pdk q).susp.d3pf = true) ∧
    Gives (.vfBmeClear p) s (fun t => (t.fnCfg (p + 1)).bme = false ∧ t.mem = s.mem ∧
      (active p → suspended t p ∧ (t.pdk p).susp.bme = true)) ∧
    Gives (.vfD0 ⟨p + 1, by omega⟩) s (fun t => (t.fnCfg (p + 1)).d3 = false ∧ t.mem = s.mem ∧
      ((s.pdk p).st = .suspended → (s.pdk p).susp = { d3vf := true } → (t.pdk p).st = going) ∧
      ((s.pdk p).st = .suspended → (s.pdk p).susp.op = true → (t.pdk p).st = .suspended)) ∧
    Gives (.vfD0 0) s (fun t => (t.fnCfg 0).d3 = false ∧
      ((s.pdk p).st = .suspended → (s.pdk p).susp = { d3pf := true } → (t.pdk p).st = going)) ∧
    Gives (.vfBmeSet p) s (fun t => (t.fnCfg (p + 1)).bme = true ∧ t.mem = s.mem ∧
      ((s.pdk p).st = .suspended → (s.pdk p).susp = { bme := true } → (t.pdk p).st = going))

/-- Configuration and MSI-X (03 R70, R85, R86, R88; 05 R472; 06 R174, R186): a configuration request while the link trains is answered with a
retry; VF Enable is set, and NumVFs while it is clear; a BAR that changes under a locked TDI moves it to ERROR and tears the paddock down, one
written with its own value does not, and so a change of the stream that the TDI is bound to, whose keys are destroyed; a request the part does
not support completes so; vectors no longer held are sent, each once and in ascending order as pending. -/
def Obligations.ConfigurationAndMessages : Prop :=
  ∀ (s : State) (fn : Fn) (p : PdkId) (i k n : Nat) (v : BitVec 32) (mps mrrs : Fin 8) (cor nonfatal fatal ur : Bool) (w : CfgWrite),
    let vf : Fn := ⟨p + 1, by omega⟩
    let locked : Prop := (s.tdi p).st = .locked ∨ (s.tdi p).st = .run
    let old := tget 0 (s.fnCfg (p + 1)).cfg (0x10 + 4 * i)
    exec (.unsupportedTlp fn) s = .next ((s.errMsg fn false true).send (.cpl fn .unsupported [])) ∧
    (s.dev.cfgReady = false → s.dev.link = .training → exec (.configWrite fn w) s = .next (s.send (.cpl fn .retry []))) ∧
    (s.dev.cfgReady = false → s.dev.link ≠ .training → exec (.configWrite fn w) s = .next s) ∧
    (s.dev.cfgReady = true →
      exec (.configWrite 0 .vfEnable) s = .next { s with hif := { s.hif with vfEnable := true } } ∧
      (s.hif.vfEnable = false → exec (.configWrite 0 (.numVfs n)) s = .next { s with hif := { s.hif with numVfs := n } }) ∧
      (s.hif.vfEnable = true → exec (.configWrite 0 (.numVfs n)) s = .next s) ∧
      exec (.configWrite 0 (.deviceControl mps mrrs cor nonfatal fatal ur)) s = .next { s with hif := { s.hif with
        mps := mps, mrrs := mrrs, repCor := cor, repNonfatal := nonfatal, repFatal := fatal, repUr := ur } } ∧
      (locked → old ≠ v → Gives (.configWrite vf (.bar i v)) s (fun t => (t.tdi p).st = .error ∧
        tget 0 (t.fnCfg (p + 1)).cfg (0x10 + 4 * i) = v ∧ ((s.pdk p).st ≠ .empty → (t.pdk p).st = .teardown))) ∧
      (¬locked ∨ old = v → exec (.configWrite vf (.bar i v)) s =
        .next (s.modFn (p + 1) (fun f => { f with cfg := tset f.cfg (0x10 + 4 * i) v }))) ∧
      ((tget {} s.sec.ide k).ctl = v → exec (.configWrite 0 (.streamControl k v)) s = .next s) ∧
      ((tget {} s.sec.ide k).ctl ≠ v → Gives (.configWrite 0 (.streamControl k v)) s (fun t =>
        (tget {} t.sec.ide k).ctl = v ∧ (tget {} t.sec.ide k).keys = [] ∧
        ((tget {} s.sec.ide k).vf = some p.val → locked → (t.tdi p).st = .error)))) ∧
    ((fn = 0 ∨ ∀ e ∈ s.rings, e.1 / 256 = fn - 1 → e.2.cpls = []) → Gives (.msixRelease fn) s (fun t =>
      t.out = s.out ++ (s.releasable fn).map (fun v => .msix fn v (s.ideOf fn)) ∧
      (∀ v ∈ s.releasable fn, tget false (t.fnCfg fn).pba v = false) ∧ t.mem = s.mem ∧ t.pdks = s.pdks))

/-- Accesses to BAR0 (00 R8, R471; 03 R86, R91, R92, R97; 06 R175, R189, R203): silence before the link is configured; outside the BAR, or
to a VF not enabled, an unsupported request; under a destroyed stream key dropped and counted; with a wrong size or alignment ALIGN_FAULT,
recorded, a read aborted; otherwise a read completes with data, HIF_ERR is cleared by its read, a 4-byte read of one half of SCH_EVENT_PDK
clears that half alone (log 70, DEDUCED), and a write of a register without fields changes nothing. -/
def Obligations.HostRegisterAccesses : Prop :=
  ∀ (s : State) (fn : Fn) (off size : Nat) (v : Word) (ide : Option Nat),
    let bar : Nat := if fn = 0 then 0x4000000 else 0x200000
    let wrong : Prop := (size ≠ 4 ∧ size ≠ 8) ∨ off % size ≠ 0
    let there : Prop := fn = 0 ∨ s.vfOn (fn - 1) = true
    (s.dev.cfgReady = false → exec (.registerWrite fn off size v ide) s = .next s ∧ exec (.rcRead fn off size ide) s = .next s) ∧
    (s.dev.cfgReady = true → (s.fnCfg fn).d3 = false →
      (bar < off + size ∨ ¬there → exec (.registerWrite fn off size v ide) s = .next (s.errMsg fn true true) ∧
        exec (.rcRead fn off size ide) s = .next ((s.errMsg fn false true).send (.cpl fn .unsupported []))) ∧
      (off + size ≤ bar → there → s.keyGone ide = true → exec (.registerWrite fn off size v ide) s = .next s.countRetired ∧
        exec (.rcRead fn off size ide) s = .next s.countRetired) ∧
      (off + size ≤ bar → there → s.keyGone ide = false → s.ideBad fn ide = true →
        exec (.registerWrite fn off size v ide) s = .next ((s.refuse fn 0x13 0 off).errMsg fn true true) ∧
        exec (.rcRead fn off size ide) s =
          .next (((s.refuse fn 0x13 0 off).errMsg fn false true).send (.cpl fn .unsupported []))) ∧
      (off + size ≤ bar → there → Heeds s fn ide →
        (wrong → exec (.registerWrite fn off size v ide) s = .next (s.refuse fn 0x11 0 off) ∧
          exec (.rcRead fn off size ide) s = .next (((s.refuse fn 0x11 0 off).errMsg fn false false).send (.cpl fn .abort []))) ∧
        (¬wrong → (0 < fn.val ∨ off < 0x1000000 ∨ 0x2000000 ≤ off) →
          Gives (.rcRead fn off size ide) s (fun t => ∃ data, data.length = size ∧ t.out = s.out ++ [.cpl fn .success data] ∧
            t.mem = s.mem ∧ t.pending = s.pending)))) ∧
    (s.dev.cfgReady = true → (s.fnCfg 0).d3 = false → s.keyGone ide = false →
      Gives (.rcRead 0 0x20 8 ide) s (fun t => t.hif.err = 0 ∧ t.out = s.out ++ [.cpl 0 .success (leBytes 8 s.hif.err.toNat)]) ∧
      Gives (.rcRead 0 0x300808 4 ide) s (fun t => t.sch.eventPdk = s.sch.eventPdk &&& 0xFFFFFFFF00000000 ∧
        t.out = s.out ++ [.cpl 0 .success (leBytes 4 (s.sch.eventPdk.toNat % 2 ^ 32))]) ∧
      Gives (.rcRead 0 0x30080C 4 ide) s (fun t => t.sch.eventPdk = s.sch.eventPdk &&& 0xFFFFFFFF ∧
        t.out = s.out ++ [.cpl 0 .success (leBytes 4 (s.sch.eventPdk.toNat / 2 ^ 32))]) ∧
      exec (.registerWrite 0 0x800010 8 v ide) s = .next (s.pwrCapWrite v.toNat) ∧
      exec (.registerWrite 0 0x28 8 v ide) s = .next s)

/-- The timestamp counter's reads and the other host rows (02 R47; 03 R96, R474): a low-half read latches the high half for the next
high-half read; a window write sets WIN[15:0]; a host read that fails or times out disables its ring with FAULT set; a completion that
nothing waits for is ignored. -/
def Obligations.TimestampWindowAndHostReads : Prop :=
  ∀ (s : State) (fn : Fn) (p : PdkId) (v : Word) (ide : Option Nat) (h : BitVec 32) (tag q k : Nat) (ok : Bool) (data : List Byte),
    let now := s.dev.tsc.toNat
    let answer (t : State) (bytes : List Byte) : Prop := t.out = s.out ++ [.cpl fn .success bytes]
    let failed (t : State) : Prop := (t.ring q k).en = false ∧ (t.ring q k).fault = true ∧ (t.ring q k).fetch = none ∧
      (t.ring q k).cpls = [] ∧ tfind t.hif.reads tag = none ∧ t.mem = s.mem
    (s.dev.cfgReady = true → (s.fnCfg fn).d3 = false → (fn = 0 ∨ (s.vfOn (fn - 1) = true ∧ (s.tdi (fn - 1)).st ≠ .run ∧
        s.keyGone (s.tdi (fn - 1)).stream = false)) →
      Gives (.tscRead fn .full) s (fun t => answer t (leBytes 8 now) ∧ tfind t.hif.latch (2 * fn + 1) = none) ∧
      Gives (.tscRead fn .low) s (fun t => answer t (leBytes 4 (now % 2 ^ 32)) ∧
        tfind t.hif.latch (2 * fn + 1) = some (BitVec.ofNat 32 (now / 2 ^ 32))) ∧
      (tfind s.hif.latch (2 * fn + 1) = some h → Gives (.tscRead fn .high) s (fun t => answer t (leBytes 4 h.toNat) ∧
        tfind t.hif.latch (2 * fn + 1) = none)) ∧
      (tfind s.hif.latch (2 * fn + 1) = none → Gives (.tscRead fn .high) s (fun t => answer t (leBytes 4 (now / 2 ^ 32))))) ∧
    (Heeds s (p + 1) ide →
      exec (.pdkWinWrite p v ide) s = .next (s.modPdk p (fun d => { d with win := v.toNat % 65536 }))) ∧
    (s.keyGone ide = false → s.ideBad (p + 1) ide = true →
      exec (.pdkWinWrite p v ide) s = .next ((s.refuse (p + 1) 0x13 0 0x200).errMsg (p + 1) true true)) ∧
    (s.keyGone ide = true → exec (.pdkWinWrite p v ide) s = .next s.countRetired) ∧
    (tfind s.hif.reads tag = none → exec (.hostCompletion tag ok data) s = .next s ∧ exec (.completionTimeout tag) s = .next s) ∧
    (tfind s.hif.reads tag = some (.sqe q k) → (s.ring q k).fetch = some tag →
      Gives (.hostCompletion tag false data) s failed ∧ Gives (.completionTimeout tag) s failed) ∧
    (tfind s.hif.reads tag = some .image → s.ldr.readErr = false → Gives (.completionTimeout tag) s (fun t =>
      t.ldr.readErr = true ∧ t.ldr.readOut = 0 ∧ t.ldr.staged = s.ldr.staged ∧ tfind t.hif.reads tag = none))

/-! ### Loading images, paddocks and their jobs (04, 05) -/

/-- A load's life (04 R113, R120, R121, R123-R128; 05 R133; 06 R174, R178): GO queues it and locks a tenant's image frames, and is ignored
while one of the function is queued or busy; a tenant load taken makes the paddock LOADING with a fresh root key, or ends with
ENTROPY_FAULT; a check that fails ends it with its code and number; a platform commit makes the device READY, a tenant commit, of the bytes
that were checked, the paddock RUNNABLE, or SUSPENDED after a thermal trip, each with a new epoch. -/
def Obligations.ImageLoads : Prop :=
  ∀ (s : State) (p : PdkId) (fn : Nat) (rest : List Nat),
    let quiet (f : Nat) : Prop := (s.load f).queued = false ∧ (s.load f).busy = false
    let ended (t : State) (f code check : Nat) : Prop := (t.load f).code = code ∧ (t.load f).check = check ∧ (t.load f).done = true ∧
      (t.load f).busy = false ∧ (t.load f).queued = false ∧ t.ldr.cur = none
    (quiet 0 → Gives .ldrGo s (fun t => t.ldr.queue = s.ldr.queue ++ [0] ∧ (t.load 0).queued = true ∧ (t.load 0).done = false ∧
      (t.load 0).code = 0 ∧ (t.load 0).src = (s.load 0).src ∧ t.mem = s.mem ∧ t.out = s.out)) ∧
    (¬quiet 0 → exec .ldrGo s = .next s) ∧
    (s.ideBad (p + 1) none = false →
      (s.vfOn p = true → quiet (p + 1) → Gives (.pdkLoadGo p none) s (fun t => t.ldr.queue = s.ldr.queue ++ [p.val + 1] ∧
        (t.load (p + 1)).queued = true ∧ t.mem = s.mem ∧ t.out = s.out ∧ (t.pdk p).goLock = s.imageFrames p)) ∧
      (s.vfOn p = false ∨ ¬quiet (p + 1) → exec (.pdkLoadGo p none) s = .next s)) ∧
    (s.ldr.cur ≠ none ∨ s.ldr.queue = [] → exec .loaderTake s = .next s) ∧
    (s.ldr.cur = none → s.ldr.queue = 0 :: rest → s.earlyFail 0 = none →
      (s.canMaster 0 = true → Gives .loaderTake s (fun t => t.ldr.queue = rest ∧ t.ldr.cur = some 0 ∧ (t.load 0).busy = true ∧
        (t.load 0).queued = false ∧ t.mem = s.mem)) ∧
      (s.canMaster 0 = false → exec .loaderTake s = .next s)) ∧
    (s.ldr.cur = none → s.ldr.queue = (p.val + 1) :: rest → s.earlyFail (p + 1) = none → Gives .loaderTake s (fun t =>
      t.ldr.queue = rest ∧ t.mem = s.mem ∧
      (s.drbgReady = true → t.ldr.cur = some (p.val + 1) ∧ (t.load (p + 1)).busy = true ∧ (t.load (p + 1)).queued = false ∧
        (t.pdk p).st = .loading ∧ (t.pdk p).rootKey ≠ none ∧ t.sec.rng.gens = s.sec.rng.gens + 1) ∧
      (s.drbgReady = false → ended t (p + 1) 0x30 0 ∧ (t.pdk p).st = .empty ∧ (t.pdk p).rootKey = none))) ∧
    (∀ k c, k ≤ 3 → s.ldr.cur = none → s.ldr.queue = (p.val + 1) :: rest → s.earlyFail (p + 1) = some (k, c) → Gives .loaderTake s (fun t =>
      t.ldr.cur = some (p.val + 1) ∧ t.ldr.early = some (k, c) ∧ t.pdks = s.pdks ∧ t.mem = s.mem)) ∧
    (s.ldr.cur = some fn → s.ldr.passed = false → (fn = 0 → s.ldr.readOut = 0) →
      (∀ k c i o, s.loadFail fn = some (k, c, i, o) → Gives .loadChecksComplete s (fun t => ended t fn c k ∧ t.mem = s.mem)) ∧
      (s.loadFail fn = none → Gives .loadChecksComplete s (fun t => t.ldr.passed = true ∧ t.ldr.cur = some fn ∧
        t.ldr.staged = s.imageBytes fn ∧ t.mem = s.mem ∧ t.pdks = s.pdks))) ∧
    (s.ldr.cur = none → exec .loadChecksComplete s = .next s) ∧
    (s.ldr.cur = some 0 → s.ldr.passed = true → s.dev.phase = .init → Gives .platformCommit s (fun t => ended t 0 0 0 ∧
      t.dev.phase = .ready ∧ (∃ pl, t.plat = some pl ∧ t.own = State.ownersOf pl) ∧ t.sec.epoch = (s.sec.epoch + 1) % 2 ^ 32 ∧
      t.mem = s.mem)) ∧
    (s.ldr.cur ≠ some 0 ∨ s.ldr.passed = false ∨ s.dev.phase ≠ .init → exec .platformCommit s = .next s) ∧
    (s.ldr.cur = some (p.val + 1) → s.ldr.passed = true → Gives .tenantCommit s (fun t => ended t (p + 1) 0 0 ∧
      (s.dev.tripSeal = false → s.dev.tripped = false → (t.pdk p).st = .runnable) ∧
      (s.dev.tripSeal = true ∨ s.dev.tripped = true → (t.pdk p).st = .suspended ∧ (t.pdk p).susp.trip = true) ∧
      (∃ ss, (t.pdk p).img = some (Img.imageOf s.ldr.staged ss)) ∧ (t.pdk p).lock = (s.pdk p).goLock ∧
      (t.pdk p).consent = 0 ∧ (t.pdk p).beats = 0 ∧
      (t.pdk p).gen = (s.pdk p).gen + 1 ∧ t.sec.epoch = (s.sec.epoch + 1) % 2 ^ 32 ∧ t.mem = s.mem)) ∧
    (s.ldr.cur = none ∨ s.ldr.passed = false → exec .tenantCommit s = .next s)

/-- Suspension (05 R133-R135): SUSPEND stops every bay of a RUNNABLE or RUNNING paddock, RESUME ends the operator's cause; the last cause
gone, the paddock runs again; in other states the two do nothing, by the model's choice (log 20, DEDUCED). Teardown (05 R133, R170, R171; 06
R186, R193): at once no ring and no bay of the paddock runs and a locked TDI is in ERROR; drained, its keys are gone and its bays are
scrubbed and free; complete, its frames read zero and it is EMPTY under a new epoch. -/
def Obligations.SuspensionAndTeardown : Prop :=
  (
  ∀ (s : State) (p : PdkId),
    let st := (s.pdk p).st
    ((st = .runnable ∨ st = .running) → Gives (.suspend p) s (fun t => (t.pdk p).st = .suspended ∧ (t.pdk p).susp.op = true ∧
      bitAt (t.pdk p).event.toNat 2 = true ∧ t.mem = s.mem ∧ (∀ n, t.core n = s.core n) ∧
      ∀ b, b < 16 → (s.bay b).holder = some p.val → (t.bay b).stopping ≠ none)) ∧
    (st = .suspended → exec (.suspend p) s = .next (s.modPdk p (fun d => { d with susp := { d.susp with op := true } }))) ∧
    (st ≠ .runnable → st ≠ .running → st ≠ .suspended → exec (.suspend p) s = .next s) ∧
    (st = .suspended → (s.pdk p).susp = { op := true } → Gives (.resume p) s (fun t =>
      (t.pdk p).st = (if s.baysOf p = [] then .runnable else .running) ∧ (t.pdk p).susp = {} ∧
      bitAt (t.pdk p).event.toNat 3 = true ∧ t.mem = s.mem)) ∧
    (st = .suspended → { (s.pdk p).susp with op := false } ≠ {} → Gives (.resume p) s (fun t => (t.pdk p).st = .suspended ∧
      (t.pdk p).susp.op = false ∧ t.mem = s.mem ∧ t.out = s.out)) ∧
    (st ≠ .suspended → exec (.resume p) s = .next s)) ∧ (
  ∀ (s : State) (p : PdkId) (byTenant : Bool) (d : Teardown),
    let q := s.quota p
    ((s.pdk p).st ≠ .empty → (s.pdk p).st ≠ .teardown → Gives (.teardown p byTenant) s (fun t =>
      (t.pdk p).st = .teardown ∧ (t.pdk p).td = some { drained := false, flr := false } ∧
      (∀ k, k < 256 → (t.ring p k).en = false ∧ (t.ring p k).job = none) ∧
      (∀ b, b < 16 → (s.bay b).holder = some p.val → (t.bay b).job = none ∧ (t.bay b).stopped = true ∧
        ∀ n ∈ coresOf b, (t.core n).running = false) ∧
      ((s.tdi p).st = .locked ∨ (s.tdi p).st = .run → (t.tdi p).st = .error) ∧ t.mem = s.mem)) ∧
    ((s.pdk p).st = .empty ∨ (s.pdk p).st = .teardown → exec (.teardown p byTenant) s = .next s) ∧
    ((s.pdk p).st = .teardown → (s.pdk p).td = some d →
      (d.drained = false → Gives (.teardownDrained p) s (fun t => (t.pdk p).rootKey = none ∧
        (t.pdk p).td = some { d with drained := true } ∧ (t.pdk p).st = .teardown ∧ t.mem = s.mem ∧
        ∀ b, b < 16 → (s.bay b).holder = some p.val → (t.bay b).holder = none ∧
          ∀ n ∈ coresOf b, (t.core n).x = [] ∧ (t.core n).spad = [] ∧ (t.core n).w = [])) ∧
      (d.drained = true → exec (.teardownDrained p) s = .next s) ∧
      (d.drained = false → exec (.teardownComplete p) s = .next s) ∧
      (d.drained = true → Gives (.teardownComplete p) s (fun t => (t.pdk p).st = .empty ∧ (t.pdk p).img = none ∧
        (t.pdk p).consent = 0 ∧ (t.pdk p).lock = none ∧ t.sec.epoch = (s.sec.epoch + 1) % 2 ^ 32 ∧
        (d.flr = true → t.tdi p = {}) ∧
        ∀ a, q.frameBase * 2 ^ 21 ≤ a → a < (q.frameBase + q.frameCount) * 2 ^ 21 → readByte t.mem a = 0))) ∧
    ((s.pdk p).st ≠ .teardown → exec (.teardownDrained p) s = .next s ∧ exec (.teardownComplete p) s = .next s))

/-- Rings (05 R140-R145): an enable with every field in order starts the ring empty, any other sets REFUSED; a disable of an idle ring stops
it at once and gives its slot back, of a disabled one sets its fields; without a free slot an enable sets REFUSED (log 21, DESIGN CHOICE); a
doorbell in range moves its index, one out of range or for a disabled ring sets DB_BAD, one of a paddock in TEARDOWN does nothing. -/
def Obligations.RingsAndDoorbells : Prop :=
  ∀ (s : State) (p : PdkId) (k : Fin 256) (v : Word) (x : BitVec 16) (ide : Option Nat), Heeds s (p + 1) ide →
    let sel := (s.pdk p).ringSel
    let r := s.ring p sel
    let want := ringCfg r v.toNat
    let b := s.ring p k
    let sq := 2 ^ b.sqLog
    let cq := 2 ^ b.cqLog
    let pos := x.toNat
    (r.en = false → r.job = none → r.cpls = [] → r.fetch = none → s.enableOk p sel want = true → s.ringSlot p ≠ none →
      Gives (.ringEnable p v ide) s (fun t => (t.ring p sel).en = true ∧ (t.ring p sel).slot ≠ none ∧ (t.ring p sel).sqHead = 0 ∧
        (t.ring p sel).sqTail = 0 ∧ (t.ring p sel).cqTail = 0 ∧ (t.ring p sel).cqHead = 0 ∧ (t.ring p sel).stopped = false ∧ (t.ring p sel).mute = false ∧
        (t.ring p sel).sqLog = bits v.toNat 4 0 ∧ (t.ring p sel).vector = bits v.toNat 28 24 ∧ t.mem = s.mem ∧ t.out = s.out)) ∧
    (r.en = false → s.enableOk p sel want = false →
      exec (.ringEnable p v ide) s = .next (s.modRing p sel (fun _ => { want with refused := true }))) ∧
    (r.en = false → s.ringSlot p = none →
      exec (.ringEnable p v ide) s = .next (s.modRing p sel (fun _ => { want with refused := true }))) ∧
    (r.en = true → exec (.ringEnable p v ide) s = .next s) ∧
    (r.en = false → exec (.ringDisable p v ide) s = .next (s.modRing p sel (fun r => ringCfg r v.toNat))) ∧
    (r.en = true → r.job = none → r.cpls = [] → exec (.ringDisable p v ide) s =
      .next (s.modRing p sel (fun _ => { r with en := false, fetch := none, stopped := true, slot := none }))) ∧
    ((s.pdk p).st = .teardown → exec (.sqTailDoorbell p k x ide) s = .next s ∧ exec (.cqHeadDoorbell p k x ide) s = .next s) ∧
    ((s.pdk p).st ≠ .teardown →
      (b.en = false ∨ sq ≤ pos → exec (.sqTailDoorbell p k x ide) s = .next (s.modRing p k (fun r => { r with dbBad := true }))) ∧
      (b.en = true → pos < sq → (b.sqTail + sq - b.sqHead) % sq < (pos + sq - b.sqHead) % sq →
        Gives (.sqTailDoorbell p k x ide) s (fun t => (t.ring p k).sqTail = pos ∧ (t.ring p k).en = true ∧
          (t.ring p k).dbBad = b.dbBad ∧ t.mem = s.mem ∧
          (t.ring p k).stamps = b.stamps ++ [((pos + sq - b.sqHead) % sq - (b.sqTail + sq - b.sqHead) % sq, s.dev.tsc.toNat)])) ∧
      (b.en = false ∨ cq ≤ pos → exec (.cqHeadDoorbell p k x ide) s = .next (s.modRing p k (fun r => { r with dbBad := true }))) ∧
      (b.en = true → pos < cq → (pos + cq - b.cqHead) % cq ≤ (b.cqTail + cq - b.cqHead) % cq →
        exec (.cqHeadDoorbell p k x ide) s = .next (s.modRing p k (fun r => { r with cqHead := pos }))))

/-- Submission and completion entries (05 R147-R149, R151, R153, R154): an entry of a kind not listed completes with IMAGE_INVALID, a NOP
with OK, a job of no bays with OK_ZERO, one of more bays than the image needs with RESOURCE_SHORT; any other becomes the ring's waiting job;
a completion is written to the next CQ entry if the function may write and the CQ has room, and a write that fails disables the ring. That a
malformed NOP counts as malformed is the model's choice (log 17, DEDUCED). -/
def Obligations.EntriesAndCompletions : Prop :=
  ∀ (s : State) (p : PdkId) (k : Fin 256) (tag : Nat) (d : List Byte) (c : Cpl) (rest : List Cpl),
    let r := s.ring p k
    let kind := fieldAt d 0 1
    let fl := fieldAt d 1 1
    let bays := fieldAt d 4 1
    let wellFormed : Prop := (kind = 1 ∨ kind = 2) ∧ fl < 8 ∧ zeroAt d 5 3 = true ∧ zeroAt d 12 4 = true ∧
      (bitAt fl 1 = true → fieldAt d 8 4 ≠ 0)
    let answered (t : State) (status : Nat) : Prop := (t.ring p k).fetch = none ∧ (t.ring p k).job = none ∧ t.mem = s.mem ∧
      ∃ e, (t.ring p k).cpls = r.cpls ++ [e] ∧ e.status = status ∧ e.tag = fieldAt d 2 2 ∧ e.sqHead = r.sqHead ∧ e.interim = false
    let full : Prop := (r.cqTail + 1) % 2 ^ r.cqLog = r.cqHead
    (r.fetch = none → exec (.sqEntry p k d) s = .next s) ∧
    (r.fetch = some tag → r.en = true → r.job = none → (s.pdk p).st ≠ .teardown → (s.pdk p).st ≠ .empty →
      (¬wellFormed → Gives (.sqEntry p k d) s (fun t => answered t 0x41)) ∧
      (wellFormed → kind = 2 → Gives (.sqEntry p k d) s (fun t => answered t 0x00)) ∧
      (wellFormed → kind = 1 → bays = 0 → Gives (.sqEntry p k d) s (fun t => answered t 0x01)) ∧
      (wellFormed → kind = 1 → s.needBays p < bays → Gives (.sqEntry p k d) s (fun t => answered t 0x42)) ∧
      (wellFormed → kind = 1 → bays ≠ 0 → bays ≤ s.needBays p → Gives (.sqEntry p k d) s (fun t => (t.ring p k).fetch = none ∧
        t.mem = s.mem ∧ t.out = s.out ∧ (t.ring p k).cpls = r.cpls ∧
        ∃ j, (t.ring p k).job = some j ∧ j.ph = .waiting ∧ j.bays = bays ∧ j.bg = r.bg ∧ j.tag = fieldAt d 2 2 ∧
          ∀ i, i < 6 → j.args.getD i 0 = BitVec.ofNat 64 (fieldAt d (16 + 8 * i) 8)))) ∧
    (r.cpls = [] ∨ s.canMaster (p + 1) = false ∨ full → ∀ ok, exec (.completionWrite p k ok) s = .next s) ∧
    (r.cpls = c :: rest → s.canMaster (p + 1) = true → ¬full →
      Gives (.completionWrite p k true) s (fun t => (t.ring p k).cpls = rest ∧ (t.ring p k).cqTail = (r.cqTail + 1) % 2 ^ r.cqLog ∧
        (t.ring p k).phase = (if (r.cqTail + 1) % 2 ^ r.cqLog = 0 then !r.phase else r.phase) ∧ t.mem = s.mem ∧
        (t.ring p k).job = (if c.interim = true then r.job else none) ∧
        ∃ more, t.out = s.out ++ .hostWrite (p + 1) (r.cq + 32 * r.cqTail) (s.ideOf (p + 1)) (c.bytes r.phase k) :: more) ∧
      Gives (.completionWrite p k false) s (fun t => (t.ring p k).en = false ∧ (t.ring p k).fault = true ∧ (t.ring p k).cpls = [] ∧
        (t.ring p k).cqTail = r.cqTail ∧ t.mem = s.mem))

/-- Scheduling and the bay switch (05 R134, R136, R137, R159-R162, R165, R166, R168, R170; 06 R198): with nothing to place nothing changes;
a job of one bay that alone competes is given a bay that may be taken; a stopped bay's cores are saved in the job's slot before they are
scrubbed, and the bay is free, but a bay of a paddock in TEARDOWN waits for its teardown; a bay held for a job of another paddock comes to
it scrubbed, or as its scrub left it, unless that paddock holds its need already; one that the job's paddock holds is not scrubbed; a hold
for a job that no longer competes is dropped. -/
def Obligations.SchedulingAndBaySwitch : Prop :=
  ∀ (s : State) (b : BayId) (p k i : Nat) (j : Job) (w : StopWhy),
    let x := s.bay b
    (s.candidates = [] → (∀ c, c < 16 → (s.bay c).next = none) → Gives .scheduleDecision s (fun t =>
      t = { s with sch := { s.sch with first := none, others := [] } })) ∧
    (s.candidates = [(p, k)] → (s.ring p k).job = some j → j.bays = 1 → (∀ c, c < 16 → (s.bay c).next = none) →
      (∃ c, c < 16 ∧ s.takeable c = true) → Gives .scheduleDecision s (fun t => t.mem = s.mem ∧
        ∃ c, c < 16 ∧ s.takeable c = true ∧ ((t.bay c).next = some (p, k, 0) ∨ (t.bay c).job = some (p, k)))) ∧
    (x.job ≠ none → exec (.sliceExpiry b) s = .next (s.modBay b (fun x => { x with sliceDone := true }))) ∧
    (x.job = none → exec (.sliceExpiry b) s = .next s) ∧
    (x.stopping = none → x.next = none → exec (.baySwitch b) s = .next s) ∧
    (s.tearing b = true → exec (.baySwitch b) s = .next s) ∧
    (x.stopping = some w → x.stopped = true → x.next = none → s.tearing b = false → Gives (.baySwitch b) s (fun t =>
      (t.bay b).holder = none ∧ (t.bay b).job = none ∧ (t.bay b).stopping = none ∧ t.mem = s.mem ∧
      (∀ n ∈ coresOf b, (t.core n).x = [] ∧ (t.core n).spad = []) ∧ (∀ n, n / 16 ≠ b → t.core n = s.core n) ∧
      (x.job = some (p, k) → (s.ring p k).job = some j →
        (tget {} t.saves (s.slotFrame p (j.slots.getD x.lbay 0))).cores = (coresOf b).map (fun n => (n % 16, s.core n))))) ∧
    (x.stopping = none → x.next = some (p, k, i) → x.prepared = false → s.takeable b = true → (s.ring p k).job = some j → j.ph = .waiting →
      (s.eligible p k = true → x.holder ≠ some p → (s.baysOf p).length < s.needBays p →
        Gives (.baySwitch b) s (fun t => (t.bay b).holder = some p ∧ ((t.bay b).prepared = true ∨ (t.bay b).job = some (p, k)) ∧
          (∀ n ∈ coresOf b, (t.core n).spad = if x.scrubbed = true then (s.core n).spad else []) ∧ t.mem = s.mem)) ∧
      (s.eligible p k = true → x.holder ≠ some p → s.needBays p ≤ (s.baysOf p).length → exec (.baySwitch b) s = .next s) ∧
      (s.eligible p k = true → x.holder = some p → Gives (.baySwitch b) s (fun t => (t.bay b).holder = some p ∧
        ((t.bay b).job = some (p, k) ∨ t = s) ∧ (∀ n ∈ coresOf b, (t.core n).spad = (s.core n).spad) ∧ t.mem = s.mem)) ∧
      (s.eligible p k = false → exec (.baySwitch b) s = .next (s.unreserve b)))

/-! ### The security block (06) -/

/-- Random bits (06 R176-R179, R475, R476): a forty-first equal sample fails the Repetition Count Test, the 410th equal to the reference of
a window the Adaptive Proportion Test; a failure stops the generator, is counted and logged, and ends a tenant load that the loader has taken;
a sample that fails neither leaves it running; it is instantiated again only after 1,024 consecutive samples that pass, and reseeds from
1,024 fresh ones. Consent and epochs (06 R190, R194, R195, R197): a write that changes the grants of a paddock that runs or may run takes
effect, counts in the serial number and opens the next epoch; in other states it changes nothing; an acknowledgement moves ACK forward only,
never past the newest epoch, and not while an access checked under an earlier one is under way. -/
def Obligations.RandomBitsConsentAndEpochs : Prop :=
  (
  ∀ (s : State) (v : Byte),
    let r := s.sec.rng
    let stopped (t : State) : Prop := t.sec.rng.running = false ∧ t.sec.rng.fault = true ∧ t.sec.rng.passRun = 0 ∧
      t.sec.rng.failCount = min 65535 (r.failCount + 1) ∧ t.mgt.logSeq = (s.mgt.logSeq + 1) % 2 ^ 32 ∧ t.mem = s.mem ∧
      (∀ q, s.ldr.cur = some (q + 1) → t.ldr.cur = none ∧ (t.load (q + 1)).code = 0x30 ∧ (t.load (q + 1)).done = true)
    (s.dev.baseOn = false → exec (.entropySample v) s = .next s) ∧
    (s.dev.baseOn = true →
      (r.rctRun = 40 → v = r.rctVal → Gives (.entropySample v) s (fun t => stopped t ∧ t.sec.rng.rctFail = true ∧ t.sec.rng.rctRun = 0)) ∧
      (r.aptPos ≠ 0 → r.aptCount = 409 → v = r.aptRef → Gives (.entropySample v) s (fun t => stopped t ∧ t.sec.rng.aptFail = true ∧
        t.sec.rng.aptPos = 0)) ∧
      (v ≠ r.rctVal → v ≠ r.aptRef → r.aptPos ≠ 0 → r.aptCount ≠ 410 → Gives (.entropySample v) s (fun t =>
        t.sec.rng.running = r.running ∧ t.sec.rng.fault = r.fault ∧ t.sec.rng.rctRun = 1 ∧ t.sec.rng.rctVal = v ∧
        t.sec.rng.passRun = min 1024 (r.passRun + 1) ∧ t.out = s.out ∧ t.mem = s.mem))) ∧
    (r.running = false → 1024 ≤ r.passRun → exec .drbgReinstantiate s = .next { s with sec := { s.sec with rng := { r with
      running := true, fault := false, gens := 0, fresh := 0 } } }) ∧
    (r.running = true ∨ r.passRun < 1024 → exec .drbgReinstantiate s = .next s) ∧
    (r.running = true → 1024 ≤ r.fresh → exec .drbgReseed s = .next { s with sec := { s.sec with rng := { r with gens := 0, fresh := 0 } } }) ∧
    (r.running = false ∨ r.fresh < 1024 → exec .drbgReseed s = .next s)) ∧ (
  ∀ (s : State) (p : PdkId) (v : Word) (ide : Option Nat) (e : Nat), Heeds s (p + 1) ide →
    let st := (s.pdk p).st
    let c := v.toNat % 16
    let on : Prop := st = .runnable ∨ st = .running ∨ st = .suspended
    let next := (s.sec.epoch + 1) % 2 ^ 32
    let a := e % 2 ^ 32
    (on → c ≠ (s.pdk p).consent → Gives (.pdkConsentWrite p v ide) s (fun t => (t.pdk p).consent = c ∧
      (t.pdk p).serial = ((s.pdk p).serial + 1) % 65536 ∧ (c ≠ 0 → (t.pdk p).ever = true) ∧ t.sec.epoch = next ∧
      tget 0 t.sec.epochReq (p + 1) = next ∧ t.record p = t.recordNow p ∧ t.mem = s.mem ∧ t.out = s.out ∧
      (∀ q, q ≠ p.val → t.pdk q = s.pdk q))) ∧
    (¬on ∨ c = (s.pdk p).consent → exec (.pdkConsentWrite p v ide) s = .next s) ∧
    (epochDone s.sec.ack a = false → epochDone s.sec.epoch a = true → s.accessOpen a = false →
      exec (.epochAck e) s = .next { s with sec := { s.sec with ack := a } }) ∧
    (epochDone s.sec.ack a = true ∨ epochDone s.sec.epoch a = false ∨ s.accessOpen a = true → exec (.epochAck e) s = .next s))

/-- SPDM (06 R174, R175, R178, R180, R181, R183): a responder that is not up answers nothing; one that is answers each request with its
response, version 1.3 and the chain of slot 0 among them, slots other than 0 and requests it does not support with an error; what the Alias
key signs needs that key; a key exchange needs random bits and a free session, FINISH establishes it, and END_SESSION or a missed heartbeat
destroys it. That the DRBG is asked before the limit of sessions is the model's (log 72, DESIGN CHOICE). Codes are the standard's (log 53,
PRESUMED). -/
def Obligations.SpdmResponders : Prop :=
  ∀ (s : State) (r : Responder) (slot : Fin 8) (off len h q idx sid code : Nat) (nonce : List Byte) (ok : Bool) (x : Session),
    let plain : List (Instr × Nat) := [(.getVersion r, 0x04), (.getCapabilities r, 0x61), (.negotiateAlgorithms r, 0x63),
      (.getDigests r, 0x01), (.getCertificate r 0 off len, 0x02), (.chunkGet r h q, 0x06)]
    let signed : List (Instr × Nat) := [(.challenge r 0 nonce, 0x03), (.getMeasurements r 0 nonce, 0x60),
      (.getMeasurements r 0xFF nonce, 0x60), (.getMeasurements r idx nonce, 0x60)]
    let others : List Instr := [.keyExchange r nonce, .finish r sid ok, .heartbeat r sid, .keyUpdate r sid, .endSession r sid,
      .spdmUnsupportedRequest r code]
    let err (e : Byte) : Res := .next (s.send (.spdm r 0x7F [e]))
    let gone : List Session := (s.sessions r).filter (fun y => y.sid ≠ sid)
    (s.answers r = false → (∀ e ∈ plain ++ signed, exec e.1 s = .next s) ∧ ∀ e ∈ others, exec e s = .next s) ∧
    (s.answers r = true →
      (∀ e ∈ plain, ∃ body, exec e.1 s = .next (s.send (.spdm r e.2 body))) ∧
      exec (.getVersion r) s = .next (s.send (.spdm r 0x04 [0x00, 0x01, 0x00, 0x13])) ∧
      exec (.getDigests r) s = .next (s.send (.spdm r 0x01 (0x01 :: s.chainDigest))) ∧
      exec (.getCertificate r 0 off len) s = .next (s.send (.spdm r 0x02 ((s.chain.drop off).take len))) ∧
      (s.measurement idx ≠ none → s.sec.aliasKey = true → ∀ e ∈ signed, ∃ body, exec e.1 s = .next (s.send (.spdm r e.2 body))) ∧
      (s.measurement idx ≠ none → s.sec.aliasKey = false → ∀ e ∈ signed, exec e.1 s = err 0x05) ∧
      (slot ≠ 0 → exec (.getCertificate r slot off len) s = err 0x01 ∧ exec (.challenge r slot nonce) s = err 0x01) ∧
      exec (.spdmUnsupportedRequest r code) s = .next (s.send (.spdm r 0x7F [0x07, BitVec.ofNat 8 code])) ∧
      (s.drbgReady = false → exec (.keyExchange r nonce) s = err 0x05) ∧
      (s.drbgReady = true → (if r = .doe then 4 else 2) ≤ (s.sessions r).length → exec (.keyExchange r nonce) s = err 0x0A) ∧
      (s.drbgReady = true → (s.sessions r).length < (if r = .doe then 4 else 2) → s.sec.aliasKey = true →
        Gives (.keyExchange r nonce) s (fun t => t.sessions r = s.sessions r ++ [{ sid := s.sec.nextSid, established := false, keyEpoch := 0 }] ∧
          t.sec.nextSid = s.sec.nextSid + 1 ∧ t.sec.rng.gens = s.sec.rng.gens + 1 ∧ ∃ body, t.out = s.out ++ [.spdm r 0x64 body])) ∧
      (s.session r sid = none → exec (.finish r sid ok) s = err 0x02 ∧ exec (.heartbeat r sid) s = err 0x02 ∧
        exec (.keyUpdate r sid) s = err 0x02 ∧ exec (.endSession r sid) s = err 0x02) ∧
      (s.session r sid = some x → x.established = false →
        Gives (.finish r sid true) s (fun t => t.sessions r = (s.sessions r).map (fun y =>
          if y.sid = sid then { y with established := true } else y) ∧ t.out = s.out ++ [.spdm r 0x65 []]) ∧
        Gives (.finish r sid false) s (fun t => t.sessions r = gone ∧ t.out = s.out ++ [.spdm r 0x7F [0x06]])) ∧
      (s.session r sid = some x → x.established = true →
        exec (.heartbeat r sid) s = .next (s.send (.spdm r 0x68 [])) ∧
        Gives (.keyUpdate r sid) s (fun t => t.sessions r = (s.sessions r).map (fun y =>
          if y.sid = sid then { y with keyEpoch := y.keyEpoch + 1 } else y) ∧ t.out = s.out ++ [.spdm r 0x69 []]) ∧
        Gives (.endSession r sid) s (fun t => t.sessions r = gone ∧ t.out = s.out ++ [.spdm r 0x6C []]))) ∧
    exec (.heartbeatTimeout r sid) s = .next (s.setSessions r gone)

/-- IDE keys and TDISP (06 R180, R184-R187, R189): outside an established session nothing is answered; a key is programmed, run and stopped
under its stream; a change of keys moves a locked TDI of the stream to ERROR; a TDI locks only an EMPTY paddock of an enabled VF, runs only
on a stream active in both directions, and stops with its paddock's teardown. That a lock that names no free stream is answered with
INVALID_REQUEST, after the checks of the state, is the model's (log 72, DESIGN CHOICE). Codes and bodies are the standards' (log 53,
PRESUMED). -/
def Obligations.InterfaceSecurity : Prop :=
  ∀ (s : State) (sid k port idx : Nat) (set : Fin 2) (rx : Bool) (sub : Fin 4) (p : PdkId),
    let inside : Prop := ∃ r, s.answers r = true ∧ (s.session r sid).elim false (·.established) = true
    let all : List Instr := [.ideKmQuery sid port, .keyProg sid k set rx sub, .kSetGo sid k set rx sub, .kSetStop sid k set rx sub,
      .getTdispVersion sid p, .getTdispCapabilities sid p, .lockInterfaceRequest sid p k false, .getDeviceInterfaceReport sid p,
      .getDeviceInterfaceState sid p, .startInterfaceRequest sid p, .stopInterfaceRequest sid p, .tdispUnsupportedRequest sid p]
    let x := tget ({} : IdeStream) s.sec.ide k
    let key : Nat × Bool × Nat := (set.val, rx, sub.val)
    let err (e : Nat) : Res := .next (s.send (.tdisp p 0x7F (leBytes 4 e)))
    let td := s.tdi p
    let locked : Prop := td.st = .locked ∨ td.st = .run
    let fits : Prop := td.st = .unlocked ∧ s.vfOn p = true ∧ (s.pdk p).st = .empty
    (¬inside → ∀ c ∈ all, exec c s = .next s) ∧
    (inside →
      (∃ body, exec (.ideKmQuery sid port) s = .next (s.send (.ideKm 0x01 body))) ∧
      (s.streamOk k = false → exec (.keyProg sid k set rx sub) s = .next (s.send (.ideKm 0x03 [0x03]))) ∧
      (s.streamOk k = true → Gives (.keyProg sid k set rx sub) s (fun t => key ∈ (tget {} t.sec.ide k).keys ∧
        (tget {} t.sec.ide k).gone = false ∧
        (∀ q, x.vf = some q → (s.tdi q).st = .run → (t.tdi q).st = .error) ∧ Out.ideKm 0x03 [0x00] ∈ t.out)) ∧
      (key ∉ x.keys → exec (.kSetGo sid k set rx sub) s = .next (s.send (.ideKm 0x06 [0x04])) ∧
        exec (.kSetStop sid k set rx sub) s = .next (s.send (.ideKm 0x06 [0x04]))) ∧
      (key ∈ x.keys → Gives (.kSetGo sid k set rx sub) s (fun t => key ∈ (tget {} t.sec.ide k).active ∧ t.sec.tdi = s.sec.tdi ∧
          t.out = s.out ++ [.ideKm 0x06 [0x00]]) ∧
        Gives (.kSetStop sid k set rx sub) s (fun t => key ∉ (tget {} t.sec.ide k).keys ∧ key ∉ (tget {} t.sec.ide k).active ∧
          (tget {} t.sec.ide k).gone = true)) ∧
      (∃ body, exec (.getTdispVersion sid p) s = .next (s.send (.tdisp p 0x01 body))) ∧
      (∃ body, exec (.getTdispCapabilities sid p) s = .next (s.send (.tdisp p 0x02 body))) ∧
      exec (.tdispUnsupportedRequest sid p) s = err 0x0007 ∧
      (locked → exec (.getDeviceInterfaceReport sid p) s = .next (s.send (.tdisp p 0x04 (s.tdiReport p)))) ∧
      (¬locked → exec (.getDeviceInterfaceReport sid p) s = err 0x0004) ∧
      exec (.getDeviceInterfaceState sid p) s = .next (s.send (.tdisp p 0x05 (leBytes 1 (tdiCode td.st)))) ∧
      exec (.lockInterfaceRequest sid p k true) s = err 0x0001 ∧
      (¬fits → exec (.lockInterfaceRequest sid p k false) s = err 0x0004) ∧
      (fits → 256 ≤ k ∨ s.streamOk k = false ∨ (∃ q, x.vf = some q ∧ q ≠ p.val) →
        exec (.lockInterfaceRequest sid p k false) s = err 0x0001) ∧
      (fits → k < 256 → s.streamOk k = true → (x.vf = none ∨ x.vf = some p.val) → Gives (.lockInterfaceRequest sid p k false) s (fun t =>
        t.tdi p = { st := .locked, stream := some k } ∧ (tget {} t.sec.ide k).vf = some p.val ∧
        t.record p = t.recordNow p ∧ t.pdks = s.pdks)) ∧
      (td.st = .locked → td.stream = some k → s.streamActive k = true → Gives (.startInterfaceRequest sid p) s (fun t =>
        t.tdi p = { td with st := .run } ∧ t.out = s.out ++ [.tdisp p 0x06 []])) ∧
      (td.st = .locked → td.stream = some k → s.streamActive k = false → exec (.startInterfaceRequest sid p) s = err 0x0004) ∧
      (td.st ≠ .locked → exec (.startInterfaceRequest sid p) s = err 0x0004) ∧
      (td.st = .unlocked → exec (.stopInterfaceRequest sid p) s = err 0x0004) ∧
      (td.st ≠ .unlocked → td.stream = some k →
        ((s.pdk p).st = .empty → Gives (.stopInterfaceRequest sid p) s (fun t => t.tdi p = {} ∧ (tget {} t.sec.ide k).keys = [] ∧
          (tget {} t.sec.ide k).vf = none)) ∧
        ((s.pdk p).st ≠ .empty → Gives (.stopInterfaceRequest sid p) s (fun t => (t.pdk p).st = .teardown ∧
          (t.tdi p).unlockDue = true)))) ∧
    (s.dev.cfgReady = false → exec (.doeDiscovery idx) s = .next s) ∧
    (s.dev.cfgReady = true → idx ≤ 2 → exec (.doeDiscovery idx) s =
      .next (s.send (.doe (leBytes 2 0x0001 ++ leBytes 1 idx ++ leBytes 1 ((idx + 1) % 3)))))

/-! ### The fabric (15) -/

/-- Fabric links and HELLOs (15 R420-R422, R427, R428): a port sends its HELLO while it is up and ONLINE; a HELLO of this device's own
number or of other settings faults the port, any other makes it direct to its peer, and silence makes it switched; a pause frame is ignored;
a frame of another ethertype is dropped and counted; a link comes up without a mode and goes down with its peer forgotten. -/
def Obligations.FabricLinksAndHellos : Prop :=
  ∀ (s : State) (pt : PortId) (h : Hello),
    let x := s.port pt
    let c := s.fabCfg
    let ready : Prop := x.up = true ∧ x.unit_ = .online
    (ready →
      exec (.helloSend pt) s = .next (s.send (.hello pt { device := c.device, port := pt, protect := c.protect, ethertype := c.ethertype })) ∧
      (h.device = c.device ∨ h.protect ≠ c.protect ∨ h.ethertype ≠ c.ethertype →
        exec (.hello pt h) s = .next (s.modPort pt (fun x => { x with mode := .faulted }))) ∧
      (h.device ≠ c.device → h.protect = c.protect → h.ethertype = c.ethertype →
        exec (.hello pt h) s = .next (s.modPort pt (fun x => { x with mode := .direct, peer := h.device, peerPort := h.port }))) ∧
      (x.mode ≠ .faulted →
        exec (.helloTimeout pt) s = .next (s.modPort pt (fun x => { x with mode := .switched, peer := 0, peerPort := 0 }))) ∧
      (x.mode = .faulted → exec (.helloTimeout pt) s = .next s)) ∧
    (¬ready → exec (.helloSend pt) s = .next s ∧ exec (.hello pt h) s = .next s ∧ exec (.helloTimeout pt) s = .next s ∧
      exec (.otherEthertypeFrame pt) s = .next s) ∧
    (s.portLive pt = true →
      exec (.otherEthertypeFrame pt) s = .next (s.modPort pt (fun x => { x with drops := min 65535 (x.drops + 1) }))) ∧
    exec (.pauseFrame pt) s = .next s ∧
    (bitAt c.portEn pt = true →
      exec (.fabricLinkUp pt) s = .next (s.modPort pt (fun x => { x with up := true, mode := .none, peer := 0, peerPort := 0 }))) ∧
    (bitAt c.portEn pt = false → exec (.fabricLinkUp pt) s = .next s) ∧
    exec (.fabricLinkDown pt) s = .next (s.modPort pt (fun x => { x with up := false, mode := .none, peer := 0, peerPort := 0 }))

/-- Job slots, eyelets and post queues (15 R429-R432, R436, R442; 06 R197): a slot that may be activated becomes active with a fresh counter
under a new epoch, any other activation is refused; its registers take values only while it is idle; retiring it destroys its key and ends
its posts with KEY_RETIRED; an eyelet opens and closes by a rule change each; what it had accepted before its close is abandoned afterwards.
-/
def Obligations.FabricSlotsAndEyelets : Prop :=
  ∀ (s : State) (p : PdkId) (v : Word) (ide : Option Nat) (k : Fin 4) (q : Fin 16) (e : Nat), Heeds s (p + 1) ide →
    let j := (s.pdk p).jobSel
    let x := s.fabJob p j
    let w := (v ||| 0x10000000000).toNat
    let x' : FabJob := { x with jobId := bits w 31 0, nMembers := bits w 38 32, st := .idle
                                refused := x.refused && !bitAt w 44
                                keyMask := if x.st = .retired then 0 else x.keyMask }
    let refused : Res := .next (s.modFabJob p j (fun x => { x with refused := true }))
    let open_ : Prop := x.st = .idle ∧ s.fabWritable p = true
    let y := (s.pdk p).eyeSel
    let cfg := (v ||| 1).toNat
    let next := (s.sec.epoch + 1) % 2 ^ 32
    (bitAt w 41 = false → x.st ≠ .active → s.fabWritable p = true →
      (s.activateOk p j x' = true → Gives (.activate p v ide) s (fun t => (t.fabJob p j).st = .active ∧ (t.fabJob p j).jobId = bits w 31 0 ∧
        (t.fabJob p j).nMembers = bits w 38 32 ∧ (t.fabJob p j).ctr = 0 ∧ (t.fabJob p j).colls = 0 ∧ (t.fabJob p j).epoch = next ∧ (t.fabJob p j).refused = x'.refused ∧
        t.sec.epoch = next ∧ t.mem = s.mem ∧ t.out = s.out)) ∧
      (s.activateOk p j x' = false → exec (.activate p v ide) s = refused)) ∧
    (x.st = .active → Gives (.retire p ide) s (fun t => (t.fabJob p j).st = .retired ∧ (t.fabJob p j).key = [] ∧ t.mem = s.mem ∧
      t.fab.posts = s.fab.posts.map (fun z => if z.pdk = p.val ∧ z.job = j ∧ z.status = none
        then { z with status := some 0x31, endTs := s.dev.tsc.toNat } else z))) ∧
    (x.st ≠ .active → exec (.retire p ide) s = refused) ∧
    (open_ → exec (.fabJobMemberWrite p v ide) s = .next (s.modFabJob p j (fun x =>
      { x with members := tset x.members (bits v.toNat 5 0) (bits v.toNat 15 6, bits v.toNat 22 16) }))) ∧
    (open_ → Gives (.fabJobKeyWrite p k v ide) s (fun t => tget 0 (t.fabJob p j).key k = v ∧ bitAt (t.fabJob p j).keyMask k = true ∧
      (t.fabJob p j).st = .idle ∧ t.mem = s.mem ∧ t.out = s.out)) ∧
    (¬open_ → exec (.fabJobMemberWrite p v ide) s = refused ∧ exec (.fabJobKeyWrite p k v ide) s = refused) ∧
    ((s.eyelet p y).en = false →
      (s.eyeOpenOk p y cfg = true → Gives (.eyeletOpen p v ide) s (fun t => (t.eyelet p y).en = true ∧ (t.eyelet p y).cfg = cfg ∧
        (t.eyelet p y).base = (s.eyelet p y).base ∧ t.sec.epoch = next ∧ tget 0 t.sec.epochReq (p + 1) = next ∧ t.mem = s.mem)) ∧
      (s.eyeOpenOk p y cfg = false → exec (.eyeletOpen p v ide) s = .next (s.modEyelet p y (fun x => { x with refused := true }))) ∧
      exec (.eyeletClose p ide) s = .next s) ∧
    ((s.eyelet p y).en = true →
      exec (.eyeletOpen p v ide) s = .next (s.modEyelet p y (fun x => { x with refused := true })) ∧
      Gives (.eyeletClose p ide) s (fun t => (t.eyelet p y).en = false ∧ (t.eyelet p y).shut = next ∧ t.sec.epoch = next ∧
        t.fab.rx = s.fab.rx ∧ t.mem = s.mem)) ∧
    Gives (.eyeletAbandon p e) s (fun t => t.mem = s.mem ∧ ∀ r, r ∈ t.fab.rx ↔ r ∈ s.fab.rx ∧
      ¬(r.pdk = p ∧ r.eye = e ∧ r.epoch ≠ (s.eyelet p e).shut ∧ epochDone (s.eyelet p e).shut r.epoch = true)) ∧
    (bitAt v.toNat 0 = false ∨ s.feature p 2 = true → Gives (.fabPostqWrite p q v ide) s (fun t =>
      tget {} t.fab.postqs (p * 16 + q) = { en := bitAt v.toNat 0, hoop := bits v.toNat 4 1, pos := bits v.toNat 8 5,
                                            lbay := bits v.toNat 12 9, ring := bits v.toNat 23 16 } ∧ t.mem = s.mem ∧ t.out = s.out)) ∧
    (bitAt v.toNat 0 = true → s.feature p 2 = false → exec (.fabPostqWrite p q v ide) s = .next s)

/-- Received frames (15 R421, R422, R431, R433, R434, R440, R441): a port that carries nothing ignores them; a frame for another device is
dropped and counted; one that stands but is out of sequence changes no memory; the first frame of a PUT that resolves to package memory
writes exactly its bytes and is accepted; a refused PUT and a GET write nothing; RETIRE retires the slot; rank 0 keeps the records of a COLL
frame. A NAK's status that the table does not list ends its post with INTERNAL (log 81, DEDUCED). -/
def Obligations.ReceivedFrames : Prop :=
  ∀ (s : State) (pt : PortId) (h : FrameHdr) (tb : TargetBlk) (d : List Byte) (p j r e code status kind len : Nat),
    let all : List Instr := [.dataFrame pt h (some tb) d, .nakFrame pt h status, .retireFrame pt h, .collFrame pt h kind len d]
    let taken (ty : Nat) (payload : List Byte) : Prop := s.rxCheck pt ty h payload = (some (p, j, r), s)
    let data : Prop := taken 1 (targetBytes tb ++ d)
    let f := s.flow p j r
    let accepted (t : State) : Prop := (t.flow p j r).nextRecv = (f.nextRecv + 1) % 2 ^ 32
    let base := (s.pkgAddr p tb.raddr).toNat
    (s.portLive pt = false → s.fab.closing = [] → ∀ c ∈ .ackFrame pt h :: all, exec c s = .next s) ∧
    (s.portLive pt = true → s.fab.closing = [] → h.dst ≠ s.device → ∀ c ∈ .ackFrame pt h :: all,
      exec c s = .next (s.modPort pt (fun x => { x with drops := min 65535 (x.drops + 1) }))) ∧
    (data → h.seq ≠ f.nextRecv → Gives (.dataFrame pt h (some tb) d) s (fun t => t.mem = s.mem ∧
      (t.flow p j r).nextRecv = f.nextRecv ∧ t.fab.rx = s.fab.rx)) ∧
    (data → h.seq = f.nextRecv → h.first = true →
      (s.resolve p h.jobId tb = .inl e → tb.get = false → tb.rspace = false → Gives (.dataFrame pt h (some tb) d) s (fun t => accepted t ∧
        ∀ a, readByte t.mem a = if base ≤ a ∧ a < base + d.length ∧ a / 4096 ∉ s.ras.dead then d.getD (a - base) 0 else readByte s.mem a)) ∧
      (s.resolve p h.jobId tb = .inl e → tb.get = true → tb.rspace = false →
        Gives (.dataFrame pt h (some tb) d) s (fun t => accepted t ∧ t.mem = s.mem)) ∧
      (s.resolve p h.jobId tb = .inr code →
        Gives (.dataFrame pt h (some tb) d) s (fun t => accepted t ∧ t.mem = s.mem ∧ t.fab.rx = s.fab.rx))) ∧
    (taken 2 [] → s.fab.closing = [] → Gives (.ackFrame pt h) s (fun t => t.mem = s.mem ∧
      (t.flow p j r).unacked = f.unacked.filter (fun g => 2 ^ 31 ≤ (h.seq + 2 ^ 32 - g.hdr.seq) % 2 ^ 32))) ∧
    (taken 3 (leBytes 1 status) → h.notReady = true →
      exec (.nakFrame pt h status) s = .next (s.modFlow p j r (fun f => { f with notReady := true }))) ∧
    (taken 3 (leBytes 1 status) → h.notReady = false → h.xfer < 2 ^ 15 → Gives (.nakFrame pt h status) s (fun t => t.mem = s.mem ∧
      ∀ x ∈ s.fab.posts, x.pdk = p → x.job = j → x.member = r → x.op ≤ 2 → x.xfer = h.xfer → x.status = none →
        { x with status := some (Status.read status), endTs := s.dev.tsc.toNat, moved := h.offset } ∈ t.fab.posts)) ∧
    (taken 5 [] → Gives (.retireFrame pt h) s (fun t => (t.fabJob p j).st = .retired ∧ (t.fabJob p j).key = [] ∧ t.mem = s.mem)) ∧
    (taken 6 (collBytes kind len d) → h.seq = f.nextRecv → s.ownRank p j = 0 → Gives (.collFrame pt h kind len d) s (fun t =>
      accepted t ∧ t.mem = s.mem ∧ t.fab.posts = s.fab.posts ∧
      t.fab.colls = State.collRecord s.fab.colls p j (h.xfer % 2 ^ 15) kind len r h.offset d h.last))

/-- Recovery (15 R431, R434, R440): frames not acknowledged are sent again up to sixteen times, from the fourth on by another port, and then
the flow's posts end with INTERNAL, or with QUARANTINED where it has no port; a flow that waits for NOT_READY is offered again by its own
retry; a RETIRE frame is sent again for at most 50 times. -/
def Obligations.FabricRecovery : Prop :=
  ∀ (s : State) (fl : FlowId),
    let p := fl.pdk.val
    let j := fl.job.val
    let r := fl.rank.val
    let f := s.flow p j r
    let failed (status : Nat) : Prop := Gives (.resendTimeout fl) s (fun t => (t.flow p j r).unacked = [] ∧ t.mem = s.mem ∧
      ∀ x ∈ s.fab.posts, x.pdk = p → x.job = j → x.op ≤ 2 → x.member = r → r ≠ s.ownRank p j → x.status = none →
        { x with status := some status, endTs := s.dev.tsc.toNat } ∈ t.fab.posts)
    (f.unacked = [] ∨ f.notReady = true → exec (.resendTimeout fl) s = .next s) ∧
    (f.unacked ≠ [] → f.notReady = false →
      (s.hasPort p j r = false → failed 0x70) ∧
      (s.hasPort p j r = true → 16 ≤ f.resends → failed 0x7F) ∧
      (s.hasPort p j r = true → f.resends < 16 → Gives (.resendTimeout fl) s (fun t => (t.flow p j r).resends = f.resends + 1 ∧
        (t.flow p j r).unacked = f.unacked ∧ (t.flow p j r).shift = (if f.resends = 4 then f.shift + 1 else f.shift) ∧
        t.fab.posts = s.fab.posts ∧ t.mem = s.mem))) ∧
    (f.notReady = false → exec (.notReadyRetry fl) s = .next s) ∧
    (f.notReady = true → r ≠ s.ownRank p j → Gives (.notReadyRetry fl) s (fun t => (t.flow p j r).notReady = false ∧
      (t.flow p j r).unacked = f.unacked ∧ t.fab.posts = s.fab.posts ∧ t.mem = s.mem)) ∧
    Gives (.retireResend fl.pdk fl.job) s (fun t => t.mem = s.mem ∧ t.fab.closing =
      (s.fab.closing.filter (fun c => !(c.pdk = p && c.job = j) || c.again < 50)).map (fun c =>
        if c.pdk = p ∧ c.job = j then { c with again := c.again + 1 } else c))

/-- Posts (15 R435-R439, R441; 09 R278): the row at the head of a bound Hoop leaves it and becomes an open post, at once with its status
where a check fails; a queue that is not enabled pops nothing; a collective that every member has posted is folded and leaves rank 0's list;
the oldest post of a queue leaves it once it has a status and, where it asked for one, its completion row enters the Hoop; kept arrivals are
counted for the core. -/
def Obligations.PostsAndCollectives : Prop :=
  ∀ (s : State) (p : PdkId) (q : Fin 16) (n : CoreId) (j : Fin 16) (st : Nat) (x : Post) (rest : List Post) (c : Coll) (k : Kept),
    let pops : List (Instr × Nat) := [(.put p q, 1), (.get p q, 2), (.statSum p q, 3), (.sumF32 p q, 4), (.maxF32 p q, 5)]
    let pq := tget {} s.fab.postqs (p * 16 + q)
    let h := (s.core n).hoop pq.hoop
    let d := rowBytes ((s.core n).rowAt ((h.base + h.head) % 4096))
    let post : Post := { State.postOf p q pq d (s.fab.nextXfer % 2 ^ 15) with num := (s.fabJob p (fieldAt d 1 1)).colls }
    let mine (k : Kept) : Bool := s.ringCore k.pdk (k.ring.getD 0) k.lbay k.pos = some n.val
    (pq.en = false → ∀ e ∈ pops, exec e.1 s = .next s) ∧
    (pq.en = true → (s.pdk p).st ≠ .teardown → s.ringCore p pq.ring pq.lbay pq.pos = some n.val → h.size ≠ 0 → h.a ≠ 0 →
      ∀ e ∈ pops, fieldAt d 0 1 = e.2 → Gives e.1 s (fun t => t.fab.nextXfer = s.fab.nextXfer + 1 ∧
        t.fab.posts.length = s.fab.posts.length + 1 ∧
        ((t.core n).hoop pq.hoop) = { h with head := (h.head + 1) % h.size, a := h.a - 1, o := h.o - 1 } ∧
        (s.postCheck p d post = some st → t.mem = s.mem ∧ { post with status := some st, endTs := s.dev.tsc.toNat } ∈ t.fab.posts))) ∧
    (s.jobUsable p j = false ∨ s.ownRank p j ≠ 0 ∨ s.fab.colls = [] → exec (.collectiveFold p j) s = .next s) ∧
    (s.jobUsable p j = true → s.ownRank p j = 0 →
      s.fab.colls.find? (fun c => c.pdk = p.val && c.job = j.val && (List.range (s.fabJob p j).nMembers).all c.whole.contains) = some c →
      Gives (.collectiveFold p j) s (fun t => t.fab.colls = s.fab.colls.erase c)) ∧
    (s.fab.posts = [] → exec (.postCompletion p q) s = .next s) ∧
    (s.fab.posts = x :: rest → x.pdk = p → x.q = q → x.status = none → x.result = none → exec (.postCompletion p q) s = .next s) ∧
    (s.fab.posts = x :: rest → x.pdk = p → x.q = q → x.status = some st →
      (bitAt x.cpl 7 = false → Gives (.postCompletion p q) s (fun t => t.fab.posts = rest ∧ t.mem = s.mem ∧ t.cores = s.cores)) ∧
      (bitAt x.cpl 7 = true → x.gone = false → s.ringCore p x.ring x.lbay x.pos = some n.val →
        ((s.core n).hoopRoom (x.cpl % 16) 1 = true → Gives (.postCompletion p q) s (fun t => t.fab.posts = rest ∧ t.mem = s.mem ∧
          t.core n = (s.core n).hoopDeliver (x.cpl % 16) (State.cplRow x st))) ∧
        ((s.core n).hoopRoom (x.cpl % 16) 1 = false → exec (.postCompletion p q) s = .next s))) ∧
    Gives (.deferredArrival n) s (fun t => t.mem = s.mem ∧ t.fab.kept = s.fab.kept.filter (fun k => !mine k) ∧
      (s.fab.kept.filter mine = [k] → t.core n = (s.core n).arrive k.ctr k.cnt))

/-! ### The Tambour (14) -/

/-- Frame graphs (14 R404-R407, R410, R413): arming a described graph of a paddock that may run starts its counts anew, any other arming is
refused; disarming drops the frames that no engine has started; a submission becomes the next frame, with FRAME_SHORT, FRAME_LONG or OK_ZERO
where its rows say so, or sets OVERRUN where every input slot is in use; an engine that is ONLINE takes the first eligible band; the oldest
frame is recorded once all of it is done, and kept signals are delivered. -/
def Obligations.FrameGraphs : Prop :=
  ∀ (s : State) (p : PdkId) (g : Fin 16) (v : Word) (ide : Option Nat) (e : EngineId) (n : CoreId) (gr : Graph) (f : GFrame)
    (rest : List GFrame) (q h order i ts : Nat) (nd : GNode) (k : Kept), Heeds s (p + 1) ide →
    let x := s.graph p g
    let able : Prop := (s.pdk p).st = .runnable ∨ (s.pdk p).st = .running ∨ (s.pdk p).st = .suspended
    let pos := bits v.toNat 31 8
    let rows := bits v.toNat 13 0
    let odd : Prop := rows ≠ gr.height
    let rec_ := s.tmbAddr p (gr.recBase + 32 * (f.f % max 1 gr.inSlots))
    let bytes := State.recordBytes gr f (f.first.getD x.pos) ts
    let mine (k : Kept) (u : Nat) : Bool := k.pdk = u && s.pdkCore u k.lbay k.pos = some n.val
    (x.en = false → able → s.graphOf p g ≠ none → exec (.graphArm p g v ide) s = .next (s.modGraph p g (fun x => { x with
      en := true, posBase := pos, refused := x.refused && !bitAt v.toNat 32, done := 0, next := 0, pos := pos, refOk := false, processed := 0, sinceKey := 0
      patchPos := [] }))) ∧
    (x.en = true ∨ ¬able ∨ s.graphOf p g = none →
      exec (.graphArm p g v ide) s = .next (s.modGraph p g (fun x => { x with refused := true }))) ∧
    (x.en = true → exec (.graphDisarm p g ide) s = .next (s.modGraph p g (fun x =>
      { x with en := false, frames := x.frames.filter (fun f => !f.engines.isEmpty) }))) ∧
    (x.en = false → exec (.graphDisarm p g ide) s = .next s ∧ exec (.frameSubmit p g v ide) s = .next s) ∧
    (x.en = true → s.graphOf p g = some gr →
      (gr.inSlots ≤ x.frames.length → exec (.frameSubmit p g v ide) s = .next (s.modGraph p g (fun x => { x with overrun := true }))) ∧
      (x.frames.length < gr.inSlots → Gives (.frameSubmit p g v ide) s (fun t => (t.graph p g).next = (x.next + 1) % 2 ^ 32 ∧
        t.tmb.order = s.tmb.order + 1 ∧ t.mem = s.mem ∧ t.out = s.out ∧
        ∃ y, (t.graph p g).frames = x.frames ++ [y] ∧ y.f = x.next ∧ y.rows = rows ∧ y.order = s.tmb.order ∧
          y.status = (if rows = 0 then 0x01 else if rows < gr.height then 0x52 else if gr.height < rows then 0x53 else 0x00) ∧
          (y.closed = true ↔ rows = 0 ∨ (odd ∧ gr.strict = true))))) ∧
    ((s.engine e).unit_ ≠ .online → exec (.bandTake e) s = .next s) ∧
    (State.firstBand (s.eligibleBands e) = none → exec (.bandTake e) s = .next s) ∧
    ((s.engine e).unit_ = .online → State.firstBand (s.eligibleBands e) = some (order, q, h, i) → s.graphOf q h = some gr →
      (s.graph q h).frames.find? (fun y => y.order = order) = some f → gr.nodes[i]? = some nd →
      Gives (.bandTake e) s (fun t => (t.engine e).lastPdk = some q ∧
        ∃ y ∈ (t.graph q h).frames, y.order = order ∧ tget 0 y.bands i = tget 0 f.bands i + 1 ∧ e.val ∈ y.engines)) ∧
    (s.graphOf p g = some gr → x.frames = f :: rest →
      (frameDone gr f = false ∨ (s.pdk p).st = .teardown → exec (.frameRecord p g) s = .next s) ∧
      (frameDone gr f = true → (s.pdk p).st ≠ .teardown → f.endTs = some ts → Gives (.frameRecord p g) s (fun t =>
        (t.graph p g).frames = rest ∧ (t.graph p g).done = (x.done + 1) % 2 ^ 32 ∧
        ∀ a, readByte t.mem a = if rec_ ≤ a ∧ a < rec_ + bytes.length ∧ a / 4096 ∉ s.ras.dead then bytes.getD (a - rec_) 0
          else readByte s.mem a))) ∧
    (x.frames = [] → exec (.frameRecord p g) s = .next s) ∧
    ((s.bay (n / 16)).job = none → exec (.deferredSignalDelivery n) s = .next s) ∧
    ((s.bay (n / 16)).job = some (q, h) → Gives (.deferredSignalDelivery n) s (fun t => t.mem = s.mem ∧
      t.tmb.signals = s.tmb.signals.filter (fun k => !mine k q) ∧
      (s.tmb.signals.filter (fun k => mine k q) = [k] → t.core n = (s.core n).semLand k.ctr k.cnt)))

/-! ### The management controller (16) -/

/-- MCTP control and PLDM (16 R443, R444, R451, R452): the mailbox carries neither, a controller that is not up answers nothing; endpoint ID
and event receiver are set; sensors that the tables list are read, others refused; a held event is polled once; an unsupported command gets
its type's error, an unknown type nothing. Codes and bodies are the standards' (log 53, PRESUMED). -/
def Obligations.MctpAndPldmQueries : Prop :=
  ∀ (s : State) (tr : Transport) (b ty : Byte) (code : Byte) (h : Nat) (id : BitVec 16) (r : LogRec) (rest : List LogRec),
    let all : List Instr := [.setEndpointId tr b, .getEndpointId tr, .getEndpointUuid tr, .getMctpVersionSupport tr ty,
      .getMessageTypeSupport tr, .getTid tr, .getPldmVersion tr ty, .getPldmTypes tr, .getPldmCommands tr ty, .setEventReceiver tr b,
      .getPdrRepositoryInfo tr, .getPdr tr h, .getSensorReading tr id, .getStateSensorReadings tr id, .pollForPlatformEventMessage tr,
      .mctpUnsupportedCommand tr ty code, .queryDeviceIdentifiers tr, .getFirmwareParameters tr, .getStatus tr]
    let tells (i : Instr) (status : Nat) (body : List Byte) : Prop := exec i s = .next (s.send (.mgmt tr status body))
    let answers (i : Instr) : Prop := ∃ body, tells i 0 body
    (tr = .mailbox ∨ s.heard tr = false → ∀ i ∈ all, exec i s = .next s) ∧
    (tr ≠ .mailbox → s.heard tr = true →
      exec (.setEndpointId tr b) s = .next (({ s with mgt := { s.mgt with eid := b } } : State).send (.mgmt tr 0 [0, b, 0])) ∧
      tells (.getEndpointId tr) 0 [s.mgt.eid, 0, 0] ∧ answers (.getEndpointUuid tr) ∧ answers (.getTid tr) ∧
      tells (.getMessageTypeSupport tr) 0 [5, 0x00, 0x01, 0x05, 0x06, 0x7E] ∧ answers (.getPdrRepositoryInfo tr) ∧ answers (.getPdr tr h) ∧
      (ty ∈ ([0x00, 0x01, 0x05, 0x06, 0x7E, 0xFF] : List Byte) → answers (.getMctpVersionSupport tr ty)) ∧
      (ty ∉ ([0x00, 0x01, 0x05, 0x06, 0x7E, 0xFF] : List Byte) → tells (.getMctpVersionSupport tr ty) 0x80 []) ∧
      (ty ∈ ([0, 2, 5] : List Byte) → answers (.getPldmVersion tr ty) ∧ answers (.getPldmCommands tr ty)) ∧
      (ty ∉ ([0, 2, 5] : List Byte) → tells (.getPldmVersion tr ty) 0x83 [] ∧ tells (.getPldmCommands tr ty) 0x83 []) ∧
      tells (.getPldmTypes tr) 0 (leBytes 8 37) ∧
      exec (.setEventReceiver tr b) s = .next (({ s with mgt := { s.mgt with receiver := some b } } : State).send (.mgmt tr 0 [])) ∧
      (id.toNat ∈ State.numericIds → tells (.getSensorReading tr id) 0 (leBytes 4 (s.reading id.toNat))) ∧
      (id.toNat ∉ State.numericIds → tells (.getSensorReading tr id) 0x80 []) ∧
      (∀ v, s.stateReading id.toNat = some v → tells (.getStateSensorReadings tr id) 0 (leBytes 1 v)) ∧
      (s.stateReading id.toNat = none → tells (.getStateSensorReadings tr id) 0x80 []) ∧
      (s.mgt.events = [] → tells (.pollForPlatformEventMessage tr) 0 []) ∧
      (s.mgt.events = r :: rest → exec (.pollForPlatformEventMessage tr) s =
        .next (({ s with mgt := { s.mgt with events := rest } } : State).send (.mgmt tr 0 r.bytes))) ∧
      (ty = 0 ∨ ty = 1 → tells (.mctpUnsupportedCommand tr ty code) 0x05 []) ∧
      (ty ∉ ([0x00, 0x01, 0x05, 0x06, 0x7E] : List Byte) → exec (.mctpUnsupportedCommand tr ty code) s = .next s) ∧
      answers (.queryDeviceIdentifiers tr) ∧ tells (.getFirmwareParameters tr) 0 s.fwParams ∧
      tells (.getStatus tr) 0 (leBytes 1 (State.fwCode s.mgt.fw.ph)))

/-- Firmware update (16 R466-R468): one agent at a time; from the learned table through transfer, verification and application of a
component, each in its phase and no other; a transfer, a verification or an application that fails leaves the inactive bank invalid; an
activation is accepted only for a listed combination and is effective at a later reset; cancelling makes what was being written invalid.
Completion codes are the standard's (log 53, PRESUMED). -/
def Obligations.FirmwareUpdate : Prop :=
  ∀ (s : State) (tr : Transport) (agent size off : Nat) (comp : BitVec 16) (d : List Byte) (ok : Bool), tr ≠ .mailbox → s.heard tr = true →
    let f := s.mgt.fw
    let mine : Prop := f.agent = some agent
    let tells (i : Instr) (status : Nat) : Prop := exec i s = .next (s.send (.mgmt tr status []))
    let known : Prop := comp.toNat = 1 ∨ comp.toNat = 2
    let writing : Prop := f.ph = .download ∨ f.ph = .verify ∨ f.ph = .apply
    let bad (t : State) : Prop := t.mgt.fw.ph = .ready ∧ tget false t.mgt.fw.spareOk f.comp = false ∧ t.mgt.fw.active = f.active ∧ t.mem = s.mem
    let went (t : State) (ph : FwPh) : Prop := t.mgt.fw.ph = ph ∧ t.mgt.fw.active = f.active ∧ t.mem = s.mem
    (f.ph = .idle → exec (.requestUpdate tr agent) s =
      .next (({ s with mgt := { s.mgt with fw := { f with ph := .learn, agent := some agent } } } : State).send (.mgmt tr 0 []))) ∧
    (f.ph ≠ .idle → tells (.requestUpdate tr agent) 0x81) ∧
    (¬mine → tells (.passComponentTable tr agent comp) 0x80 ∧ tells (.updateComponent tr agent comp size) 0x80 ∧
      tells (.activateFirmware tr agent) 0x80 ∧ tells (.cancelUpdateComponent tr agent) 0x80 ∧ tells (.cancelUpdate tr agent) 0x80) ∧
    (mine → f.ph = .learn ∨ f.ph = .ready → known → exec (.passComponentTable tr agent comp) s =
      .next (({ s with mgt := { s.mgt with fw := { f with ph := .ready } } } : State).send (.mgmt tr 0 []))) ∧
    (mine → f.ph = .ready → known → size ≠ 0 → Gives (.updateComponent tr agent comp size) s (fun t => went t .download ∧
      t.mgt.fw.comp = comp.toNat ∧ t.mgt.fw.size = size ∧ t.mgt.fw.buf = [] ∧ tget false t.mgt.fw.spareOk comp.toNat = false ∧
      t.out = s.out ++ [.mgmt tr 0 [], .fwRequest tr 0 (min 512 size)])) ∧
    (mine → f.ph ≠ .ready → tells (.updateComponent tr agent comp size) 0x84 ∧ tells (.activateFirmware tr agent) 0x84) ∧
    (f.ph = .download → off = f.buf.length → Gives (.requestFirmwareDataResponse tr off d) s (fun t => went t .download ∧
      t.mgt.fw.buf = f.buf ++ d.take (f.size - f.buf.length))) ∧
    (f.ph ≠ .download → exec (.requestFirmwareDataResponse tr off d) s = .next s ∧ tells (.transferComplete tr ok) 0x84) ∧
    (f.ph = .download →
      (f.buf.length = f.size → Gives (.transferComplete tr true) s (fun t => went t .verify ∧ t.mgt.fw.buf = f.buf)) ∧
      (f.buf.length ≠ f.size ∨ ok = false → Gives (.transferComplete tr ok) s bad)) ∧
    (f.ph = .verify →
      let good : Bool := Config.fwSigned f.buf && decide (max f.minSec Config.fusedSecurityVersion ≤ Config.fwSecurity f.buf)
      (good = true → Gives (.verifyComplete tr) s (fun t => went t .apply ∧ tget [] t.mgt.fw.spare f.comp = f.buf)) ∧
      (good = false → Gives (.verifyComplete tr) s bad)) ∧
    (f.ph ≠ .verify → tells (.verifyComplete tr) 0x84) ∧
    (f.ph = .apply →
      Gives (.applyComplete tr true) s (fun t => went t .ready ∧ tget false t.mgt.fw.spareOk f.comp = true) ∧
      Gives (.applyComplete tr false) s bad) ∧
    (f.ph ≠ .apply → tells (.applyComplete tr ok) 0x84) ∧
    (mine → f.ph = .ready →
      (Config.matrixLists (s.nextVersion 1) (s.nextVersion 2) = true → Gives (.activateFirmware tr agent) s (fun t => went t .idle ∧
        t.mgt.fw.agent = none ∧ ∀ c, c = 1 ∨ c = 2 → tget false f.spareOk c = true → tget false t.mgt.fw.due c = true)) ∧
      (Config.matrixLists (s.nextVersion 1) (s.nextVersion 2) = false → tells (.activateFirmware tr agent) 0x84)) ∧
    (mine → writing → Gives (.cancelUpdateComponent tr agent) s bad) ∧
    (mine → f.ph ≠ .idle → Gives (.cancelUpdate tr agent) s (fun t => went t .idle ∧ t.mgt.fw.agent = none))

/-- Otveda commands (16 R445, R447, R449, R453, R455, R461, R463, R464): without valid credentials a privileged command answers
ACCESS_DENIED and spends its nonce; with them it has its effect; GET_NONCE gives a nonce while random bits are to be had; LOG_READ takes 1
to 16 records; a key slot is written only where the device's state allows it and the last key is never revoked; a quarantined core returns
by its bay's test (log 66, DESIGN CHOICE). Layouts of bodies are the model's (log 58, DESIGN CHOICE). -/
def Obligations.OtvedaCommands : Prop :=
  ∀ (s : State) (tr : Transport) (slot seq count : Nat) (dg : List Byte) (au : Auth) (mask func : BitVec 16) (force on : Bool) (u : UnitId)
    (code : Byte), tr ≠ .mailbox → s.heard tr = true →
    let tells (i : Instr) (status : Nat) : Prop := exec i s = .next (s.send (.mgmt tr status []))
    let u0 := s.spend au.nonce
    let done (t : State) (status : Nat) : Res := .next (t.send (.mgmt tr status []))
    let privileged : List Instr := [.revokeKey tr slot au, .logClear tr au, .selftest tr mask force au, .calibrate tr mask force au,
      .quarantine tr u au, .release tr u au, .testAccess tr on au, .ctrlRestart tr au]
    let tested : Prop := mask ≠ 0 ∧ ∃ b, b < 16 ∧ bitAt mask.toNat b = true ∧ s.bayOffline b = false
    (s.drbgReady = true → Gives (.getNonce tr) s (fun t => tfind t.mgt.nonces (trCode tr) =
      some { value := Config.drbg s.sec.rng.draws, issued := s.mgt.timer, used := false } ∧
      t.out = s.out ++ [.mgmt tr 0 (leBytes 8 (Config.drbg s.sec.rng.draws).toNat)])) ∧
    (s.drbgReady = false → tells (.getNonce tr) 0x30) ∧
    (16 < count → tells (.logRead tr seq count) 0x10) ∧ (count = 0 → tells (.logRead tr seq count) 0x01) ∧
    (0 < count → count ≤ 16 → ∃ body, exec (.logRead tr seq count) s = .next (s.send (.mgmt tr 0 body))) ∧
    (∃ body, exec (.repairList tr) s = .next (s.send (.mgmt tr 0 body))) ∧
    (Img.isPublished func.toNat = false → tells (.getSfuProgram tr func) 0x10) ∧
    (Img.isPublished func.toNat = true → ∃ body, exec (.getSfuProgram tr func) s = .next (s.send (.mgmt tr 0 body))) ∧
    tells (.otvedaUndefinedCommand tr code) 0x10 ∧
    (s.credOk tr au = false → slot < 4 → dg.length = 48 → (∀ i ∈ privileged, exec i s = done u0 0x13) ∧
      exec (.enrollKey tr slot dg (some au)) s = done u0 0x13) ∧
    (s.credOk tr au = true →
      (slot < 4 → dg.length = 48 →
        (s.enrolState = true → exec (.enrollKey tr slot dg (some au)) s =
          done { u0 with mgt := { u0.mgt with keys := tset s.mgt.keys slot dg } } 0) ∧
        (s.enrolState = false → exec (.enrollKey tr slot dg (some au)) s = done u0 0x13)) ∧
      (slot < 4 → s.enrolState = true → (thas s.mgt.keys slot = false ∨ s.mgt.keys.length ≠ 1) → exec (.revokeKey tr slot au) s =
        done { u0 with mgt := { u0.mgt with keys := tdel s.mgt.keys slot } } 0) ∧
      (slot < 4 → thas s.mgt.keys slot = true → s.mgt.keys.length = 1 → exec (.revokeKey tr slot au) s = done u0 0x13) ∧
      exec (.logClear tr au) s = done { u0 with mgt := { u0.mgt with log := [], logSeq := 1 } } 0 ∧
      exec (.testAccess tr on au) s = done { u0 with mgt := { u0.mgt with testOn := on } } 0 ∧
      (mask = 0 → exec (.selftest tr mask force au) s = done u0 0x01 ∧ exec (.calibrate tr mask force au) s = done u0 0x01) ∧
      (tested → Gives (.selftest tr mask force au) s (fun t => t.mgt.tests.length = s.mgt.tests.length + 1 ∧ t.mem = s.mem ∧ t.out = s.out ∧
          ∀ b, b < 16 → bitAt mask.toNat b = true → s.bayOffline b = false → (t.bay b).test ≠ none) ∧
        Gives (.calibrate tr mask force au) s (fun t => t.mgt.tests.length = s.mgt.tests.length + 1 ∧ t.mem = s.mem ∧ t.out = s.out)) ∧
      Gives (.quarantine tr u au) s (fun t => ((∀ e, u ≠ .engine e) → t.mem = s.mem) ∧ (s.unitSt u ≠ .quarantined →
        t.unitSt u = match u with
          | .bay _ => .draining
          | _ => .quarantined)) ∧
      (s.unitSt u ≠ .quarantined → exec (.release tr u au) s = done u0 0) ∧
      (∀ k, s.unitSt (.stack k) = .quarantined → exec (.release tr (.stack k) au) s = done u0 0x13) ∧
      (∀ k, s.unitSt (.port k) = .quarantined → Gives (.release tr (.port k) au) s (fun t => t.unitSt (.port k) = .online)) ∧
      (∀ k, s.unitSt (.bay k) = .quarantined → Gives (.release tr (.bay k) au) s (fun t => t.unitSt (.bay k) = .quarantined ∧
        (t.bay k).test.elim false (·.release) = true)) ∧
      (∀ k, s.unitSt (.core k) = .quarantined → Gives (.release tr (.core k) au) s (fun t => t.unitSt (.core k) = .quarantined ∧
        (t.bay (k / 16)).test.elim false (·.release) = true)) ∧
      Gives (.ctrlRestart tr au) s (fun t => t.mgt.restart = true ∧ t.sec.aliasKey = false ∧ t.sec.mctp = [] ∧ t.mgt.nonces = [] ∧
        t.out = s.out ++ [.mgmt tr 0 []] ∧ t.mem = s.mem ∧ t.cores = s.cores))

/-- Restarts, tests of bays, sensors and views (16 R446, R448, R451, R453, R455, R458, R462-R465; 03 R76): an expired watchdog restarts the
controller with its data path untouched; the restart's end counts a start and checks the compatibility matrix (04 R130); a waiting free bay
is tested in its turn and ends ONLINE or QUARANTINED, scrubbed; a port whose two views have differed for more than 10 ms is quarantined. -/
def Obligations.RestartsTestsAndViews : Prop :=
  ∀ (s : State) (b : BayId) (t0 : BayTest) (no : Nat) (ok : Bool) (rs : List (Nat × Nat)) (k : PortId) (code at_ : Nat) (queued : List Transport),
    let x := s.bay b
    (s.ctrlUp = true → Gives .watchdogExpiry s (fun t => t.mgt.restart = true ∧ t.mgt.watchdog = true ∧ t.sec.aliasKey = false ∧
      t.sec.mctp = [] ∧ t.sec.doe = s.sec.doe ∧ t.mem = s.mem ∧ t.cores = s.cores ∧ t.pdks = s.pdks ∧ t.mgt.timer = s.mgt.timer)) ∧
    (s.ctrlUp = false → exec .watchdogExpiry s = .next s) ∧
    (s.mgt.restart = true → Gives (.ctrlRestartDone queued) s (fun t => t.mgt.restart = false ∧ t.mgt.boot = s.mgt.boot + 1 ∧
      t.sec.aliasKey = true ∧ t.mgt.fw.ph = .idle ∧ t.mgt.tests = [] ∧ (t.dev.compatBad = true ↔ Config.matrixLists (s.runVersion 1) (s.runVersion 2) = false) ∧
      t.mgt.logSeq = (s.mgt.logSeq + 1) % 2 ^ 32 ∧ t.mem = s.mem ∧ t.cores = s.cores ∧ t.mgt.mboxBusy = false ∧
      ∀ tr ∈ queued, tr ≠ .mailbox → .mgmt tr 0x7F [] ∈ t.out)) ∧
    (s.mgt.restart = false → exec (.ctrlRestartDone queued) s = .next s) ∧
    (x.test = none → exec (.selftestBayStart b) s = .next s ∧ exec (.selftestBayDone b ok no) s = .next s) ∧
    (x.test = some t0 → t0.started = false → s.testTurn b = true → s.bayOffline b = false → x.unit_ ≠ .quarantined → x.holder = none →
      x.job = none → x.stopping = none → x.pendOff = false → Gives (.selftestBayStart b) s (fun t =>
        (t.bay b).test = some { t0 with started := true } ∧ (t.bay b).unit_ = .draining ∧ t.mem = s.mem ∧ t.cores = s.cores)) ∧
    (x.test = some t0 → t0.started = false → s.testTurn b = false → exec (.selftestBayStart b) s = .next s) ∧
    (x.test = some t0 → t0.started = false → exec (.selftestBayDone b ok no) s = .next s) ∧
    (x.test = some t0 → t0.started = true → x.unit_ ≠ .quarantined → x.stopping = none → x.pendOff = false →
      Gives (.selftestBayDone b true no) s (fun t => (t.bay b).test = none ∧ (t.bay b).unit_ = .online ∧ (t.bay b).scrubbed = true ∧
        (∀ n ∈ coresOf b, (t.core n).spad = [] ∧ (t.core n).x = []) ∧ t.mem = s.mem) ∧
      Gives (.selftestBayDone b false no) s (fun t => (t.bay b).test = none ∧ (t.bay b).unit_ = .quarantined ∧ t.mem = s.mem)) ∧
    (s.ctrlUp = false → exec (.sensorRefresh rs) s = .next s ∧ exec (.viewCompare rs) s = .next s) ∧
    (s.ctrlUp = true →
      Gives (.sensorRefresh rs) s (fun t => (∀ e, e ∉ State.numericIds → tget 0 t.mgt.sensors e = tget 0 s.mgt.sensors e) ∧
        (∀ pre e v post, rs = pre ++ (e, v) :: post → e ∈ State.numericIds → (∀ q ∈ post, q.1 ≠ e) → tget 0 t.mgt.sensors e = v) ∧
        t.mem = s.mem ∧ t.out = s.out) ∧
      Gives (.viewCompare []) s (fun t => t.mgt.view = [] ∧ (∀ u, t.unitSt u = s.unitSt u) ∧ t.mem = s.mem ∧ t.out = s.out) ∧
      (State.unitOfCode code ≠ (s.port k).unit_ → (s.port k).unit_ ≠ .quarantined → tfind s.mgt.diff (16 + k) = some at_ →
        10000000 < s.mgt.timer - at_ → Gives (.viewCompare [(16 + k.val, code)]) s (fun t => (t.port k).unit_ = .quarantined ∧
          t.mgt.logSeq = (s.mgt.logSeq + 1) % 2 ^ 32 ∧ t.mem = s.mem)) ∧
      (State.unitOfCode code ≠ (s.port k).unit_ → tfind s.mgt.diff (16 + k) = none →
        Gives (.viewCompare [(16 + k.val, code)]) s (fun t => (t.port k).unit_ = (s.port k).unit_ ∧
          tfind t.mgt.diff (16 + k) = some s.mgt.timer ∧ t.mem = s.mem)))

/-! ### Invariants of every step -/

/-- What every step keeps: package memory in its canonical form, and the power limit at a value that PWR_CAP accepts (02 R60). The canonical
form is the model's own. -/
def Obligations.StepKeepsMemoryAndLimit : Prop :=
  ∀ s t : State, step s = .next t → (s.memOk → t.memOk) ∧ (s.capOk → t.capOk)
end

