-- ==== Sys2Proof/Laws/Tab.lean ====
section
/-! SUPPORT. Lemmas about tables and about package memory: read after write, writes to other keys, and the canonical form that every
memory operation keeps. -/

namespace Sys2Proof.Machine

variable {α : Type}

@[simp] theorem tget_tset_same (d : α) (t : Tab α) (k : Nat) (v : α) : tget d (tset t k v) k = v := by
  induction t with
  | nil => simp [tset, tget]
  | cons e t ih =>
    obtain ⟨k', v'⟩ := e
    simp only [tset]
    split
    · simp [tget]
    · split
      · simp [tget]
      · simp [tget, *]

theorem tget_tset_ne (d : α) (t : Tab α) (k l : Nat) (v : α) (h : l ≠ k) : tget d (tset t k v) l = tget d t l := by
  induction t with
  | nil => simp [tset, tget, h]
  | cons e t ih =>
    obtain ⟨k', v'⟩ := e
    simp only [tset]
    split
    · simp [tget, h]
    · split
      · next hk => subst hk; simp [tget, h]
      · simp [tget, ih]

/-- What every entry and the default satisfy, a read satisfies. -/
theorem tget_all {P : α → Prop} (d : α) (t : Tab α) (k : Nat) (hd : P d) (h : ∀ e ∈ t, P e.2) : P (tget d t k) := by
  induction t with
  | nil => exact hd
  | cons e t ih =>
    simp only [tget]
    split
    · exact h e (by simp)
    · exact ih (fun x hx => h x (by simp [hx]))

theorem tget_tset (d : α) (t : Tab α) (k l : Nat) (v : α) : tget d (tset t k v) l = if l = k then v else tget d t l := by
  split
  · next h => subst h; simp
  · next h => exact tget_tset_ne d t k l v h

@[simp] theorem tset_tset (t : Tab α) (k : Nat) (v w : α) : tset (tset t k v) k w = tset t k w := by
  induction t with
  | nil => simp [tset]
  | cons e t ih =>
    obtain ⟨k', v'⟩ := e
    simp only [tset]
    split
    · simp [tset]
    · split
      · simp [tset]
      · next h1 h2 => simp [tset, h1, h2, ih]

@[simp] theorem tget_tmod_same (d : α) (t : Tab α) (k : Nat) (f : α → α) : tget d (tmod d t k f) k = f (tget d t k) := by
  simp [tmod]

theorem tget_tmod_ne (d : α) (t : Tab α) (k l : Nat) (f : α → α) (h : l ≠ k) : tget d (tmod d t k f) l = tget d t l := by
  simp [tmod, tget_tset_ne _ _ _ _ _ h]

@[simp] theorem tmod_tmod (d : α) (t : Tab α) (k : Nat) (f g : α → α) : tmod d (tmod d t k f) k g = tmod d t k (fun x => g (f x)) := by
  simp [tmod]

@[simp] theorem tfind_tset_same (t : Tab α) (k : Nat) (v : α) : tfind (tset t k v) k = some v := by
  induction t with
  | nil => simp [tset, tfind]
  | cons e t ih =>
    obtain ⟨k', v'⟩ := e
    simp only [tset]
    split
    · simp [tfind]
    · split
      · simp [tfind]
      · simp [tfind, *]

/-! ### Package memory -/

/-- The canonical form as a statement about every entry and every pair of entries. -/
theorem wf_iff (m : List Host.Cell) :
    Memory.wf m = true ↔ m.Pairwise (fun a b => a.1 < b.1) ∧ ∀ c ∈ m, c.2 ≠ 0 := by
  induction m with
  | nil => simp [Memory.wf]
  | cons c t ih =>
    cases t with
    | nil => simp [Memory.wf]
    | cons d t =>
      simp only [Memory.wf, Bool.and_eq_true, decide_eq_true_eq, ih, bne_iff_ne, ne_eq]
      constructor
      · rintro ⟨⟨hc, hlt⟩, hp, hz⟩
        refine ⟨?_, ?_⟩
        · refine List.Pairwise.cons ?_ hp
          intro e he
          rcases List.mem_cons.1 he with rfl | he
          · exact hlt
          · exact lt_trans hlt ((List.pairwise_cons.1 hp).1 e he)
        · intro e he
          rcases List.mem_cons.1 he with rfl | he
          · exact hc
          · exact hz e he
      · rintro ⟨hp, hz⟩
        have hp' := List.pairwise_cons.1 hp
        exact ⟨⟨hz c (by simp), hp'.1 d (by simp)⟩, hp'.2, fun e he => hz e (List.mem_cons_of_mem _ he)⟩

/-- Keeping some of the entries keeps the canonical form. -/
theorem wf_filter (m : List Host.Cell) (q : Host.Cell → Bool) (h : Memory.wf m = true) : Memory.wf (m.filter q) = true := by
  rw [wf_iff] at h ⊢
  exact ⟨h.1.filter q, fun c hc => h.2 c (List.mem_filter.1 hc).1⟩

theorem mem_tset (t : Tab α) (k : Nat) (v : α) (e : Nat × α) (h : e ∈ tset t k v) : e = (k, v) ∨ e ∈ t := by
  induction t with
  | nil => simp [tset] at h; exact .inl h
  | cons c t ih =>
    obtain ⟨k', v'⟩ := c
    simp only [tset] at h
    split at h
    · rcases List.mem_cons.1 h with h | h
      · exact .inl h
      · exact .inr h
    · split at h
      · rcases List.mem_cons.1 h with h | h
        · exact .inl h
        · exact .inr (List.mem_cons_of_mem _ h)
      · rcases List.mem_cons.1 h with h | h
        · exact .inr (by simp [h])
        · rcases ih h with h | h
          · exact .inl h
          · exact .inr (List.mem_cons_of_mem _ h)

/-- A table in rising order stays so when an entry is written. -/
theorem tset_sorted (t : Tab α) (k : Nat) (v : α) (h : t.Pairwise (fun a b => a.1 < b.1)) :
    (tset t k v).Pairwise (fun a b => a.1 < b.1) := by
  induction t with
  | nil => simp [tset]
  | cons c t ih =>
    obtain ⟨k', v'⟩ := c
    have hp := List.pairwise_cons.1 h
    simp only [tset]
    split
    · next hk =>
      refine List.Pairwise.cons ?_ h
      intro e he
      rcases List.mem_cons.1 he with rfl | he
      · exact hk
      · exact lt_trans hk (hp.1 e he)
    · split
      · next h1 hk => subst hk; exact List.Pairwise.cons hp.1 hp.2
      · next h1 h2 =>
        refine List.Pairwise.cons ?_ (ih hp.2)
        intro e he
        rcases mem_tset t k v e he with rfl | he
        · show k' < k; omega
        · exact hp.1 e he

/-- Writing one byte keeps the canonical form. -/
theorem writeByte_wf (m : List Host.Cell) (a : Nat) (v : Byte) (h : Memory.wf m = true) : Memory.wf (writeByte m a v) = true := by
  have hd : Memory.wf (tdel m a) = true := wf_filter m _ h
  unfold writeByte
  split
  · exact hd
  · next hv =>
    rw [wf_iff] at hd ⊢
    refine ⟨tset_sorted _ _ _ hd.1, ?_⟩
    intro c hc
    rcases mem_tset _ _ _ _ hc with rfl | hc
    · exact hv
    · exact hd.2 c hc

/-- Writing a list of bytes keeps the canonical form. -/
theorem writeBytes_wf (m : List Host.Cell) (a : Nat) (bs : List Byte) (h : Memory.wf m = true) :
    Memory.wf (writeBytes m a bs) = true := by
  induction bs generalizing m a with
  | nil => exact h
  | cons b t ih => exact ih _ _ (writeByte_wf m a b h)

/-- Zeroing a range keeps the canonical form. -/
theorem zeroRange_wf (m : List Host.Cell) (lo hi : Nat) (h : Memory.wf m = true) : Memory.wf (zeroRange m lo hi) = true :=
  wf_filter m _ h

theorem tget_filter_ne (d : α) (t : Tab α) (k l : Nat) (h : l ≠ k) : tget d (tdel t k) l = tget d t l := by
  induction t with
  | nil => rfl
  | cons c t ih =>
    obtain ⟨k', v'⟩ := c
    unfold tdel at *
    simp only [List.filter_cons]
    by_cases hk : k' = k
    · subst hk; simp [tget, h, ih]
    · simp [hk, tget, ih]

theorem tget_tdel_same (d : α) (t : Tab α) (k : Nat) : tget d (tdel t k) k = d := by
  induction t with
  | nil => rfl
  | cons c t ih =>
    obtain ⟨k', v'⟩ := c
    unfold tdel at *
    simp only [List.filter_cons]
    by_cases hk : k' = k
    · simp [hk, ih]
    · have : k ≠ k' := fun e => hk e.symm
      simp [hk, tget, ih, this]

/-- A byte just written reads as it was written. -/
@[simp] theorem readByte_writeByte_same (m : List Host.Cell) (a : Nat) (v : Byte) : readByte (writeByte m a v) a = v := by
  unfold readByte writeByte
  split
  · next h => simp [tget_tdel_same, h]
  · simp

/-- Writing one byte leaves every other byte as it was. -/
theorem readByte_writeByte_ne (m : List Host.Cell) (a b : Nat) (v : Byte) (h : b ≠ a) : readByte (writeByte m a v) b = readByte m b := by
  unfold readByte writeByte
  split
  · exact tget_filter_ne 0 m a b h
  · simp only [tget_tset_ne _ _ _ _ _ h]; exact tget_filter_ne 0 m a b h

/-- Writing a list of bytes leaves every byte outside it as it was. -/
theorem readByte_writeBytes_out (m : List Host.Cell) (a b : Nat) (bs : List Byte) (h : b < a ∨ a + bs.length ≤ b) :
    readByte (writeBytes m a bs) b = readByte m b := by
  induction bs generalizing m a with
  | nil => rfl
  | cons v t ih =>
    simp only [List.length_cons] at h
    rw [writeBytes, ih _ _ (by omega), readByte_writeByte_ne _ _ _ _ (by omega)]

/-- Leaving out entries of other keys does not change what a key reads as. -/
theorem tget_filter (d : α) (t : Tab α) (q : Nat × α → Bool) (l : Nat) (h : ∀ v, q (l, v) = true) : tget d (t.filter q) l = tget d t l := by
  induction t with
  | nil => rfl
  | cons c t ih =>
    obtain ⟨k', v'⟩ := c
    simp only [List.filter_cons]
    split
    · simp only [tget, ih]
    · next hc =>
      have : l ≠ k' := by rintro rfl; exact hc (h v')
      simp only [tget, ih, if_neg this]

/-- Zeroing a range leaves every byte outside it as it was. -/
theorem readByte_zeroRange_out (m : List Host.Cell) (lo hi b : Nat) (h : b < lo ∨ hi ≤ b) :
    readByte (zeroRange m lo hi) b = readByte m b := by
  refine tget_filter 0 m _ b (fun v => ?_)
  simp only [Bool.or_eq_true, decide_eq_true_eq]
  exact h

end Sys2Proof.Machine
end

