-- ==== Sys2Proof/Laws/State.lean ====
section
/-! SUPPORT. One lemma per field of the state for each operation that changes one part of it: what the operation writes, and that every
other field stands. Then what each part reads after it was changed. -/

namespace Sys2Proof.Machine.State

variable (s : State)


/-! ### `modPdk` -/

@[simp] theorem modPdk_pending (p : Nat) (f : Pdk → Pdk) : (s.modPdk p f).pending = s.pending := rfl
@[simp] theorem modPdk_out (p : Nat) (f : Pdk → Pdk) : (s.modPdk p f).out = s.out := rfl
@[simp] theorem modPdk_dev (p : Nat) (f : Pdk → Pdk) : (s.modPdk p f).dev = s.dev := rfl
@[simp] theorem modPdk_hif (p : Nat) (f : Pdk → Pdk) : (s.modPdk p f).hif = s.hif := rfl
@[simp] theorem modPdk_sec (p : Nat) (f : Pdk → Pdk) : (s.modPdk p f).sec = s.sec := rfl
@[simp] theorem modPdk_ldr (p : Nat) (f : Pdk → Pdk) : (s.modPdk p f).ldr = s.ldr := rfl
@[simp] theorem modPdk_plat (p : Nat) (f : Pdk → Pdk) : (s.modPdk p f).plat = s.plat := rfl
@[simp] theorem modPdk_own (p : Nat) (f : Pdk → Pdk) : (s.modPdk p f).own = s.own := rfl
@[simp] theorem modPdk_pdks (p : Nat) (f : Pdk → Pdk) : (s.modPdk p f).pdks = tmod {} s.pdks p f := rfl
@[simp] theorem modPdk_rings (p : Nat) (f : Pdk → Pdk) : (s.modPdk p f).rings = s.rings := rfl
@[simp] theorem modPdk_sch (p : Nat) (f : Pdk → Pdk) : (s.modPdk p f).sch = s.sch := rfl
@[simp] theorem modPdk_bays (p : Nat) (f : Pdk → Pdk) : (s.modPdk p f).bays = s.bays := rfl
@[simp] theorem modPdk_cores (p : Nat) (f : Pdk → Pdk) : (s.modPdk p f).cores = s.cores := rfl
@[simp] theorem modPdk_saves (p : Nat) (f : Pdk → Pdk) : (s.modPdk p f).saves = s.saves := rfl
@[simp] theorem modPdk_semFly (p : Nat) (f : Pdk → Pdk) : (s.modPdk p f).semFly = s.semFly := rfl
@[simp] theorem modPdk_hqFly (p : Nat) (f : Pdk → Pdk) : (s.modPdk p f).hqFly = s.hqFly := rfl
@[simp] theorem modPdk_mem (p : Nat) (f : Pdk → Pdk) : (s.modPdk p f).mem = s.mem := rfl
@[simp] theorem modPdk_mcs (p : Nat) (f : Pdk → Pdk) : (s.modPdk p f).mcs = s.mcs := rfl
@[simp] theorem modPdk_yard (p : Nat) (f : Pdk → Pdk) : (s.modPdk p f).yard = s.yard := rfl
@[simp] theorem modPdk_tmb (p : Nat) (f : Pdk → Pdk) : (s.modPdk p f).tmb = s.tmb := rfl
@[simp] theorem modPdk_fab (p : Nat) (f : Pdk → Pdk) : (s.modPdk p f).fab = s.fab := rfl
@[simp] theorem modPdk_mgt (p : Nat) (f : Pdk → Pdk) : (s.modPdk p f).mgt = s.mgt := rfl
@[simp] theorem modPdk_ras (p : Nat) (f : Pdk → Pdk) : (s.modPdk p f).ras = s.ras := rfl
@[simp] theorem modPdk_free (p : Nat) (f : Pdk → Pdk) : (s.modPdk p f).free = s.free := rfl

/-! ### `modRing` -/

@[simp] theorem modRing_pending (p k : Nat) (f : Ring → Ring) : (s.modRing p k f).pending = s.pending := rfl
@[simp] theorem modRing_out (p k : Nat) (f : Ring → Ring) : (s.modRing p k f).out = s.out := rfl
@[simp] theorem modRing_dev (p k : Nat) (f : Ring → Ring) : (s.modRing p k f).dev = s.dev := rfl
@[simp] theorem modRing_hif (p k : Nat) (f : Ring → Ring) : (s.modRing p k f).hif = s.hif := rfl
@[simp] theorem modRing_sec (p k : Nat) (f : Ring → Ring) : (s.modRing p k f).sec = s.sec := rfl
@[simp] theorem modRing_ldr (p k : Nat) (f : Ring → Ring) : (s.modRing p k f).ldr = s.ldr := rfl
@[simp] theorem modRing_plat (p k : Nat) (f : Ring → Ring) : (s.modRing p k f).plat = s.plat := rfl
@[simp] theorem modRing_own (p k : Nat) (f : Ring → Ring) : (s.modRing p k f).own = s.own := rfl
@[simp] theorem modRing_pdks (p k : Nat) (f : Ring → Ring) : (s.modRing p k f).pdks = s.pdks := rfl
@[simp] theorem modRing_rings (p k : Nat) (f : Ring → Ring) : (s.modRing p k f).rings = tmod {} s.rings (p * 256 + k) f := rfl
@[simp] theorem modRing_sch (p k : Nat) (f : Ring → Ring) : (s.modRing p k f).sch = s.sch := rfl
@[simp] theorem modRing_bays (p k : Nat) (f : Ring → Ring) : (s.modRing p k f).bays = s.bays := rfl
@[simp] theorem modRing_cores (p k : Nat) (f : Ring → Ring) : (s.modRing p k f).cores = s.cores := rfl
@[simp] theorem modRing_saves (p k : Nat) (f : Ring → Ring) : (s.modRing p k f).saves = s.saves := rfl
@[simp] theorem modRing_semFly (p k : Nat) (f : Ring → Ring) : (s.modRing p k f).semFly = s.semFly := rfl
@[simp] theorem modRing_hqFly (p k : Nat) (f : Ring → Ring) : (s.modRing p k f).hqFly = s.hqFly := rfl
@[simp] theorem modRing_mem (p k : Nat) (f : Ring → Ring) : (s.modRing p k f).mem = s.mem := rfl
@[simp] theorem modRing_mcs (p k : Nat) (f : Ring → Ring) : (s.modRing p k f).mcs = s.mcs := rfl
@[simp] theorem modRing_yard (p k : Nat) (f : Ring → Ring) : (s.modRing p k f).yard = s.yard := rfl
@[simp] theorem modRing_tmb (p k : Nat) (f : Ring → Ring) : (s.modRing p k f).tmb = s.tmb := rfl
@[simp] theorem modRing_fab (p k : Nat) (f : Ring → Ring) : (s.modRing p k f).fab = s.fab := rfl
@[simp] theorem modRing_mgt (p k : Nat) (f : Ring → Ring) : (s.modRing p k f).mgt = s.mgt := rfl
@[simp] theorem modRing_ras (p k : Nat) (f : Ring → Ring) : (s.modRing p k f).ras = s.ras := rfl
@[simp] theorem modRing_free (p k : Nat) (f : Ring → Ring) : (s.modRing p k f).free = s.free := rfl

/-! ### `modBay` -/

@[simp] theorem modBay_pending (b : Nat) (f : Bay → Bay) : (s.modBay b f).pending = s.pending := rfl
@[simp] theorem modBay_out (b : Nat) (f : Bay → Bay) : (s.modBay b f).out = s.out := rfl
@[simp] theorem modBay_dev (b : Nat) (f : Bay → Bay) : (s.modBay b f).dev = s.dev := rfl
@[simp] theorem modBay_hif (b : Nat) (f : Bay → Bay) : (s.modBay b f).hif = s.hif := rfl
@[simp] theorem modBay_sec (b : Nat) (f : Bay → Bay) : (s.modBay b f).sec = s.sec := rfl
@[simp] theorem modBay_ldr (b : Nat) (f : Bay → Bay) : (s.modBay b f).ldr = s.ldr := rfl
@[simp] theorem modBay_plat (b : Nat) (f : Bay → Bay) : (s.modBay b f).plat = s.plat := rfl
@[simp] theorem modBay_own (b : Nat) (f : Bay → Bay) : (s.modBay b f).own = s.own := rfl
@[simp] theorem modBay_pdks (b : Nat) (f : Bay → Bay) : (s.modBay b f).pdks = s.pdks := rfl
@[simp] theorem modBay_rings (b : Nat) (f : Bay → Bay) : (s.modBay b f).rings = s.rings := rfl
@[simp] theorem modBay_sch (b : Nat) (f : Bay → Bay) : (s.modBay b f).sch = s.sch := rfl
@[simp] theorem modBay_bays (b : Nat) (f : Bay → Bay) : (s.modBay b f).bays = tmod {} s.bays b f := rfl
@[simp] theorem modBay_cores (b : Nat) (f : Bay → Bay) : (s.modBay b f).cores = s.cores := rfl
@[simp] theorem modBay_saves (b : Nat) (f : Bay → Bay) : (s.modBay b f).saves = s.saves := rfl
@[simp] theorem modBay_semFly (b : Nat) (f : Bay → Bay) : (s.modBay b f).semFly = s.semFly := rfl
@[simp] theorem modBay_hqFly (b : Nat) (f : Bay → Bay) : (s.modBay b f).hqFly = s.hqFly := rfl
@[simp] theorem modBay_mem (b : Nat) (f : Bay → Bay) : (s.modBay b f).mem = s.mem := rfl
@[simp] theorem modBay_mcs (b : Nat) (f : Bay → Bay) : (s.modBay b f).mcs = s.mcs := rfl
@[simp] theorem modBay_yard (b : Nat) (f : Bay → Bay) : (s.modBay b f).yard = s.yard := rfl
@[simp] theorem modBay_tmb (b : Nat) (f : Bay → Bay) : (s.modBay b f).tmb = s.tmb := rfl
@[simp] theorem modBay_fab (b : Nat) (f : Bay → Bay) : (s.modBay b f).fab = s.fab := rfl
@[simp] theorem modBay_mgt (b : Nat) (f : Bay → Bay) : (s.modBay b f).mgt = s.mgt := rfl
@[simp] theorem modBay_ras (b : Nat) (f : Bay → Bay) : (s.modBay b f).ras = s.ras := rfl
@[simp] theorem modBay_free (b : Nat) (f : Bay → Bay) : (s.modBay b f).free = s.free := rfl

/-! ### `modCore` -/

@[simp] theorem modCore_pending (n : Nat) (f : Core → Core) : (s.modCore n f).pending = s.pending := rfl
@[simp] theorem modCore_out (n : Nat) (f : Core → Core) : (s.modCore n f).out = s.out := rfl
@[simp] theorem modCore_dev (n : Nat) (f : Core → Core) : (s.modCore n f).dev = s.dev := rfl
@[simp] theorem modCore_hif (n : Nat) (f : Core → Core) : (s.modCore n f).hif = s.hif := rfl
@[simp] theorem modCore_sec (n : Nat) (f : Core → Core) : (s.modCore n f).sec = s.sec := rfl
@[simp] theorem modCore_ldr (n : Nat) (f : Core → Core) : (s.modCore n f).ldr = s.ldr := rfl
@[simp] theorem modCore_plat (n : Nat) (f : Core → Core) : (s.modCore n f).plat = s.plat := rfl
@[simp] theorem modCore_own (n : Nat) (f : Core → Core) : (s.modCore n f).own = s.own := rfl
@[simp] theorem modCore_pdks (n : Nat) (f : Core → Core) : (s.modCore n f).pdks = s.pdks := rfl
@[simp] theorem modCore_rings (n : Nat) (f : Core → Core) : (s.modCore n f).rings = s.rings := rfl
@[simp] theorem modCore_sch (n : Nat) (f : Core → Core) : (s.modCore n f).sch = s.sch := rfl
@[simp] theorem modCore_bays (n : Nat) (f : Core → Core) : (s.modCore n f).bays = s.bays := rfl
@[simp] theorem modCore_cores (n : Nat) (f : Core → Core) : (s.modCore n f).cores = tmod {} s.cores n f := rfl
@[simp] theorem modCore_saves (n : Nat) (f : Core → Core) : (s.modCore n f).saves = s.saves := rfl
@[simp] theorem modCore_semFly (n : Nat) (f : Core → Core) : (s.modCore n f).semFly = s.semFly := rfl
@[simp] theorem modCore_hqFly (n : Nat) (f : Core → Core) : (s.modCore n f).hqFly = s.hqFly := rfl
@[simp] theorem modCore_mem (n : Nat) (f : Core → Core) : (s.modCore n f).mem = s.mem := rfl
@[simp] theorem modCore_mcs (n : Nat) (f : Core → Core) : (s.modCore n f).mcs = s.mcs := rfl
@[simp] theorem modCore_yard (n : Nat) (f : Core → Core) : (s.modCore n f).yard = s.yard := rfl
@[simp] theorem modCore_tmb (n : Nat) (f : Core → Core) : (s.modCore n f).tmb = s.tmb := rfl
@[simp] theorem modCore_fab (n : Nat) (f : Core → Core) : (s.modCore n f).fab = s.fab := rfl
@[simp] theorem modCore_mgt (n : Nat) (f : Core → Core) : (s.modCore n f).mgt = s.mgt := rfl
@[simp] theorem modCore_ras (n : Nat) (f : Core → Core) : (s.modCore n f).ras = s.ras := rfl
@[simp] theorem modCore_free (n : Nat) (f : Core → Core) : (s.modCore n f).free = s.free := rfl

/-! ### `modFn` -/

@[simp] theorem modFn_pending (fn : Nat) (f : FnCfg → FnCfg) : (s.modFn fn f).pending = s.pending := rfl
@[simp] theorem modFn_out (fn : Nat) (f : FnCfg → FnCfg) : (s.modFn fn f).out = s.out := rfl
@[simp] theorem modFn_dev (fn : Nat) (f : FnCfg → FnCfg) : (s.modFn fn f).dev = s.dev := rfl
@[simp] theorem modFn_hif (fn : Nat) (f : FnCfg → FnCfg) : (s.modFn fn f).hif = { s.hif with fns := tmod {} s.hif.fns fn f } := rfl
@[simp] theorem modFn_sec (fn : Nat) (f : FnCfg → FnCfg) : (s.modFn fn f).sec = s.sec := rfl
@[simp] theorem modFn_ldr (fn : Nat) (f : FnCfg → FnCfg) : (s.modFn fn f).ldr = s.ldr := rfl
@[simp] theorem modFn_plat (fn : Nat) (f : FnCfg → FnCfg) : (s.modFn fn f).plat = s.plat := rfl
@[simp] theorem modFn_own (fn : Nat) (f : FnCfg → FnCfg) : (s.modFn fn f).own = s.own := rfl
@[simp] theorem modFn_pdks (fn : Nat) (f : FnCfg → FnCfg) : (s.modFn fn f).pdks = s.pdks := rfl
@[simp] theorem modFn_rings (fn : Nat) (f : FnCfg → FnCfg) : (s.modFn fn f).rings = s.rings := rfl
@[simp] theorem modFn_sch (fn : Nat) (f : FnCfg → FnCfg) : (s.modFn fn f).sch = s.sch := rfl
@[simp] theorem modFn_bays (fn : Nat) (f : FnCfg → FnCfg) : (s.modFn fn f).bays = s.bays := rfl
@[simp] theorem modFn_cores (fn : Nat) (f : FnCfg → FnCfg) : (s.modFn fn f).cores = s.cores := rfl
@[simp] theorem modFn_saves (fn : Nat) (f : FnCfg → FnCfg) : (s.modFn fn f).saves = s.saves := rfl
@[simp] theorem modFn_semFly (fn : Nat) (f : FnCfg → FnCfg) : (s.modFn fn f).semFly = s.semFly := rfl
@[simp] theorem modFn_hqFly (fn : Nat) (f : FnCfg → FnCfg) : (s.modFn fn f).hqFly = s.hqFly := rfl
@[simp] theorem modFn_mem (fn : Nat) (f : FnCfg → FnCfg) : (s.modFn fn f).mem = s.mem := rfl
@[simp] theorem modFn_mcs (fn : Nat) (f : FnCfg → FnCfg) : (s.modFn fn f).mcs = s.mcs := rfl
@[simp] theorem modFn_yard (fn : Nat) (f : FnCfg → FnCfg) : (s.modFn fn f).yard = s.yard := rfl
@[simp] theorem modFn_tmb (fn : Nat) (f : FnCfg → FnCfg) : (s.modFn fn f).tmb = s.tmb := rfl
@[simp] theorem modFn_fab (fn : Nat) (f : FnCfg → FnCfg) : (s.modFn fn f).fab = s.fab := rfl
@[simp] theorem modFn_mgt (fn : Nat) (f : FnCfg → FnCfg) : (s.modFn fn f).mgt = s.mgt := rfl
@[simp] theorem modFn_ras (fn : Nat) (f : FnCfg → FnCfg) : (s.modFn fn f).ras = s.ras := rfl
@[simp] theorem modFn_free (fn : Nat) (f : FnCfg → FnCfg) : (s.modFn fn f).free = s.free := rfl

/-! ### `modTdi` -/

@[simp] theorem modTdi_pending (p : Nat) (f : Tdi → Tdi) : (s.modTdi p f).pending = s.pending := rfl
@[simp] theorem modTdi_out (p : Nat) (f : Tdi → Tdi) : (s.modTdi p f).out = s.out := rfl
@[simp] theorem modTdi_dev (p : Nat) (f : Tdi → Tdi) : (s.modTdi p f).dev = s.dev := rfl
@[simp] theorem modTdi_hif (p : Nat) (f : Tdi → Tdi) : (s.modTdi p f).hif = s.hif := rfl
@[simp] theorem modTdi_sec (p : Nat) (f : Tdi → Tdi) : (s.modTdi p f).sec = { s.sec with tdi := tmod {} s.sec.tdi p f } := rfl
@[simp] theorem modTdi_ldr (p : Nat) (f : Tdi → Tdi) : (s.modTdi p f).ldr = s.ldr := rfl
@[simp] theorem modTdi_plat (p : Nat) (f : Tdi → Tdi) : (s.modTdi p f).plat = s.plat := rfl
@[simp] theorem modTdi_own (p : Nat) (f : Tdi → Tdi) : (s.modTdi p f).own = s.own := rfl
@[simp] theorem modTdi_pdks (p : Nat) (f : Tdi → Tdi) : (s.modTdi p f).pdks = s.pdks := rfl
@[simp] theorem modTdi_rings (p : Nat) (f : Tdi → Tdi) : (s.modTdi p f).rings = s.rings := rfl
@[simp] theorem modTdi_sch (p : Nat) (f : Tdi → Tdi) : (s.modTdi p f).sch = s.sch := rfl
@[simp] theorem modTdi_bays (p : Nat) (f : Tdi → Tdi) : (s.modTdi p f).bays = s.bays := rfl
@[simp] theorem modTdi_cores (p : Nat) (f : Tdi → Tdi) : (s.modTdi p f).cores = s.cores := rfl
@[simp] theorem modTdi_saves (p : Nat) (f : Tdi → Tdi) : (s.modTdi p f).saves = s.saves := rfl
@[simp] theorem modTdi_semFly (p : Nat) (f : Tdi → Tdi) : (s.modTdi p f).semFly = s.semFly := rfl
@[simp] theorem modTdi_hqFly (p : Nat) (f : Tdi → Tdi) : (s.modTdi p f).hqFly = s.hqFly := rfl
@[simp] theorem modTdi_mem (p : Nat) (f : Tdi → Tdi) : (s.modTdi p f).mem = s.mem := rfl
@[simp] theorem modTdi_mcs (p : Nat) (f : Tdi → Tdi) : (s.modTdi p f).mcs = s.mcs := rfl
@[simp] theorem modTdi_yard (p : Nat) (f : Tdi → Tdi) : (s.modTdi p f).yard = s.yard := rfl
@[simp] theorem modTdi_tmb (p : Nat) (f : Tdi → Tdi) : (s.modTdi p f).tmb = s.tmb := rfl
@[simp] theorem modTdi_fab (p : Nat) (f : Tdi → Tdi) : (s.modTdi p f).fab = s.fab := rfl
@[simp] theorem modTdi_mgt (p : Nat) (f : Tdi → Tdi) : (s.modTdi p f).mgt = s.mgt := rfl
@[simp] theorem modTdi_ras (p : Nat) (f : Tdi → Tdi) : (s.modTdi p f).ras = s.ras := rfl
@[simp] theorem modTdi_free (p : Nat) (f : Tdi → Tdi) : (s.modTdi p f).free = s.free := rfl

/-! ### `modLoad` -/

@[simp] theorem modLoad_pending (fn : Nat) (f : LoadRegs → LoadRegs) : (s.modLoad fn f).pending = s.pending := rfl
@[simp] theorem modLoad_out (fn : Nat) (f : LoadRegs → LoadRegs) : (s.modLoad fn f).out = s.out := rfl
@[simp] theorem modLoad_dev (fn : Nat) (f : LoadRegs → LoadRegs) : (s.modLoad fn f).dev = s.dev := rfl
@[simp] theorem modLoad_hif (fn : Nat) (f : LoadRegs → LoadRegs) : (s.modLoad fn f).hif = s.hif := rfl
@[simp] theorem modLoad_sec (fn : Nat) (f : LoadRegs → LoadRegs) : (s.modLoad fn f).sec = s.sec := rfl
@[simp] theorem modLoad_ldr (fn : Nat) (f : LoadRegs → LoadRegs) : (s.modLoad fn f).ldr = { s.ldr with regs := tmod {} s.ldr.regs fn f } := rfl
@[simp] theorem modLoad_plat (fn : Nat) (f : LoadRegs → LoadRegs) : (s.modLoad fn f).plat = s.plat := rfl
@[simp] theorem modLoad_own (fn : Nat) (f : LoadRegs → LoadRegs) : (s.modLoad fn f).own = s.own := rfl
@[simp] theorem modLoad_pdks (fn : Nat) (f : LoadRegs → LoadRegs) : (s.modLoad fn f).pdks = s.pdks := rfl
@[simp] theorem modLoad_rings (fn : Nat) (f : LoadRegs → LoadRegs) : (s.modLoad fn f).rings = s.rings := rfl
@[simp] theorem modLoad_sch (fn : Nat) (f : LoadRegs → LoadRegs) : (s.modLoad fn f).sch = s.sch := rfl
@[simp] theorem modLoad_bays (fn : Nat) (f : LoadRegs → LoadRegs) : (s.modLoad fn f).bays = s.bays := rfl
@[simp] theorem modLoad_cores (fn : Nat) (f : LoadRegs → LoadRegs) : (s.modLoad fn f).cores = s.cores := rfl
@[simp] theorem modLoad_saves (fn : Nat) (f : LoadRegs → LoadRegs) : (s.modLoad fn f).saves = s.saves := rfl
@[simp] theorem modLoad_semFly (fn : Nat) (f : LoadRegs → LoadRegs) : (s.modLoad fn f).semFly = s.semFly := rfl
@[simp] theorem modLoad_hqFly (fn : Nat) (f : LoadRegs → LoadRegs) : (s.modLoad fn f).hqFly = s.hqFly := rfl
@[simp] theorem modLoad_mem (fn : Nat) (f : LoadRegs → LoadRegs) : (s.modLoad fn f).mem = s.mem := rfl
@[simp] theorem modLoad_mcs (fn : Nat) (f : LoadRegs → LoadRegs) : (s.modLoad fn f).mcs = s.mcs := rfl
@[simp] theorem modLoad_yard (fn : Nat) (f : LoadRegs → LoadRegs) : (s.modLoad fn f).yard = s.yard := rfl
@[simp] theorem modLoad_tmb (fn : Nat) (f : LoadRegs → LoadRegs) : (s.modLoad fn f).tmb = s.tmb := rfl
@[simp] theorem modLoad_fab (fn : Nat) (f : LoadRegs → LoadRegs) : (s.modLoad fn f).fab = s.fab := rfl
@[simp] theorem modLoad_mgt (fn : Nat) (f : LoadRegs → LoadRegs) : (s.modLoad fn f).mgt = s.mgt := rfl
@[simp] theorem modLoad_ras (fn : Nat) (f : LoadRegs → LoadRegs) : (s.modLoad fn f).ras = s.ras := rfl
@[simp] theorem modLoad_free (fn : Nat) (f : LoadRegs → LoadRegs) : (s.modLoad fn f).free = s.free := rfl

/-! ### `modGraph` -/

@[simp] theorem modGraph_pending (p g : Nat) (f : GraphSt → GraphSt) : (s.modGraph p g f).pending = s.pending := rfl
@[simp] theorem modGraph_out (p g : Nat) (f : GraphSt → GraphSt) : (s.modGraph p g f).out = s.out := rfl
@[simp] theorem modGraph_dev (p g : Nat) (f : GraphSt → GraphSt) : (s.modGraph p g f).dev = s.dev := rfl
@[simp] theorem modGraph_hif (p g : Nat) (f : GraphSt → GraphSt) : (s.modGraph p g f).hif = s.hif := rfl
@[simp] theorem modGraph_sec (p g : Nat) (f : GraphSt → GraphSt) : (s.modGraph p g f).sec = s.sec := rfl
@[simp] theorem modGraph_ldr (p g : Nat) (f : GraphSt → GraphSt) : (s.modGraph p g f).ldr = s.ldr := rfl
@[simp] theorem modGraph_plat (p g : Nat) (f : GraphSt → GraphSt) : (s.modGraph p g f).plat = s.plat := rfl
@[simp] theorem modGraph_own (p g : Nat) (f : GraphSt → GraphSt) : (s.modGraph p g f).own = s.own := rfl
@[simp] theorem modGraph_pdks (p g : Nat) (f : GraphSt → GraphSt) : (s.modGraph p g f).pdks = s.pdks := rfl
@[simp] theorem modGraph_rings (p g : Nat) (f : GraphSt → GraphSt) : (s.modGraph p g f).rings = s.rings := rfl
@[simp] theorem modGraph_sch (p g : Nat) (f : GraphSt → GraphSt) : (s.modGraph p g f).sch = s.sch := rfl
@[simp] theorem modGraph_bays (p g : Nat) (f : GraphSt → GraphSt) : (s.modGraph p g f).bays = s.bays := rfl
@[simp] theorem modGraph_cores (p g : Nat) (f : GraphSt → GraphSt) : (s.modGraph p g f).cores = s.cores := rfl
@[simp] theorem modGraph_saves (p g : Nat) (f : GraphSt → GraphSt) : (s.modGraph p g f).saves = s.saves := rfl
@[simp] theorem modGraph_semFly (p g : Nat) (f : GraphSt → GraphSt) : (s.modGraph p g f).semFly = s.semFly := rfl
@[simp] theorem modGraph_hqFly (p g : Nat) (f : GraphSt → GraphSt) : (s.modGraph p g f).hqFly = s.hqFly := rfl
@[simp] theorem modGraph_mem (p g : Nat) (f : GraphSt → GraphSt) : (s.modGraph p g f).mem = s.mem := rfl
@[simp] theorem modGraph_mcs (p g : Nat) (f : GraphSt → GraphSt) : (s.modGraph p g f).mcs = s.mcs := rfl
@[simp] theorem modGraph_yard (p g : Nat) (f : GraphSt → GraphSt) : (s.modGraph p g f).yard = s.yard := rfl
@[simp] theorem modGraph_tmb (p g : Nat) (f : GraphSt → GraphSt) : (s.modGraph p g f).tmb = { s.tmb with graphs := tmod {} s.tmb.graphs (p * 16 + g) f } := rfl
@[simp] theorem modGraph_fab (p g : Nat) (f : GraphSt → GraphSt) : (s.modGraph p g f).fab = s.fab := rfl
@[simp] theorem modGraph_mgt (p g : Nat) (f : GraphSt → GraphSt) : (s.modGraph p g f).mgt = s.mgt := rfl
@[simp] theorem modGraph_ras (p g : Nat) (f : GraphSt → GraphSt) : (s.modGraph p g f).ras = s.ras := rfl
@[simp] theorem modGraph_free (p g : Nat) (f : GraphSt → GraphSt) : (s.modGraph p g f).free = s.free := rfl

/-! ### `modFabJob` -/

@[simp] theorem modFabJob_pending (p j : Nat) (f : FabJob → FabJob) : (s.modFabJob p j f).pending = s.pending := rfl
@[simp] theorem modFabJob_out (p j : Nat) (f : FabJob → FabJob) : (s.modFabJob p j f).out = s.out := rfl
@[simp] theorem modFabJob_dev (p j : Nat) (f : FabJob → FabJob) : (s.modFabJob p j f).dev = s.dev := rfl
@[simp] theorem modFabJob_hif (p j : Nat) (f : FabJob → FabJob) : (s.modFabJob p j f).hif = s.hif := rfl
@[simp] theorem modFabJob_sec (p j : Nat) (f : FabJob → FabJob) : (s.modFabJob p j f).sec = s.sec := rfl
@[simp] theorem modFabJob_ldr (p j : Nat) (f : FabJob → FabJob) : (s.modFabJob p j f).ldr = s.ldr := rfl
@[simp] theorem modFabJob_plat (p j : Nat) (f : FabJob → FabJob) : (s.modFabJob p j f).plat = s.plat := rfl
@[simp] theorem modFabJob_own (p j : Nat) (f : FabJob → FabJob) : (s.modFabJob p j f).own = s.own := rfl
@[simp] theorem modFabJob_pdks (p j : Nat) (f : FabJob → FabJob) : (s.modFabJob p j f).pdks = s.pdks := rfl
@[simp] theorem modFabJob_rings (p j : Nat) (f : FabJob → FabJob) : (s.modFabJob p j f).rings = s.rings := rfl
@[simp] theorem modFabJob_sch (p j : Nat) (f : FabJob → FabJob) : (s.modFabJob p j f).sch = s.sch := rfl
@[simp] theorem modFabJob_bays (p j : Nat) (f : FabJob → FabJob) : (s.modFabJob p j f).bays = s.bays := rfl
@[simp] theorem modFabJob_cores (p j : Nat) (f : FabJob → FabJob) : (s.modFabJob p j f).cores = s.cores := rfl
@[simp] theorem modFabJob_saves (p j : Nat) (f : FabJob → FabJob) : (s.modFabJob p j f).saves = s.saves := rfl
@[simp] theorem modFabJob_semFly (p j : Nat) (f : FabJob → FabJob) : (s.modFabJob p j f).semFly = s.semFly := rfl
@[simp] theorem modFabJob_hqFly (p j : Nat) (f : FabJob → FabJob) : (s.modFabJob p j f).hqFly = s.hqFly := rfl
@[simp] theorem modFabJob_mem (p j : Nat) (f : FabJob → FabJob) : (s.modFabJob p j f).mem = s.mem := rfl
@[simp] theorem modFabJob_mcs (p j : Nat) (f : FabJob → FabJob) : (s.modFabJob p j f).mcs = s.mcs := rfl
@[simp] theorem modFabJob_yard (p j : Nat) (f : FabJob → FabJob) : (s.modFabJob p j f).yard = s.yard := rfl
@[simp] theorem modFabJob_tmb (p j : Nat) (f : FabJob → FabJob) : (s.modFabJob p j f).tmb = s.tmb := rfl
@[simp] theorem modFabJob_fab (p j : Nat) (f : FabJob → FabJob) : (s.modFabJob p j f).fab = { s.fab with jobs := tmod {} s.fab.jobs (p * 16 + j) f } := rfl
@[simp] theorem modFabJob_mgt (p j : Nat) (f : FabJob → FabJob) : (s.modFabJob p j f).mgt = s.mgt := rfl
@[simp] theorem modFabJob_ras (p j : Nat) (f : FabJob → FabJob) : (s.modFabJob p j f).ras = s.ras := rfl
@[simp] theorem modFabJob_free (p j : Nat) (f : FabJob → FabJob) : (s.modFabJob p j f).free = s.free := rfl

/-! ### `modEyelet` -/

@[simp] theorem modEyelet_pending (p e : Nat) (f : Eyelet → Eyelet) : (s.modEyelet p e f).pending = s.pending := rfl
@[simp] theorem modEyelet_out (p e : Nat) (f : Eyelet → Eyelet) : (s.modEyelet p e f).out = s.out := rfl
@[simp] theorem modEyelet_dev (p e : Nat) (f : Eyelet → Eyelet) : (s.modEyelet p e f).dev = s.dev := rfl
@[simp] theorem modEyelet_hif (p e : Nat) (f : Eyelet → Eyelet) : (s.modEyelet p e f).hif = s.hif := rfl
@[simp] theorem modEyelet_sec (p e : Nat) (f : Eyelet → Eyelet) : (s.modEyelet p e f).sec = s.sec := rfl
@[simp] theorem modEyelet_ldr (p e : Nat) (f : Eyelet → Eyelet) : (s.modEyelet p e f).ldr = s.ldr := rfl
@[simp] theorem modEyelet_plat (p e : Nat) (f : Eyelet → Eyelet) : (s.modEyelet p e f).plat = s.plat := rfl
@[simp] theorem modEyelet_own (p e : Nat) (f : Eyelet → Eyelet) : (s.modEyelet p e f).own = s.own := rfl
@[simp] theorem modEyelet_pdks (p e : Nat) (f : Eyelet → Eyelet) : (s.modEyelet p e f).pdks = s.pdks := rfl
@[simp] theorem modEyelet_rings (p e : Nat) (f : Eyelet → Eyelet) : (s.modEyelet p e f).rings = s.rings := rfl
@[simp] theorem modEyelet_sch (p e : Nat) (f : Eyelet → Eyelet) : (s.modEyelet p e f).sch = s.sch := rfl
@[simp] theorem modEyelet_bays (p e : Nat) (f : Eyelet → Eyelet) : (s.modEyelet p e f).bays = s.bays := rfl
@[simp] theorem modEyelet_cores (p e : Nat) (f : Eyelet → Eyelet) : (s.modEyelet p e f).cores = s.cores := rfl
@[simp] theorem modEyelet_saves (p e : Nat) (f : Eyelet → Eyelet) : (s.modEyelet p e f).saves = s.saves := rfl
@[simp] theorem modEyelet_semFly (p e : Nat) (f : Eyelet → Eyelet) : (s.modEyelet p e f).semFly = s.semFly := rfl
@[simp] theorem modEyelet_hqFly (p e : Nat) (f : Eyelet → Eyelet) : (s.modEyelet p e f).hqFly = s.hqFly := rfl
@[simp] theorem modEyelet_mem (p e : Nat) (f : Eyelet → Eyelet) : (s.modEyelet p e f).mem = s.mem := rfl
@[simp] theorem modEyelet_mcs (p e : Nat) (f : Eyelet → Eyelet) : (s.modEyelet p e f).mcs = s.mcs := rfl
@[simp] theorem modEyelet_yard (p e : Nat) (f : Eyelet → Eyelet) : (s.modEyelet p e f).yard = s.yard := rfl
@[simp] theorem modEyelet_tmb (p e : Nat) (f : Eyelet → Eyelet) : (s.modEyelet p e f).tmb = s.tmb := rfl
@[simp] theorem modEyelet_fab (p e : Nat) (f : Eyelet → Eyelet) : (s.modEyelet p e f).fab = { s.fab with eyes := tmod {} s.fab.eyes (p * 4096 + e) f } := rfl
@[simp] theorem modEyelet_mgt (p e : Nat) (f : Eyelet → Eyelet) : (s.modEyelet p e f).mgt = s.mgt := rfl
@[simp] theorem modEyelet_ras (p e : Nat) (f : Eyelet → Eyelet) : (s.modEyelet p e f).ras = s.ras := rfl
@[simp] theorem modEyelet_free (p e : Nat) (f : Eyelet → Eyelet) : (s.modEyelet p e f).free = s.free := rfl

/-! ### `modPort` -/

@[simp] theorem modPort_pending (pt : Nat) (f : Port → Port) : (s.modPort pt f).pending = s.pending := rfl
@[simp] theorem modPort_out (pt : Nat) (f : Port → Port) : (s.modPort pt f).out = s.out := rfl
@[simp] theorem modPort_dev (pt : Nat) (f : Port → Port) : (s.modPort pt f).dev = s.dev := rfl
@[simp] theorem modPort_hif (pt : Nat) (f : Port → Port) : (s.modPort pt f).hif = s.hif := rfl
@[simp] theorem modPort_sec (pt : Nat) (f : Port → Port) : (s.modPort pt f).sec = s.sec := rfl
@[simp] theorem modPort_ldr (pt : Nat) (f : Port → Port) : (s.modPort pt f).ldr = s.ldr := rfl
@[simp] theorem modPort_plat (pt : Nat) (f : Port → Port) : (s.modPort pt f).plat = s.plat := rfl
@[simp] theorem modPort_own (pt : Nat) (f : Port → Port) : (s.modPort pt f).own = s.own := rfl
@[simp] theorem modPort_pdks (pt : Nat) (f : Port → Port) : (s.modPort pt f).pdks = s.pdks := rfl
@[simp] theorem modPort_rings (pt : Nat) (f : Port → Port) : (s.modPort pt f).rings = s.rings := rfl
@[simp] theorem modPort_sch (pt : Nat) (f : Port → Port) : (s.modPort pt f).sch = s.sch := rfl
@[simp] theorem modPort_bays (pt : Nat) (f : Port → Port) : (s.modPort pt f).bays = s.bays := rfl
@[simp] theorem modPort_cores (pt : Nat) (f : Port → Port) : (s.modPort pt f).cores = s.cores := rfl
@[simp] theorem modPort_saves (pt : Nat) (f : Port → Port) : (s.modPort pt f).saves = s.saves := rfl
@[simp] theorem modPort_semFly (pt : Nat) (f : Port → Port) : (s.modPort pt f).semFly = s.semFly := rfl
@[simp] theorem modPort_hqFly (pt : Nat) (f : Port → Port) : (s.modPort pt f).hqFly = s.hqFly := rfl
@[simp] theorem modPort_mem (pt : Nat) (f : Port → Port) : (s.modPort pt f).mem = s.mem := rfl
@[simp] theorem modPort_mcs (pt : Nat) (f : Port → Port) : (s.modPort pt f).mcs = s.mcs := rfl
@[simp] theorem modPort_yard (pt : Nat) (f : Port → Port) : (s.modPort pt f).yard = s.yard := rfl
@[simp] theorem modPort_tmb (pt : Nat) (f : Port → Port) : (s.modPort pt f).tmb = s.tmb := rfl
@[simp] theorem modPort_fab (pt : Nat) (f : Port → Port) : (s.modPort pt f).fab = { s.fab with ports := tmod {} s.fab.ports pt f } := rfl
@[simp] theorem modPort_mgt (pt : Nat) (f : Port → Port) : (s.modPort pt f).mgt = s.mgt := rfl
@[simp] theorem modPort_ras (pt : Nat) (f : Port → Port) : (s.modPort pt f).ras = s.ras := rfl
@[simp] theorem modPort_free (pt : Nat) (f : Port → Port) : (s.modPort pt f).free = s.free := rfl

/-! ### `modMc` -/

@[simp] theorem modMc_pending (st : Nat) (f : MemCtl → MemCtl) : (s.modMc st f).pending = s.pending := rfl
@[simp] theorem modMc_out (st : Nat) (f : MemCtl → MemCtl) : (s.modMc st f).out = s.out := rfl
@[simp] theorem modMc_dev (st : Nat) (f : MemCtl → MemCtl) : (s.modMc st f).dev = s.dev := rfl
@[simp] theorem modMc_hif (st : Nat) (f : MemCtl → MemCtl) : (s.modMc st f).hif = s.hif := rfl
@[simp] theorem modMc_sec (st : Nat) (f : MemCtl → MemCtl) : (s.modMc st f).sec = s.sec := rfl
@[simp] theorem modMc_ldr (st : Nat) (f : MemCtl → MemCtl) : (s.modMc st f).ldr = s.ldr := rfl
@[simp] theorem modMc_plat (st : Nat) (f : MemCtl → MemCtl) : (s.modMc st f).plat = s.plat := rfl
@[simp] theorem modMc_own (st : Nat) (f : MemCtl → MemCtl) : (s.modMc st f).own = s.own := rfl
@[simp] theorem modMc_pdks (st : Nat) (f : MemCtl → MemCtl) : (s.modMc st f).pdks = s.pdks := rfl
@[simp] theorem modMc_rings (st : Nat) (f : MemCtl → MemCtl) : (s.modMc st f).rings = s.rings := rfl
@[simp] theorem modMc_sch (st : Nat) (f : MemCtl → MemCtl) : (s.modMc st f).sch = s.sch := rfl
@[simp] theorem modMc_bays (st : Nat) (f : MemCtl → MemCtl) : (s.modMc st f).bays = s.bays := rfl
@[simp] theorem modMc_cores (st : Nat) (f : MemCtl → MemCtl) : (s.modMc st f).cores = s.cores := rfl
@[simp] theorem modMc_saves (st : Nat) (f : MemCtl → MemCtl) : (s.modMc st f).saves = s.saves := rfl
@[simp] theorem modMc_semFly (st : Nat) (f : MemCtl → MemCtl) : (s.modMc st f).semFly = s.semFly := rfl
@[simp] theorem modMc_hqFly (st : Nat) (f : MemCtl → MemCtl) : (s.modMc st f).hqFly = s.hqFly := rfl
@[simp] theorem modMc_mem (st : Nat) (f : MemCtl → MemCtl) : (s.modMc st f).mem = s.mem := rfl
@[simp] theorem modMc_mcs (st : Nat) (f : MemCtl → MemCtl) : (s.modMc st f).mcs = tmod {} s.mcs st f := rfl
@[simp] theorem modMc_yard (st : Nat) (f : MemCtl → MemCtl) : (s.modMc st f).yard = s.yard := rfl
@[simp] theorem modMc_tmb (st : Nat) (f : MemCtl → MemCtl) : (s.modMc st f).tmb = s.tmb := rfl
@[simp] theorem modMc_fab (st : Nat) (f : MemCtl → MemCtl) : (s.modMc st f).fab = s.fab := rfl
@[simp] theorem modMc_mgt (st : Nat) (f : MemCtl → MemCtl) : (s.modMc st f).mgt = s.mgt := rfl
@[simp] theorem modMc_ras (st : Nat) (f : MemCtl → MemCtl) : (s.modMc st f).ras = s.ras := rfl
@[simp] theorem modMc_free (st : Nat) (f : MemCtl → MemCtl) : (s.modMc st f).free = s.free := rfl

/-! ### `send` -/

@[simp] theorem send_pending (o : Out) : (s.send o).pending = s.pending := rfl
@[simp] theorem send_out (o : Out) : (s.send o).out = s.out ++ [o] := rfl
@[simp] theorem send_dev (o : Out) : (s.send o).dev = s.dev := rfl
@[simp] theorem send_hif (o : Out) : (s.send o).hif = s.hif := rfl
@[simp] theorem send_sec (o : Out) : (s.send o).sec = s.sec := rfl
@[simp] theorem send_ldr (o : Out) : (s.send o).ldr = s.ldr := rfl
@[simp] theorem send_plat (o : Out) : (s.send o).plat = s.plat := rfl
@[simp] theorem send_own (o : Out) : (s.send o).own = s.own := rfl
@[simp] theorem send_pdks (o : Out) : (s.send o).pdks = s.pdks := rfl
@[simp] theorem send_rings (o : Out) : (s.send o).rings = s.rings := rfl
@[simp] theorem send_sch (o : Out) : (s.send o).sch = s.sch := rfl
@[simp] theorem send_bays (o : Out) : (s.send o).bays = s.bays := rfl
@[simp] theorem send_cores (o : Out) : (s.send o).cores = s.cores := rfl
@[simp] theorem send_saves (o : Out) : (s.send o).saves = s.saves := rfl
@[simp] theorem send_semFly (o : Out) : (s.send o).semFly = s.semFly := rfl
@[simp] theorem send_hqFly (o : Out) : (s.send o).hqFly = s.hqFly := rfl
@[simp] theorem send_mem (o : Out) : (s.send o).mem = s.mem := rfl
@[simp] theorem send_mcs (o : Out) : (s.send o).mcs = s.mcs := rfl
@[simp] theorem send_yard (o : Out) : (s.send o).yard = s.yard := rfl
@[simp] theorem send_tmb (o : Out) : (s.send o).tmb = s.tmb := rfl
@[simp] theorem send_fab (o : Out) : (s.send o).fab = s.fab := rfl
@[simp] theorem send_mgt (o : Out) : (s.send o).mgt = s.mgt := rfl
@[simp] theorem send_ras (o : Out) : (s.send o).ras = s.ras := rfl
@[simp] theorem send_free (o : Out) : (s.send o).free = s.free := rfl

/-! ### `modYard` -/

@[simp] theorem modYard_pending (f : Yard → Yard) : (s.modYard f).pending = s.pending := rfl
@[simp] theorem modYard_out (f : Yard → Yard) : (s.modYard f).out = s.out := rfl
@[simp] theorem modYard_dev (f : Yard → Yard) : (s.modYard f).dev = s.dev := rfl
@[simp] theorem modYard_hif (f : Yard → Yard) : (s.modYard f).hif = s.hif := rfl
@[simp] theorem modYard_sec (f : Yard → Yard) : (s.modYard f).sec = s.sec := rfl
@[simp] theorem modYard_ldr (f : Yard → Yard) : (s.modYard f).ldr = s.ldr := rfl
@[simp] theorem modYard_plat (f : Yard → Yard) : (s.modYard f).plat = s.plat := rfl
@[simp] theorem modYard_own (f : Yard → Yard) : (s.modYard f).own = s.own := rfl
@[simp] theorem modYard_pdks (f : Yard → Yard) : (s.modYard f).pdks = s.pdks := rfl
@[simp] theorem modYard_rings (f : Yard → Yard) : (s.modYard f).rings = s.rings := rfl
@[simp] theorem modYard_sch (f : Yard → Yard) : (s.modYard f).sch = s.sch := rfl
@[simp] theorem modYard_bays (f : Yard → Yard) : (s.modYard f).bays = s.bays := rfl
@[simp] theorem modYard_cores (f : Yard → Yard) : (s.modYard f).cores = s.cores := rfl
@[simp] theorem modYard_saves (f : Yard → Yard) : (s.modYard f).saves = s.saves := rfl
@[simp] theorem modYard_semFly (f : Yard → Yard) : (s.modYard f).semFly = s.semFly := rfl
@[simp] theorem modYard_hqFly (f : Yard → Yard) : (s.modYard f).hqFly = s.hqFly := rfl
@[simp] theorem modYard_mem (f : Yard → Yard) : (s.modYard f).mem = s.mem := rfl
@[simp] theorem modYard_mcs (f : Yard → Yard) : (s.modYard f).mcs = s.mcs := rfl
@[simp] theorem modYard_yard (f : Yard → Yard) : (s.modYard f).yard = f s.yard := rfl
@[simp] theorem modYard_tmb (f : Yard → Yard) : (s.modYard f).tmb = s.tmb := rfl
@[simp] theorem modYard_fab (f : Yard → Yard) : (s.modYard f).fab = s.fab := rfl
@[simp] theorem modYard_mgt (f : Yard → Yard) : (s.modYard f).mgt = s.mgt := rfl
@[simp] theorem modYard_ras (f : Yard → Yard) : (s.modYard f).ras = s.ras := rfl
@[simp] theorem modYard_free (f : Yard → Yard) : (s.modYard f).free = s.free := rfl

/-! ### `newEpoch` -/

@[simp] theorem newEpoch_pending (fn : Option Nat) : (s.newEpoch fn).pending = s.pending := rfl
@[simp] theorem newEpoch_out (fn : Option Nat) : (s.newEpoch fn).out = s.out := rfl
@[simp] theorem newEpoch_dev (fn : Option Nat) : (s.newEpoch fn).dev = s.dev := rfl
@[simp] theorem newEpoch_hif (fn : Option Nat) : (s.newEpoch fn).hif = s.hif := rfl
@[simp] theorem newEpoch_ldr (fn : Option Nat) : (s.newEpoch fn).ldr = s.ldr := rfl
@[simp] theorem newEpoch_plat (fn : Option Nat) : (s.newEpoch fn).plat = s.plat := rfl
@[simp] theorem newEpoch_own (fn : Option Nat) : (s.newEpoch fn).own = s.own := rfl
@[simp] theorem newEpoch_pdks (fn : Option Nat) : (s.newEpoch fn).pdks = s.pdks := rfl
@[simp] theorem newEpoch_rings (fn : Option Nat) : (s.newEpoch fn).rings = s.rings := rfl
@[simp] theorem newEpoch_sch (fn : Option Nat) : (s.newEpoch fn).sch = s.sch := rfl
@[simp] theorem newEpoch_bays (fn : Option Nat) : (s.newEpoch fn).bays = s.bays := rfl
@[simp] theorem newEpoch_cores (fn : Option Nat) : (s.newEpoch fn).cores = s.cores := rfl
@[simp] theorem newEpoch_saves (fn : Option Nat) : (s.newEpoch fn).saves = s.saves := rfl
@[simp] theorem newEpoch_semFly (fn : Option Nat) : (s.newEpoch fn).semFly = s.semFly := rfl
@[simp] theorem newEpoch_hqFly (fn : Option Nat) : (s.newEpoch fn).hqFly = s.hqFly := rfl
@[simp] theorem newEpoch_mem (fn : Option Nat) : (s.newEpoch fn).mem = s.mem := rfl
@[simp] theorem newEpoch_mcs (fn : Option Nat) : (s.newEpoch fn).mcs = s.mcs := rfl
@[simp] theorem newEpoch_yard (fn : Option Nat) : (s.newEpoch fn).yard = s.yard := rfl
@[simp] theorem newEpoch_tmb (fn : Option Nat) : (s.newEpoch fn).tmb = s.tmb := rfl
@[simp] theorem newEpoch_fab (fn : Option Nat) : (s.newEpoch fn).fab = s.fab := rfl
@[simp] theorem newEpoch_mgt (fn : Option Nat) : (s.newEpoch fn).mgt = s.mgt := rfl
@[simp] theorem newEpoch_ras (fn : Option Nat) : (s.newEpoch fn).ras = s.ras := rfl
@[simp] theorem newEpoch_free (fn : Option Nat) : (s.newEpoch fn).free = s.free := rfl

/-! ### Reading a part that was changed -/

@[simp] theorem pdk_modPdk_same (p : Nat) (f : Pdk → Pdk) : (s.modPdk p f).pdk p = f (s.pdk p) := by simp [modPdk, pdk]
theorem pdk_modPdk_ne (p q : Nat) (f : Pdk → Pdk) (h : q ≠ p) : (s.modPdk p f).pdk q = s.pdk q := by
  simp [modPdk, pdk, tget_tmod_ne _ _ _ _ _ h]
@[simp] theorem modPdk_modPdk (p : Nat) (f g : Pdk → Pdk) : (s.modPdk p f).modPdk p g = s.modPdk p (fun x => g (f x)) := by simp [modPdk]
@[simp] theorem bay_modBay_same (b : Nat) (f : Bay → Bay) : (s.modBay b f).bay b = f (s.bay b) := by simp [modBay, bay]
theorem bay_modBay_ne (b q : Nat) (f : Bay → Bay) (h : q ≠ b) : (s.modBay b f).bay q = s.bay q := by
  simp [modBay, bay, tget_tmod_ne _ _ _ _ _ h]
@[simp] theorem modBay_modBay (b : Nat) (f g : Bay → Bay) : (s.modBay b f).modBay b g = s.modBay b (fun x => g (f x)) := by simp [modBay]
@[simp] theorem core_modCore_same (n : Nat) (f : Core → Core) : (s.modCore n f).core n = f (s.core n) := by simp [modCore, core]
theorem core_modCore_ne (n q : Nat) (f : Core → Core) (h : q ≠ n) : (s.modCore n f).core q = s.core q := by
  simp [modCore, core, tget_tmod_ne _ _ _ _ _ h]
@[simp] theorem modCore_modCore (n : Nat) (f g : Core → Core) : (s.modCore n f).modCore n g = s.modCore n (fun x => g (f x)) := by simp [modCore]
@[simp] theorem fnCfg_modFn_same (fn : Nat) (f : FnCfg → FnCfg) : (s.modFn fn f).fnCfg fn = f (s.fnCfg fn) := by simp [modFn, fnCfg]
theorem fnCfg_modFn_ne (fn q : Nat) (f : FnCfg → FnCfg) (h : q ≠ fn) : (s.modFn fn f).fnCfg q = s.fnCfg q := by
  simp [modFn, fnCfg, tget_tmod_ne _ _ _ _ _ h]
@[simp] theorem modFn_modFn (fn : Nat) (f g : FnCfg → FnCfg) : (s.modFn fn f).modFn fn g = s.modFn fn (fun x => g (f x)) := by simp [modFn]
@[simp] theorem tdi_modTdi_same (p : Nat) (f : Tdi → Tdi) : (s.modTdi p f).tdi p = f (s.tdi p) := by simp [modTdi, tdi]
theorem tdi_modTdi_ne (p q : Nat) (f : Tdi → Tdi) (h : q ≠ p) : (s.modTdi p f).tdi q = s.tdi q := by
  simp [modTdi, tdi, tget_tmod_ne _ _ _ _ _ h]
@[simp] theorem modTdi_modTdi (p : Nat) (f g : Tdi → Tdi) : (s.modTdi p f).modTdi p g = s.modTdi p (fun x => g (f x)) := by simp [modTdi]
@[simp] theorem load_modLoad_same (fn : Nat) (f : LoadRegs → LoadRegs) : (s.modLoad fn f).load fn = f (s.load fn) := by simp [modLoad, load]
theorem load_modLoad_ne (fn q : Nat) (f : LoadRegs → LoadRegs) (h : q ≠ fn) : (s.modLoad fn f).load q = s.load q := by
  simp [modLoad, load, tget_tmod_ne _ _ _ _ _ h]
@[simp] theorem modLoad_modLoad (fn : Nat) (f g : LoadRegs → LoadRegs) : (s.modLoad fn f).modLoad fn g = s.modLoad fn (fun x => g (f x)) := by simp [modLoad]
@[simp] theorem port_modPort_same (pt : Nat) (f : Port → Port) : (s.modPort pt f).port pt = f (s.port pt) := by simp [modPort, port]
theorem port_modPort_ne (pt q : Nat) (f : Port → Port) (h : q ≠ pt) : (s.modPort pt f).port q = s.port q := by
  simp [modPort, port, tget_tmod_ne _ _ _ _ _ h]
@[simp] theorem modPort_modPort (pt : Nat) (f g : Port → Port) : (s.modPort pt f).modPort pt g = s.modPort pt (fun x => g (f x)) := by simp [modPort]
@[simp] theorem mc_modMc_same (st : Nat) (f : MemCtl → MemCtl) : (s.modMc st f).mc st = f (s.mc st) := by simp [modMc, mc]
theorem mc_modMc_ne (st q : Nat) (f : MemCtl → MemCtl) (h : q ≠ st) : (s.modMc st f).mc q = s.mc q := by
  simp [modMc, mc, tget_tmod_ne _ _ _ _ _ h]
@[simp] theorem modMc_modMc (st : Nat) (f g : MemCtl → MemCtl) : (s.modMc st f).modMc st g = s.modMc st (fun x => g (f x)) := by simp [modMc]
@[simp] theorem ring_modRing_same (p k : Nat) (f : Ring → Ring) : (s.modRing p k f).ring p k = f (s.ring p k) := by
  simp [modRing, ring]
theorem ring_modRing_ne (p k q l : Nat) (f : Ring → Ring) (h : q * 256 + l ≠ p * 256 + k) : (s.modRing p k f).ring q l = s.ring q l := by
  simp [modRing, ring, tget_tmod_ne _ _ _ _ _ h]
@[simp] theorem modRing_modRing (p k : Nat) (f g : Ring → Ring) : (s.modRing p k f).modRing p k g = s.modRing p k (fun x => g (f x)) := by
  simp [modRing]
@[simp] theorem graph_modGraph_same (p i : Nat) (f : GraphSt → GraphSt) : (s.modGraph p i f).graph p i = f (s.graph p i) := by
  simp [modGraph, graph]
theorem graph_modGraph_ne (p i q l : Nat) (f : GraphSt → GraphSt) (h : q * 16 + l ≠ p * 16 + i) : (s.modGraph p i f).graph q l = s.graph q l := by
  simp [modGraph, graph, tget_tmod_ne _ _ _ _ _ h]
@[simp] theorem modGraph_modGraph (p i : Nat) (f g : GraphSt → GraphSt) : (s.modGraph p i f).modGraph p i g = s.modGraph p i (fun x => g (f x)) := by
  simp [modGraph]
@[simp] theorem fabJob_modFabJob_same (p j : Nat) (f : FabJob → FabJob) : (s.modFabJob p j f).fabJob p j = f (s.fabJob p j) := by
  simp [modFabJob, fabJob]
theorem fabJob_modFabJob_ne (p j q l : Nat) (f : FabJob → FabJob) (h : q * 16 + l ≠ p * 16 + j) : (s.modFabJob p j f).fabJob q l = s.fabJob q l := by
  simp [modFabJob, fabJob, tget_tmod_ne _ _ _ _ _ h]
@[simp] theorem modFabJob_modFabJob (p j : Nat) (f g : FabJob → FabJob) : (s.modFabJob p j f).modFabJob p j g = s.modFabJob p j (fun x => g (f x)) := by
  simp [modFabJob]
@[simp] theorem eyelet_modEyelet_same (p e : Nat) (f : Eyelet → Eyelet) : (s.modEyelet p e f).eyelet p e = f (s.eyelet p e) := by
  simp [modEyelet, eyelet]
theorem eyelet_modEyelet_ne (p e q l : Nat) (f : Eyelet → Eyelet) (h : q * 4096 + l ≠ p * 4096 + e) : (s.modEyelet p e f).eyelet q l = s.eyelet q l := by
  simp [modEyelet, eyelet, tget_tmod_ne _ _ _ _ _ h]
@[simp] theorem modEyelet_modEyelet (p e : Nat) (f g : Eyelet → Eyelet) : (s.modEyelet p e f).modEyelet p e g = s.modEyelet p e (fun x => g (f x)) := by
  simp [modEyelet]

/-! ### A part that another operation leaves alone -/

@[simp] theorem ring_modPdk (p : Nat) (f : Pdk → Pdk) (p' k' : Nat) : (s.modPdk p f).ring p' k' = s.ring p' k' := rfl
@[simp] theorem bay_modPdk (p : Nat) (f : Pdk → Pdk) (b' : Nat) : (s.modPdk p f).bay b' = s.bay b' := rfl
@[simp] theorem core_modPdk (p : Nat) (f : Pdk → Pdk) (n' : Nat) : (s.modPdk p f).core n' = s.core n' := rfl
@[simp] theorem fnCfg_modPdk (p : Nat) (f : Pdk → Pdk) (fn' : Nat) : (s.modPdk p f).fnCfg fn' = s.fnCfg fn' := rfl
@[simp] theorem tdi_modPdk (p : Nat) (f : Pdk → Pdk) (p' : Nat) : (s.modPdk p f).tdi p' = s.tdi p' := rfl
@[simp] theorem load_modPdk (p : Nat) (f : Pdk → Pdk) (fn' : Nat) : (s.modPdk p f).load fn' = s.load fn' := rfl
@[simp] theorem graph_modPdk (p : Nat) (f : Pdk → Pdk) (p' g' : Nat) : (s.modPdk p f).graph p' g' = s.graph p' g' := rfl
@[simp] theorem fabJob_modPdk (p : Nat) (f : Pdk → Pdk) (p' j' : Nat) : (s.modPdk p f).fabJob p' j' = s.fabJob p' j' := rfl
@[simp] theorem eyelet_modPdk (p : Nat) (f : Pdk → Pdk) (p' e' : Nat) : (s.modPdk p f).eyelet p' e' = s.eyelet p' e' := rfl
@[simp] theorem port_modPdk (p : Nat) (f : Pdk → Pdk) (pt' : Nat) : (s.modPdk p f).port pt' = s.port pt' := rfl
@[simp] theorem mc_modPdk (p : Nat) (f : Pdk → Pdk) (st' : Nat) : (s.modPdk p f).mc st' = s.mc st' := rfl
@[simp] theorem pdk_modRing (p k : Nat) (f : Ring → Ring) (p' : Nat) : (s.modRing p k f).pdk p' = s.pdk p' := rfl
@[simp] theorem bay_modRing (p k : Nat) (f : Ring → Ring) (b' : Nat) : (s.modRing p k f).bay b' = s.bay b' := rfl
@[simp] theorem core_modRing (p k : Nat) (f : Ring → Ring) (n' : Nat) : (s.modRing p k f).core n' = s.core n' := rfl
@[simp] theorem fnCfg_modRing (p k : Nat) (f : Ring → Ring) (fn' : Nat) : (s.modRing p k f).fnCfg fn' = s.fnCfg fn' := rfl
@[simp] theorem tdi_modRing (p k : Nat) (f : Ring → Ring) (p' : Nat) : (s.modRing p k f).tdi p' = s.tdi p' := rfl
@[simp] theorem load_modRing (p k : Nat) (f : Ring → Ring) (fn' : Nat) : (s.modRing p k f).load fn' = s.load fn' := rfl
@[simp] theorem graph_modRing (p k : Nat) (f : Ring → Ring) (p' g' : Nat) : (s.modRing p k f).graph p' g' = s.graph p' g' := rfl
@[simp] theorem fabJob_modRing (p k : Nat) (f : Ring → Ring) (p' j' : Nat) : (s.modRing p k f).fabJob p' j' = s.fabJob p' j' := rfl
@[simp] theorem eyelet_modRing (p k : Nat) (f : Ring → Ring) (p' e' : Nat) : (s.modRing p k f).eyelet p' e' = s.eyelet p' e' := rfl
@[simp] theorem port_modRing (p k : Nat) (f : Ring → Ring) (pt' : Nat) : (s.modRing p k f).port pt' = s.port pt' := rfl
@[simp] theorem mc_modRing (p k : Nat) (f : Ring → Ring) (st' : Nat) : (s.modRing p k f).mc st' = s.mc st' := rfl
@[simp] theorem pdk_modBay (b : Nat) (f : Bay → Bay) (p' : Nat) : (s.modBay b f).pdk p' = s.pdk p' := rfl
@[simp] theorem ring_modBay (b : Nat) (f : Bay → Bay) (p' k' : Nat) : (s.modBay b f).ring p' k' = s.ring p' k' := rfl
@[simp] theorem core_modBay (b : Nat) (f : Bay → Bay) (n' : Nat) : (s.modBay b f).core n' = s.core n' := rfl
@[simp] theorem fnCfg_modBay (b : Nat) (f : Bay → Bay) (fn' : Nat) : (s.modBay b f).fnCfg fn' = s.fnCfg fn' := rfl
@[simp] theorem tdi_modBay (b : Nat) (f : Bay → Bay) (p' : Nat) : (s.modBay b f).tdi p' = s.tdi p' := rfl
@[simp] theorem load_modBay (b : Nat) (f : Bay → Bay) (fn' : Nat) : (s.modBay b f).load fn' = s.load fn' := rfl
@[simp] theorem graph_modBay (b : Nat) (f : Bay → Bay) (p' g' : Nat) : (s.modBay b f).graph p' g' = s.graph p' g' := rfl
@[simp] theorem fabJob_modBay (b : Nat) (f : Bay → Bay) (p' j' : Nat) : (s.modBay b f).fabJob p' j' = s.fabJob p' j' := rfl
@[simp] theorem eyelet_modBay (b : Nat) (f : Bay → Bay) (p' e' : Nat) : (s.modBay b f).eyelet p' e' = s.eyelet p' e' := rfl
@[simp] theorem port_modBay (b : Nat) (f : Bay → Bay) (pt' : Nat) : (s.modBay b f).port pt' = s.port pt' := rfl
@[simp] theorem mc_modBay (b : Nat) (f : Bay → Bay) (st' : Nat) : (s.modBay b f).mc st' = s.mc st' := rfl
@[simp] theorem pdk_modCore (n : Nat) (f : Core → Core) (p' : Nat) : (s.modCore n f).pdk p' = s.pdk p' := rfl
@[simp] theorem ring_modCore (n : Nat) (f : Core → Core) (p' k' : Nat) : (s.modCore n f).ring p' k' = s.ring p' k' := rfl
@[simp] theorem bay_modCore (n : Nat) (f : Core → Core) (b' : Nat) : (s.modCore n f).bay b' = s.bay b' := rfl
@[simp] theorem fnCfg_modCore (n : Nat) (f : Core → Core) (fn' : Nat) : (s.modCore n f).fnCfg fn' = s.fnCfg fn' := rfl
@[simp] theorem tdi_modCore (n : Nat) (f : Core → Core) (p' : Nat) : (s.modCore n f).tdi p' = s.tdi p' := rfl
@[simp] theorem load_modCore (n : Nat) (f : Core → Core) (fn' : Nat) : (s.modCore n f).load fn' = s.load fn' := rfl
@[simp] theorem graph_modCore (n : Nat) (f : Core → Core) (p' g' : Nat) : (s.modCore n f).graph p' g' = s.graph p' g' := rfl
@[simp] theorem fabJob_modCore (n : Nat) (f : Core → Core) (p' j' : Nat) : (s.modCore n f).fabJob p' j' = s.fabJob p' j' := rfl
@[simp] theorem eyelet_modCore (n : Nat) (f : Core → Core) (p' e' : Nat) : (s.modCore n f).eyelet p' e' = s.eyelet p' e' := rfl
@[simp] theorem port_modCore (n : Nat) (f : Core → Core) (pt' : Nat) : (s.modCore n f).port pt' = s.port pt' := rfl
@[simp] theorem mc_modCore (n : Nat) (f : Core → Core) (st' : Nat) : (s.modCore n f).mc st' = s.mc st' := rfl
@[simp] theorem pdk_modFn (fn : Nat) (f : FnCfg → FnCfg) (p' : Nat) : (s.modFn fn f).pdk p' = s.pdk p' := rfl
@[simp] theorem ring_modFn (fn : Nat) (f : FnCfg → FnCfg) (p' k' : Nat) : (s.modFn fn f).ring p' k' = s.ring p' k' := rfl
@[simp] theorem bay_modFn (fn : Nat) (f : FnCfg → FnCfg) (b' : Nat) : (s.modFn fn f).bay b' = s.bay b' := rfl
@[simp] theorem core_modFn (fn : Nat) (f : FnCfg → FnCfg) (n' : Nat) : (s.modFn fn f).core n' = s.core n' := rfl
@[simp] theorem tdi_modFn (fn : Nat) (f : FnCfg → FnCfg) (p' : Nat) : (s.modFn fn f).tdi p' = s.tdi p' := rfl
@[simp] theorem load_modFn (fn : Nat) (f : FnCfg → FnCfg) (fn' : Nat) : (s.modFn fn f).load fn' = s.load fn' := rfl
@[simp] theorem graph_modFn (fn : Nat) (f : FnCfg → FnCfg) (p' g' : Nat) : (s.modFn fn f).graph p' g' = s.graph p' g' := rfl
@[simp] theorem fabJob_modFn (fn : Nat) (f : FnCfg → FnCfg) (p' j' : Nat) : (s.modFn fn f).fabJob p' j' = s.fabJob p' j' := rfl
@[simp] theorem eyelet_modFn (fn : Nat) (f : FnCfg → FnCfg) (p' e' : Nat) : (s.modFn fn f).eyelet p' e' = s.eyelet p' e' := rfl
@[simp] theorem port_modFn (fn : Nat) (f : FnCfg → FnCfg) (pt' : Nat) : (s.modFn fn f).port pt' = s.port pt' := rfl
@[simp] theorem mc_modFn (fn : Nat) (f : FnCfg → FnCfg) (st' : Nat) : (s.modFn fn f).mc st' = s.mc st' := rfl
@[simp] theorem pdk_modTdi (p : Nat) (f : Tdi → Tdi) (p' : Nat) : (s.modTdi p f).pdk p' = s.pdk p' := rfl
@[simp] theorem ring_modTdi (p : Nat) (f : Tdi → Tdi) (p' k' : Nat) : (s.modTdi p f).ring p' k' = s.ring p' k' := rfl
@[simp] theorem bay_modTdi (p : Nat) (f : Tdi → Tdi) (b' : Nat) : (s.modTdi p f).bay b' = s.bay b' := rfl
@[simp] theorem core_modTdi (p : Nat) (f : Tdi → Tdi) (n' : Nat) : (s.modTdi p f).core n' = s.core n' := rfl
@[simp] theorem fnCfg_modTdi (p : Nat) (f : Tdi → Tdi) (fn' : Nat) : (s.modTdi p f).fnCfg fn' = s.fnCfg fn' := rfl
@[simp] theorem load_modTdi (p : Nat) (f : Tdi → Tdi) (fn' : Nat) : (s.modTdi p f).load fn' = s.load fn' := rfl
@[simp] theorem graph_modTdi (p : Nat) (f : Tdi → Tdi) (p' g' : Nat) : (s.modTdi p f).graph p' g' = s.graph p' g' := rfl
@[simp] theorem fabJob_modTdi (p : Nat) (f : Tdi → Tdi) (p' j' : Nat) : (s.modTdi p f).fabJob p' j' = s.fabJob p' j' := rfl
@[simp] theorem eyelet_modTdi (p : Nat) (f : Tdi → Tdi) (p' e' : Nat) : (s.modTdi p f).eyelet p' e' = s.eyelet p' e' := rfl
@[simp] theorem port_modTdi (p : Nat) (f : Tdi → Tdi) (pt' : Nat) : (s.modTdi p f).port pt' = s.port pt' := rfl
@[simp] theorem mc_modTdi (p : Nat) (f : Tdi → Tdi) (st' : Nat) : (s.modTdi p f).mc st' = s.mc st' := rfl
@[simp] theorem pdk_modLoad (fn : Nat) (f : LoadRegs → LoadRegs) (p' : Nat) : (s.modLoad fn f).pdk p' = s.pdk p' := rfl
@[simp] theorem ring_modLoad (fn : Nat) (f : LoadRegs → LoadRegs) (p' k' : Nat) : (s.modLoad fn f).ring p' k' = s.ring p' k' := rfl
@[simp] theorem bay_modLoad (fn : Nat) (f : LoadRegs → LoadRegs) (b' : Nat) : (s.modLoad fn f).bay b' = s.bay b' := rfl
@[simp] theorem core_modLoad (fn : Nat) (f : LoadRegs → LoadRegs) (n' : Nat) : (s.modLoad fn f).core n' = s.core n' := rfl
@[simp] theorem fnCfg_modLoad (fn : Nat) (f : LoadRegs → LoadRegs) (fn' : Nat) : (s.modLoad fn f).fnCfg fn' = s.fnCfg fn' := rfl
@[simp] theorem tdi_modLoad (fn : Nat) (f : LoadRegs → LoadRegs) (p' : Nat) : (s.modLoad fn f).tdi p' = s.tdi p' := rfl
@[simp] theorem graph_modLoad (fn : Nat) (f : LoadRegs → LoadRegs) (p' g' : Nat) : (s.modLoad fn f).graph p' g' = s.graph p' g' := rfl
@[simp] theorem fabJob_modLoad (fn : Nat) (f : LoadRegs → LoadRegs) (p' j' : Nat) : (s.modLoad fn f).fabJob p' j' = s.fabJob p' j' := rfl
@[simp] theorem eyelet_modLoad (fn : Nat) (f : LoadRegs → LoadRegs) (p' e' : Nat) : (s.modLoad fn f).eyelet p' e' = s.eyelet p' e' := rfl
@[simp] theorem port_modLoad (fn : Nat) (f : LoadRegs → LoadRegs) (pt' : Nat) : (s.modLoad fn f).port pt' = s.port pt' := rfl
@[simp] theorem mc_modLoad (fn : Nat) (f : LoadRegs → LoadRegs) (st' : Nat) : (s.modLoad fn f).mc st' = s.mc st' := rfl
@[simp] theorem pdk_modGraph (p g : Nat) (f : GraphSt → GraphSt) (p' : Nat) : (s.modGraph p g f).pdk p' = s.pdk p' := rfl
@[simp] theorem ring_modGraph (p g : Nat) (f : GraphSt → GraphSt) (p' k' : Nat) : (s.modGraph p g f).ring p' k' = s.ring p' k' := rfl
@[simp] theorem bay_modGraph (p g : Nat) (f : GraphSt → GraphSt) (b' : Nat) : (s.modGraph p g f).bay b' = s.bay b' := rfl
@[simp] theorem core_modGraph (p g : Nat) (f : GraphSt → GraphSt) (n' : Nat) : (s.modGraph p g f).core n' = s.core n' := rfl
@[simp] theorem fnCfg_modGraph (p g : Nat) (f : GraphSt → GraphSt) (fn' : Nat) : (s.modGraph p g f).fnCfg fn' = s.fnCfg fn' := rfl
@[simp] theorem tdi_modGraph (p g : Nat) (f : GraphSt → GraphSt) (p' : Nat) : (s.modGraph p g f).tdi p' = s.tdi p' := rfl
@[simp] theorem load_modGraph (p g : Nat) (f : GraphSt → GraphSt) (fn' : Nat) : (s.modGraph p g f).load fn' = s.load fn' := rfl
@[simp] theorem fabJob_modGraph (p g : Nat) (f : GraphSt → GraphSt) (p' j' : Nat) : (s.modGraph p g f).fabJob p' j' = s.fabJob p' j' := rfl
@[simp] theorem eyelet_modGraph (p g : Nat) (f : GraphSt → GraphSt) (p' e' : Nat) : (s.modGraph p g f).eyelet p' e' = s.eyelet p' e' := rfl
@[simp] theorem port_modGraph (p g : Nat) (f : GraphSt → GraphSt) (pt' : Nat) : (s.modGraph p g f).port pt' = s.port pt' := rfl
@[simp] theorem mc_modGraph (p g : Nat) (f : GraphSt → GraphSt) (st' : Nat) : (s.modGraph p g f).mc st' = s.mc st' := rfl
@[simp] theorem pdk_modFabJob (p j : Nat) (f : FabJob → FabJob) (p' : Nat) : (s.modFabJob p j f).pdk p' = s.pdk p' := rfl
@[simp] theorem ring_modFabJob (p j : Nat) (f : FabJob → FabJob) (p' k' : Nat) : (s.modFabJob p j f).ring p' k' = s.ring p' k' := rfl
@[simp] theorem bay_modFabJob (p j : Nat) (f : FabJob → FabJob) (b' : Nat) : (s.modFabJob p j f).bay b' = s.bay b' := rfl
@[simp] theorem core_modFabJob (p j : Nat) (f : FabJob → FabJob) (n' : Nat) : (s.modFabJob p j f).core n' = s.core n' := rfl
@[simp] theorem fnCfg_modFabJob (p j : Nat) (f : FabJob → FabJob) (fn' : Nat) : (s.modFabJob p j f).fnCfg fn' = s.fnCfg fn' := rfl
@[simp] theorem tdi_modFabJob (p j : Nat) (f : FabJob → FabJob) (p' : Nat) : (s.modFabJob p j f).tdi p' = s.tdi p' := rfl
@[simp] theorem load_modFabJob (p j : Nat) (f : FabJob → FabJob) (fn' : Nat) : (s.modFabJob p j f).load fn' = s.load fn' := rfl
@[simp] theorem graph_modFabJob (p j : Nat) (f : FabJob → FabJob) (p' g' : Nat) : (s.modFabJob p j f).graph p' g' = s.graph p' g' := rfl
@[simp] theorem mc_modFabJob (p j : Nat) (f : FabJob → FabJob) (st' : Nat) : (s.modFabJob p j f).mc st' = s.mc st' := rfl
@[simp] theorem pdk_modEyelet (p e : Nat) (f : Eyelet → Eyelet) (p' : Nat) : (s.modEyelet p e f).pdk p' = s.pdk p' := rfl
@[simp] theorem ring_modEyelet (p e : Nat) (f : Eyelet → Eyelet) (p' k' : Nat) : (s.modEyelet p e f).ring p' k' = s.ring p' k' := rfl
@[simp] theorem bay_modEyelet (p e : Nat) (f : Eyelet → Eyelet) (b' : Nat) : (s.modEyelet p e f).bay b' = s.bay b' := rfl
@[simp] theorem core_modEyelet (p e : Nat) (f : Eyelet → Eyelet) (n' : Nat) : (s.modEyelet p e f).core n' = s.core n' := rfl
@[simp] theorem fnCfg_modEyelet (p e : Nat) (f : Eyelet → Eyelet) (fn' : Nat) : (s.modEyelet p e f).fnCfg fn' = s.fnCfg fn' := rfl
@[simp] theorem tdi_modEyelet (p e : Nat) (f : Eyelet → Eyelet) (p' : Nat) : (s.modEyelet p e f).tdi p' = s.tdi p' := rfl
@[simp] theorem load_modEyelet (p e : Nat) (f : Eyelet → Eyelet) (fn' : Nat) : (s.modEyelet p e f).load fn' = s.load fn' := rfl
@[simp] theorem graph_modEyelet (p e : Nat) (f : Eyelet → Eyelet) (p' g' : Nat) : (s.modEyelet p e f).graph p' g' = s.graph p' g' := rfl
@[simp] theorem mc_modEyelet (p e : Nat) (f : Eyelet → Eyelet) (st' : Nat) : (s.modEyelet p e f).mc st' = s.mc st' := rfl
@[simp] theorem pdk_modPort (pt : Nat) (f : Port → Port) (p' : Nat) : (s.modPort pt f).pdk p' = s.pdk p' := rfl
@[simp] theorem ring_modPort (pt : Nat) (f : Port → Port) (p' k' : Nat) : (s.modPort pt f).ring p' k' = s.ring p' k' := rfl
@[simp] theorem bay_modPort (pt : Nat) (f : Port → Port) (b' : Nat) : (s.modPort pt f).bay b' = s.bay b' := rfl
@[simp] theorem core_modPort (pt : Nat) (f : Port → Port) (n' : Nat) : (s.modPort pt f).core n' = s.core n' := rfl
@[simp] theorem fnCfg_modPort (pt : Nat) (f : Port → Port) (fn' : Nat) : (s.modPort pt f).fnCfg fn' = s.fnCfg fn' := rfl
@[simp] theorem tdi_modPort (pt : Nat) (f : Port → Port) (p' : Nat) : (s.modPort pt f).tdi p' = s.tdi p' := rfl
@[simp] theorem load_modPort (pt : Nat) (f : Port → Port) (fn' : Nat) : (s.modPort pt f).load fn' = s.load fn' := rfl
@[simp] theorem graph_modPort (pt : Nat) (f : Port → Port) (p' g' : Nat) : (s.modPort pt f).graph p' g' = s.graph p' g' := rfl
@[simp] theorem mc_modPort (pt : Nat) (f : Port → Port) (st' : Nat) : (s.modPort pt f).mc st' = s.mc st' := rfl
@[simp] theorem pdk_modMc (st : Nat) (f : MemCtl → MemCtl) (p' : Nat) : (s.modMc st f).pdk p' = s.pdk p' := rfl
@[simp] theorem ring_modMc (st : Nat) (f : MemCtl → MemCtl) (p' k' : Nat) : (s.modMc st f).ring p' k' = s.ring p' k' := rfl
@[simp] theorem bay_modMc (st : Nat) (f : MemCtl → MemCtl) (b' : Nat) : (s.modMc st f).bay b' = s.bay b' := rfl
@[simp] theorem core_modMc (st : Nat) (f : MemCtl → MemCtl) (n' : Nat) : (s.modMc st f).core n' = s.core n' := rfl
@[simp] theorem fnCfg_modMc (st : Nat) (f : MemCtl → MemCtl) (fn' : Nat) : (s.modMc st f).fnCfg fn' = s.fnCfg fn' := rfl
@[simp] theorem tdi_modMc (st : Nat) (f : MemCtl → MemCtl) (p' : Nat) : (s.modMc st f).tdi p' = s.tdi p' := rfl
@[simp] theorem load_modMc (st : Nat) (f : MemCtl → MemCtl) (fn' : Nat) : (s.modMc st f).load fn' = s.load fn' := rfl
@[simp] theorem graph_modMc (st : Nat) (f : MemCtl → MemCtl) (p' g' : Nat) : (s.modMc st f).graph p' g' = s.graph p' g' := rfl
@[simp] theorem fabJob_modMc (st : Nat) (f : MemCtl → MemCtl) (p' j' : Nat) : (s.modMc st f).fabJob p' j' = s.fabJob p' j' := rfl
@[simp] theorem eyelet_modMc (st : Nat) (f : MemCtl → MemCtl) (p' e' : Nat) : (s.modMc st f).eyelet p' e' = s.eyelet p' e' := rfl
@[simp] theorem port_modMc (st : Nat) (f : MemCtl → MemCtl) (pt' : Nat) : (s.modMc st f).port pt' = s.port pt' := rfl
@[simp] theorem pdk_send (o : Out) (p' : Nat) : (s.send o).pdk p' = s.pdk p' := rfl
@[simp] theorem ring_send (o : Out) (p' k' : Nat) : (s.send o).ring p' k' = s.ring p' k' := rfl
@[simp] theorem bay_send (o : Out) (b' : Nat) : (s.send o).bay b' = s.bay b' := rfl
@[simp] theorem core_send (o : Out) (n' : Nat) : (s.send o).core n' = s.core n' := rfl
@[simp] theorem fnCfg_send (o : Out) (fn' : Nat) : (s.send o).fnCfg fn' = s.fnCfg fn' := rfl
@[simp] theorem tdi_send (o : Out) (p' : Nat) : (s.send o).tdi p' = s.tdi p' := rfl
@[simp] theorem load_send (o : Out) (fn' : Nat) : (s.send o).load fn' = s.load fn' := rfl
@[simp] theorem graph_send (o : Out) (p' g' : Nat) : (s.send o).graph p' g' = s.graph p' g' := rfl
@[simp] theorem fabJob_send (o : Out) (p' j' : Nat) : (s.send o).fabJob p' j' = s.fabJob p' j' := rfl
@[simp] theorem eyelet_send (o : Out) (p' e' : Nat) : (s.send o).eyelet p' e' = s.eyelet p' e' := rfl
@[simp] theorem port_send (o : Out) (pt' : Nat) : (s.send o).port pt' = s.port pt' := rfl
@[simp] theorem mc_send (o : Out) (st' : Nat) : (s.send o).mc st' = s.mc st' := rfl
@[simp] theorem pdk_modYard (f : Yard → Yard) (p' : Nat) : (s.modYard f).pdk p' = s.pdk p' := rfl
@[simp] theorem ring_modYard (f : Yard → Yard) (p' k' : Nat) : (s.modYard f).ring p' k' = s.ring p' k' := rfl
@[simp] theorem bay_modYard (f : Yard → Yard) (b' : Nat) : (s.modYard f).bay b' = s.bay b' := rfl
@[simp] theorem core_modYard (f : Yard → Yard) (n' : Nat) : (s.modYard f).core n' = s.core n' := rfl
@[simp] theorem fnCfg_modYard (f : Yard → Yard) (fn' : Nat) : (s.modYard f).fnCfg fn' = s.fnCfg fn' := rfl
@[simp] theorem tdi_modYard (f : Yard → Yard) (p' : Nat) : (s.modYard f).tdi p' = s.tdi p' := rfl
@[simp] theorem load_modYard (f : Yard → Yard) (fn' : Nat) : (s.modYard f).load fn' = s.load fn' := rfl
@[simp] theorem graph_modYard (f : Yard → Yard) (p' g' : Nat) : (s.modYard f).graph p' g' = s.graph p' g' := rfl
@[simp] theorem fabJob_modYard (f : Yard → Yard) (p' j' : Nat) : (s.modYard f).fabJob p' j' = s.fabJob p' j' := rfl
@[simp] theorem eyelet_modYard (f : Yard → Yard) (p' e' : Nat) : (s.modYard f).eyelet p' e' = s.eyelet p' e' := rfl
@[simp] theorem port_modYard (f : Yard → Yard) (pt' : Nat) : (s.modYard f).port pt' = s.port pt' := rfl
@[simp] theorem mc_modYard (f : Yard → Yard) (st' : Nat) : (s.modYard f).mc st' = s.mc st' := rfl
@[simp] theorem pdk_newEpoch (fn : Option Nat) (p' : Nat) : (s.newEpoch fn).pdk p' = s.pdk p' := rfl
@[simp] theorem ring_newEpoch (fn : Option Nat) (p' k' : Nat) : (s.newEpoch fn).ring p' k' = s.ring p' k' := rfl
@[simp] theorem bay_newEpoch (fn : Option Nat) (b' : Nat) : (s.newEpoch fn).bay b' = s.bay b' := rfl
@[simp] theorem core_newEpoch (fn : Option Nat) (n' : Nat) : (s.newEpoch fn).core n' = s.core n' := rfl
@[simp] theorem fnCfg_newEpoch (fn : Option Nat) (fn' : Nat) : (s.newEpoch fn).fnCfg fn' = s.fnCfg fn' := rfl
@[simp] theorem load_newEpoch (fn : Option Nat) (fn' : Nat) : (s.newEpoch fn).load fn' = s.load fn' := rfl
@[simp] theorem graph_newEpoch (fn : Option Nat) (p' g' : Nat) : (s.newEpoch fn).graph p' g' = s.graph p' g' := rfl
@[simp] theorem fabJob_newEpoch (fn : Option Nat) (p' j' : Nat) : (s.newEpoch fn).fabJob p' j' = s.fabJob p' j' := rfl
@[simp] theorem eyelet_newEpoch (fn : Option Nat) (p' e' : Nat) : (s.newEpoch fn).eyelet p' e' = s.eyelet p' e' := rfl
@[simp] theorem port_newEpoch (fn : Option Nat) (pt' : Nat) : (s.newEpoch fn).port pt' = s.port pt' := rfl
@[simp] theorem mc_newEpoch (fn : Option Nat) (st' : Nat) : (s.newEpoch fn).mc st' = s.mc st' := rfl

end Sys2Proof.Machine.State
end

