-- ==== Sys2Proof/Laws/Cores.lean ====
section
/-! SUPPORT. What a core's beat does, said once: what a tick leaves alone, and what a bundle of one slot does: it issues, is held, or faults. -/

namespace Sys2Proof.Machine

/-! ### A tick -/

/-- The fields of a core that no act in flight writes. -/
def Core.still (c : Core) : Core :=
  { c with x := [], a := [], w := [], acc := [], spad := [], sem := [], hoops := [], arr := [], semSat := false, intSat := false,
           dirty := [], flight := [], banks := [] }

theorem Core.apply_still (c : Core) (a : Act) : (c.apply a).still = c.still := by
  cases a <;> simp only [Core.apply, Core.wrX, Core.setAccRow, Core.setRow, Core.modHoop, Core.semLand, Core.still] <;>
    first | rfl | (split <;> rfl)

theorem Core.foldl_apply_still (fl : List Flight) (c : Core) : (fl.foldl (fun c f => c.apply f.act) c).still = c.still := by
  induction fl generalizing c with
  | nil => rfl
  | cons f t ih => simp only [List.foldl_cons, ih, Core.apply_still]

/-- A tick leaves every field alone that no act in flight writes. -/
theorem Core.tick_still (c : Core) : c.tick.still = c.still := by
  simp only [Core.tick, Core.foldl_apply_still]
  rfl

@[simp] theorem Core.tick_pc (c : Core) : c.tick.pc = c.pc := by
  have h := congrArg Core.pc c.tick_still; exact h
@[simp] theorem Core.tick_program (c : Core) : c.tick.program = c.program := by
  have h := congrArg Core.program c.tick_still; exact h
@[simp] theorem Core.tick_running (c : Core) : c.tick.running = c.running := by
  have h := congrArg Core.running c.tick_still; exact h
@[simp] theorem Core.tick_ended (c : Core) : c.tick.ended = c.ended := by
  have h := congrArg Core.ended c.tick_still; exact h
@[simp] theorem Core.tick_ending (c : Core) : c.tick.ending = c.ending := by
  have h := congrArg Core.ending c.tick_still; exact h
@[simp] theorem Core.tick_fault (c : Core) : c.tick.fault = c.fault := by
  have h := congrArg Core.fault c.tick_still; exact h
@[simp] theorem Core.tick_xfer (c : Core) : c.tick.xfer = c.xfer := by
  have h := congrArg Core.xfer c.tick_still; exact h
@[simp] theorem Core.tick_gather (c : Core) : c.tick.gather = c.gather := by
  have h := congrArg Core.gather c.tick_still; exact h
@[simp] theorem Core.tick_queue (c : Core) : c.tick.queue = c.queue := by
  have h := congrArg Core.queue c.tick_still; exact h
@[simp] theorem Core.tick_cause (c : Core) : c.tick.cause = c.cause := by
  have h := congrArg Core.cause c.tick_still; exact h
@[simp] theorem Core.tick_beats (c : Core) : c.tick.beats = c.beats := by
  have h := congrArg Core.beats c.tick_still; exact h
@[simp] theorem Core.tick_issued (c : Core) : c.tick.issued = c.issued := by
  have h := congrArg Core.issued c.tick_still; exact h
@[simp] theorem Core.tick_claimWait (c : Core) : c.tick.claimWait = c.claimWait := by
  have h := congrArg Core.claimWait c.tick_still; exact h
@[simp] theorem Core.tick_claimVal (c : Core) : c.tick.claimVal = c.claimVal := by
  have h := congrArg Core.claimVal c.tick_still; exact h
@[simp] theorem Core.tick_mac (c : Core) : c.tick.mac = c.mac := by
  have h := congrArg Core.mac c.tick_still; exact h
@[simp] theorem Core.tick_macRes (c : Core) : c.tick.macRes = c.macRes := by
  have h := congrArg Core.macRes c.tick_still; exact h
@[simp] theorem Core.tick_strms (c : Core) : c.tick.strms = c.strms := by
  have h := congrArg Core.strms c.tick_still; exact h

/-- The core with another bundle put together and other bundles waiting. -/
def Core.queued (c : Core) (g : List SlotOp) (q : List (List SlotOp)) : Core := { c with gather := g, queue := q }

theorem Core.apply_queued (c : Core) (g : List SlotOp) (q : List (List SlotOp)) (a : Act) :
    (c.queued g q).apply a = (c.apply a).queued g q := by
  cases a <;> simp only [Core.apply, Core.wrX, Core.setAccRow, Core.setRow, Core.modHoop, Core.semLand, Core.queued] <;>
    first | rfl | (split <;> rfl)

theorem Core.foldl_apply_queued (fl : List Flight) (c : Core) (g : List SlotOp) (q : List (List SlotOp)) :
    fl.foldl (fun c f => c.apply f.act) (c.queued g q) = (fl.foldl (fun c f => c.apply f.act) c).queued g q := by
  induction fl generalizing c with
  | nil => rfl
  | cons f t ih => simp only [List.foldl_cons, Core.apply_queued, ih]

/-- A tick does not look at the bundles that wait. -/
theorem Core.tick_queued (c : Core) (g : List SlotOp) (q : List (List SlotOp)) : (c.queued g q).tick = c.tick.queued g q := by
  have h : (c.queued g q).advance = c.advance := by
    funext f
    rfl
  have hf : (c.queued g q).flight = c.flight := rfl
  simp only [Core.tick, h, hf]
  rw [← Core.foldl_apply_queued]
  rfl

namespace State

variable (s : State) (n : Nat)

/-- A bay with other handles in its queues. -/
def withHandles (b : Bay) (q : Tab (List (BitVec 16))) : Bay := { b with hq := q }

theorem foldl_hqEnter (hs : List (Nat × BitVec 16)) (b : Nat) (s : State) :
    hs.foldl (fun s e => s.hqEnter b e.1 e.2) s = { s with bays := (hs.foldl (fun s e => s.hqEnter b e.1 e.2) s).bays } := by
  induction hs generalizing s with
  | nil => rfl
  | cons h t ih => simp only [List.foldl_cons]; rw [ih]; rfl

/-- A tick of a core changes that core, and the handle queues of its bay. -/
theorem tickCore_eq : s.tickCore n = { s.modCore n Core.tick with bays := (s.tickCore n).bays } := by
  conv => lhs; unfold tickCore
  rw [foldl_hqEnter]
  rfl

@[simp] theorem tickCore_pending : (s.tickCore n).pending = s.pending := by rw [tickCore_eq]; rfl
@[simp] theorem tickCore_out : (s.tickCore n).out = s.out := by rw [tickCore_eq]; rfl
@[simp] theorem tickCore_dev : (s.tickCore n).dev = s.dev := by rw [tickCore_eq]; rfl
@[simp] theorem tickCore_hif : (s.tickCore n).hif = s.hif := by rw [tickCore_eq]; rfl
@[simp] theorem tickCore_sec : (s.tickCore n).sec = s.sec := by rw [tickCore_eq]; rfl
@[simp] theorem tickCore_ldr : (s.tickCore n).ldr = s.ldr := by rw [tickCore_eq]; rfl
@[simp] theorem tickCore_plat : (s.tickCore n).plat = s.plat := by rw [tickCore_eq]; rfl
@[simp] theorem tickCore_own : (s.tickCore n).own = s.own := by rw [tickCore_eq]; rfl
@[simp] theorem tickCore_pdks : (s.tickCore n).pdks = s.pdks := by rw [tickCore_eq]; rfl
@[simp] theorem tickCore_rings : (s.tickCore n).rings = s.rings := by rw [tickCore_eq]; rfl
@[simp] theorem tickCore_sch : (s.tickCore n).sch = s.sch := by rw [tickCore_eq]; rfl
@[simp] theorem tickCore_saves : (s.tickCore n).saves = s.saves := by rw [tickCore_eq]; rfl
@[simp] theorem tickCore_semFly : (s.tickCore n).semFly = s.semFly := by rw [tickCore_eq]; rfl
@[simp] theorem tickCore_hqFly : (s.tickCore n).hqFly = s.hqFly := by rw [tickCore_eq]; rfl
@[simp] theorem tickCore_mem : (s.tickCore n).mem = s.mem := by rw [tickCore_eq]; rfl
@[simp] theorem tickCore_memTag : (s.tickCore n).memTag = s.memTag := by rw [tickCore_eq]; rfl
@[simp] theorem tickCore_mcs : (s.tickCore n).mcs = s.mcs := by rw [tickCore_eq]; rfl
@[simp] theorem tickCore_yard : (s.tickCore n).yard = s.yard := by rw [tickCore_eq]; rfl
@[simp] theorem tickCore_tmb : (s.tickCore n).tmb = s.tmb := by rw [tickCore_eq]; rfl
@[simp] theorem tickCore_fab : (s.tickCore n).fab = s.fab := by rw [tickCore_eq]; rfl
@[simp] theorem tickCore_mgt : (s.tickCore n).mgt = s.mgt := by rw [tickCore_eq]; rfl
@[simp] theorem tickCore_ras : (s.tickCore n).ras = s.ras := by rw [tickCore_eq]; rfl
@[simp] theorem tickCore_free : (s.tickCore n).free = s.free := by rw [tickCore_eq]; rfl
@[simp] theorem tickCore_cores : (s.tickCore n).cores = tmod {} s.cores n Core.tick := by rw [tickCore_eq]; rfl
@[simp] theorem tickCore_core : (s.tickCore n).core n = (s.core n).tick := by simp [core]
theorem tickCore_core_ne (m : Nat) (h : m ≠ n) : (s.tickCore n).core m = s.core m := by simp [core, tget_tmod_ne _ _ _ _ _ h]

@[simp] theorem pdk_tickCore (p : Nat) : (s.tickCore n).pdk p = s.pdk p := by simp [pdk]
@[simp] theorem ring_tickCore (p k : Nat) : (s.tickCore n).ring p k = s.ring p k := by simp [ring]
@[simp] theorem fnCfg_tickCore (fn : Nat) : (s.tickCore n).fnCfg fn = s.fnCfg fn := by simp [fnCfg]
@[simp] theorem tdi_tickCore (p : Nat) : (s.tickCore n).tdi p = s.tdi p := by simp [tdi]

theorem foldl_hqEnter_bay (hs : List (Nat × BitVec 16)) (b m : Nat) (s : State) :
    ∃ q, (hs.foldl (fun s e => s.hqEnter b e.1 e.2) s).bay m = withHandles (s.bay m) q := by
  induction hs generalizing s with
  | nil => exact ⟨(s.bay m).hq, rfl⟩
  | cons h t ih =>
    obtain ⟨q, hq⟩ := ih (s.hqEnter b h.1 h.2)
    refine ⟨q, ?_⟩
    simp only [List.foldl_cons, hq]
    by_cases e : m = b
    · subst e; simp [hqEnter, withHandles]
    · simp [hqEnter, bay_modBay_ne _ _ _ _ e]

/-- Of a bay, a tick changes the handle queues alone. -/
theorem tickCore_bay (m : Nat) : ∃ q, (s.tickCore n).bay m = withHandles (s.bay m) q := by
  obtain ⟨q, hq⟩ := foldl_hqEnter_bay (s.core n).landing (n / 16) m (s.modCore n Core.tick)
  exact ⟨q, hq⟩

@[simp] theorem tickCore_bay_powered (m : Nat) : ((s.tickCore n).bay m).powered = (s.bay m).powered := by
  obtain ⟨q, hq⟩ := s.tickCore_bay n m; rw [hq]; rfl
@[simp] theorem tickCore_bay_pendOff (m : Nat) : ((s.tickCore n).bay m).pendOff = (s.bay m).pendOff := by
  obtain ⟨q, hq⟩ := s.tickCore_bay n m; rw [hq]; rfl
@[simp] theorem tickCore_bay_pendOn (m : Nat) : ((s.tickCore n).bay m).pendOn = (s.bay m).pendOn := by
  obtain ⟨q, hq⟩ := s.tickCore_bay n m; rw [hq]; rfl
@[simp] theorem tickCore_bay_unit_ (m : Nat) : ((s.tickCore n).bay m).unit_ = (s.bay m).unit_ := by
  obtain ⟨q, hq⟩ := s.tickCore_bay n m; rw [hq]; rfl
@[simp] theorem tickCore_bay_holder (m : Nat) : ((s.tickCore n).bay m).holder = (s.bay m).holder := by
  obtain ⟨q, hq⟩ := s.tickCore_bay n m; rw [hq]; rfl
@[simp] theorem tickCore_bay_job (m : Nat) : ((s.tickCore n).bay m).job = (s.bay m).job := by
  obtain ⟨q, hq⟩ := s.tickCore_bay n m; rw [hq]; rfl
@[simp] theorem tickCore_bay_lbay (m : Nat) : ((s.tickCore n).bay m).lbay = (s.bay m).lbay := by
  obtain ⟨q, hq⟩ := s.tickCore_bay n m; rw [hq]; rfl
@[simp] theorem tickCore_bay_sliceDone (m : Nat) : ((s.tickCore n).bay m).sliceDone = (s.bay m).sliceDone := by
  obtain ⟨q, hq⟩ := s.tickCore_bay n m; rw [hq]; rfl
@[simp] theorem tickCore_bay_stopping (m : Nat) : ((s.tickCore n).bay m).stopping = (s.bay m).stopping := by
  obtain ⟨q, hq⟩ := s.tickCore_bay n m; rw [hq]; rfl
@[simp] theorem tickCore_bay_stopped (m : Nat) : ((s.tickCore n).bay m).stopped = (s.bay m).stopped := by
  obtain ⟨q, hq⟩ := s.tickCore_bay n m; rw [hq]; rfl
@[simp] theorem tickCore_bay_scrubbed (m : Nat) : ((s.tickCore n).bay m).scrubbed = (s.bay m).scrubbed := by
  obtain ⟨q, hq⟩ := s.tickCore_bay n m; rw [hq]; rfl
@[simp] theorem tickCore_bay_next (m : Nat) : ((s.tickCore n).bay m).next = (s.bay m).next := by
  obtain ⟨q, hq⟩ := s.tickCore_bay n m; rw [hq]; rfl
@[simp] theorem tickCore_bay_prepared (m : Nat) : ((s.tickCore n).bay m).prepared = (s.bay m).prepared := by
  obtain ⟨q, hq⟩ := s.tickCore_bay n m; rw [hq]; rfl
@[simp] theorem tickCore_bay_resident (m : Nat) : ((s.tickCore n).bay m).resident = (s.bay m).resident := by
  obtain ⟨q, hq⟩ := s.tickCore_bay n m; rw [hq]; rfl
@[simp] theorem tickCore_bay_claims (m : Nat) : ((s.tickCore n).bay m).claims = (s.bay m).claims := by
  obtain ⟨q, hq⟩ := s.tickCore_bay n m; rw [hq]; rfl
@[simp] theorem tickCore_bay_tags (m : Nat) : ((s.tickCore n).bay m).tags = (s.bay m).tags := by
  obtain ⟨q, hq⟩ := s.tickCore_bay n m; rw [hq]; rfl
@[simp] theorem tickCore_bay_rr (m : Nat) : ((s.tickCore n).bay m).rr = (s.bay m).rr := by
  obtain ⟨q, hq⟩ := s.tickCore_bay n m; rw [hq]; rfl
@[simp] theorem tickCore_bay_folds (m : Nat) : ((s.tickCore n).bay m).folds = (s.bay m).folds := by
  obtain ⟨q, hq⟩ := s.tickCore_bay n m; rw [hq]; rfl
@[simp] theorem tickCore_bay_test (m : Nat) : ((s.tickCore n).bay m).test = (s.bay m).test := by
  obtain ⟨q, hq⟩ := s.tickCore_bay n m; rw [hq]; rfl
@[simp] theorem tickCore_bay_lossMark (m : Nat) : ((s.tickCore n).bay m).lossMark = (s.bay m).lossMark := by
  obtain ⟨q, hq⟩ := s.tickCore_bay n m; rw [hq]; rfl

@[simp] theorem tickCore_bay_margin (m : Nat) : ((s.tickCore n).bay m).margin = (s.bay m).margin := by
  obtain ⟨q, hq⟩ := s.tickCore_bay n m; rw [hq]; rfl

theorem hqEnter_modCore (b q : Nat) (h : BitVec 16) (f : Core → Core) : (s.hqEnter b q h).modCore n f = (s.modCore n f).hqEnter b q h := rfl

theorem foldl_hqEnter_modCore (hs : List (Nat × BitVec 16)) (b : Nat) (s : State) (n : Nat) (f : Core → Core) :
    (hs.foldl (fun s e => s.hqEnter b e.1 e.2) s).modCore n f = hs.foldl (fun s e => s.hqEnter b e.1 e.2) (s.modCore n f) := by
  induction hs generalizing s with
  | nil => rfl
  | cons h t ih => simp only [List.foldl_cons, ih, hqEnter_modCore]

/-- The bundles that wait are nothing to a tick. -/
theorem tickCore_queued (g : List SlotOp) (q : List (List SlotOp)) :
    (s.modCore n (·.queued g q)).tickCore n = (s.tickCore n).modCore n (·.queued g q) := by
  unfold tickCore
  rw [foldl_hqEnter_modCore]
  simp only [core_modCore_same, modCore_modCore, Core.tick_queued]
  rfl

/-! ### A bundle of one slot -/

theorem heldFor_nil (j : Job) : s.heldFor n j [] = none := by simp [heldFor, drawsOf]

/-- One operation that draws no random bits is held for its own cause alone. -/
theorem heldFor_one (j : Job) (op : SlotOp) (h : drawsOf [op] = 0) : s.heldFor n j [op] = s.slotHold n j op := by
  unfold heldFor
  cases h' : s.slotHold n j op <;> simp [h, h']

theorem beatJob_live {x : Nat × Nat × Job} (h : s.liveJob n = some x) : s.beatJob n = some x := by simp [beatJob, h]

theorem liveJob_endWith {p k : Nat} {j : Job} (h : s.liveJob n = some (p, k, j)) : j.endWith = none := by
  unfold liveJob at h
  repeat' split at h
  all_goals simp_all

theorem lastBeat_going {p k : Nat} {j : Job} (t : State) (h : s.liveJob n = some (p, k, j)) : t.lastBeat n j = t := by
  simp [lastBeat, s.liveJob_endWith n h]

/-- A slot that is a bundle of its own, on a core that may issue: it is tested, and is held, faults, or issues (07 R209). -/
theorem slotCmd_alone {s : State} {n p k : Nat} {j : Job} (h : Claims.CanIssue s n p k j) (op : SlotOp) (hw : slotWf op = true)
    (hok : bundleOk ((s.pdk p).img.getD {}) [op] = true) (hx : (s.core n).xfer = none ∨ isTransfer op = false) :
    s.slotCmd n false op =
      (let u := (s.tickCore n).modCore n (·.queued [] [[op]])
       match u.heldFor n j ([op].filter (fun o => !selfHeld o)) with
       | some cause => .next (u.bubble n p cause)
       | none =>
         match u.slotFault n p j op with
         | some e => .next (u.coreFault n e (s.core n).pc)
         | none =>
           match (u.firstTest n op).heldFor n j [op] with
           | some cause => .next ((u.firstTest n op).bubble n p cause)
           | none => .next ((u.firstTest n op).issueBundle n p k j [op])) := by
  obtain ⟨hl, ⟨hg, hq⟩, ⟨he, hs⟩, hp, hi⟩ := h
  have hbw : bundleWf [op] = true := by
    simp only [bundleOk, Bool.and_eq_true] at hok; exact hok.1
  have hf : (fun c : Core => { c with gather := [], queue := c.queue ++ [[op]] }) (s.core n) = (s.core n).queued [] [[op]] := by
    simp [Core.queued, hq]
  have hm : s.modCore n (fun c => { c with gather := [], queue := c.queue ++ [[op]] }) = s.modCore n (·.queued [] [[op]]) := by
    simp only [modCore, tmod]; exact congrArg (fun c => { s with cores := tset s.cores n c }) hf
  have hp' : (s.modCore n (·.queued [] [[op]])).paced n p = true := by
    rw [← hp]; unfold paced; simp only [core_modCore_same, pdk_modCore, modCore_dev]; rfl
  have hi' : (s.modCore n (·.queued [] [[op]])).progLen n = s.progLen n := by
    simp [progLen, coreImg, Core.queued]
  have hx' : (((s.core n).queued [] [[op]]).xfer.isSome && [op].any isTransfer) = false := by
    rcases hx with hx | hx <;> simp [Core.queued, hx]
  unfold slotCmd
  simp only [hw, hg, s.beatJob_live n hl, s.lastBeat_going n _ hl, he, hbw, hok, hm, List.isEmpty_nil, Bool.not_true, Bool.and_false, Bool.or_false, Bool.false_eq_true, if_false,
    List.nil_append]
  unfold coreBeat
  have hpc : ((s.core n).queued [] [[op]]).pc = (s.core n).pc := rfl
  have hlt : ¬ (s.core n).pc ≥ ((s.tickCore n).modCore n (·.queued [] [[op]])).progLen n := by
    have : ((s.tickCore n).modCore n (·.queued [] [[op]])).progLen n = s.progLen n := by
      simp [progLen, coreImg, Core.queued]
    rw [this]; omega
  have hqq : ((s.core n).queued [] [[op]]).queue = [[op]] := rfl
  simp only [core_modCore_same, hqq, hp', hx', hpc, bay_modCore, hs, Option.isSome_none, Bool.not_true, Bool.false_eq_true, if_false,
    List.foldl_cons, List.foldl_nil, tickCore_queued, hlt]
  cases ((s.tickCore n).modCore n (·.queued [] [[op]])).heldFor n j ([op].filter (fun o => !selfHeld o)) with
  | some c => rfl
  | none =>
    simp only [List.findSome?_cons, List.findSome?_nil]
    cases ((s.tickCore n).modCore n (·.queued [] [[op]])).slotFault n p j op with
    | some e => rfl
    | none => cases (((s.tickCore n).modCore n (·.queued [] [[op]])).firstTest n op).heldFor n j [op] <;> rfl

/-- A core whose beat is counted. -/
def countedCore (w : Option Nat) (c : Core) : Core := { c with beats := (c.beats + 1) % 2 ^ 64, cause := w }
/-- A paddock whose beat is counted. -/
def countedPdk (d : Pdk) : Pdk := { d with beats := (d.beats + 1) % 2 ^ 64 }
/-- A core whose oldest bundle leaves its queue. -/
def leftCore (tsc : Nat) (x : Core) : Core :=
  { x with
    queue := x.queue.drop 1, claimWait := 0, claimVal := none,
    issued := (x.issued.filter (fun t => tsc ≤ t + 63)) ++ [tsc] }

theorem countBeat_none (p : Nat) : s.countBeat n p none = (s.modCore n (countedCore none)).modPdk p countedPdk := rfl

theorem markBundle_eq (p k : Nat) : s.markBundle p k = s.modRing p k (Claims.bundleMarked s.dev.tsc.toNat) := rfl

theorem issueBundle_eq (p k : Nat) (j : Job) (op : SlotOp) : s.issueBundle n p k j [op] =
    (((((s.modCore n (leftCore s.dev.tsc.toNat)).markBundle p k).modCore n (nextPc (s.core n))).issueSlot n p k j (s.core n) (s.core n).pc
      op).countBeat n p none).checkEnded n := rfl

theorem issued_eq (p k : Nat) (f : Core → Core) : Claims.issued s n p k f =
    { s.tickCore n with
      cores := tset (s.tickCore n).cores n (f (Claims.issuedCore s.dev.tsc.toNat ((s.tickCore n).core n)))
      rings := tmod {} (s.tickCore n).rings (p * 256 + k) (Claims.bundleMarked s.dev.tsc.toNat)
      pdks := tmod {} (s.tickCore n).pdks p countedPdk } := rfl

/-- The core that a bundle of one slot has just left, its beat counted. -/
theorem issuedCore_eq (tsc : Nat) (op : SlotOp) (d : Core) :
    countedCore none (nextPc (d.queued [] [[op]]) (leftCore tsc (d.queued [] [[op]]))) = Claims.issuedCore tsc d := by
  rcases hx : d.xfer with _ | ⟨_ | _ | m, t⟩ <;>
    simp only [Claims.issuedCore, nextPc, Claims.issuedCore.nextCore, Core.queued, leftCore, countedCore, hx] <;> rfl

theorem checkEnded_going (h : (s.core n).ending = false) : s.checkEnded n = s := by
  simp [checkEnded, h]

theorem modRing_modCore (p k : Nat) (r : Ring → Ring) (f : Core → Core) :
    (s.modRing p k r).modCore n f = (s.modCore n f).modRing p k r := rfl

theorem modCore_modRing_modPdk (p k : Nat) (f : Core → Core) (r : Ring → Ring) (d : Pdk → Pdk) :
    ((s.modCore n f).modRing p k r).modPdk p d =
      { s with cores := tset s.cores n (f (s.core n)), rings := tmod {} s.rings (p * 256 + k) r, pdks := tmod {} s.pdks p d } := rfl

@[simp] theorem nextPc_ending (c x : Core) : (nextPc c x).ending = x.ending := by
  simp only [nextPc]; split <;> rfl
@[simp] theorem countedCore_ending (w : Option Nat) (c : Core) : (countedCore w c).ending = c.ending := rfl
@[simp] theorem leftCore_ending (t : Nat) (c : Core) : (leftCore t c).ending = c.ending := rfl
@[simp] theorem queued_ending (c : Core) (g : List SlotOp) (q : List (List SlotOp)) : (c.queued g q).ending = c.ending := rfl
@[simp] theorem queued_pc (c : Core) (g : List SlotOp) (q : List (List SlotOp)) : (c.queued g q).pc = c.pc := rfl

/-- A bundle of one slot whose effect is on its core alone: the state after it (07 R209, R213). -/
theorem issueBundle_one {s : State} {n p k : Nat} {j : Job} (op : SlotOp) (f : Core → Core)
    (hend : (s.core n).ending = false) (hkeep : ∀ c, (f c).ending = c.ending)
    (hfree : ∀ (c : Core) (w : Option Nat), countedCore w (f c) = f (countedCore w c))
    (hi : ∀ t : State, t.issueSlot n p k j (((s.tickCore n).core n).queued [] [[op]]) (s.core n).pc op = t.modCore n f) :
    ((s.tickCore n).modCore n (·.queued [] [[op]])).issueBundle n p k j [op] = Claims.issued s n p k f := by
  have hpc : (((s.tickCore n).core n).queued [] [[op]]).pc = (s.core n).pc := by simp
  rw [issueBundle_eq, core_modCore_same, hpc, hi, markBundle_eq, countBeat_none, checkEnded_going]
  · rw [modRing_modCore, modRing_modCore, modRing_modCore, modCore_modCore, modCore_modCore, modCore_modCore, modCore_modCore,
      modCore_modRing_modPdk, hfree]
    simp only [modCore_dev, tickCore_dev, issuedCore_eq, issued_eq]
  · simp [hkeep, hend]

/-- A bundle of one slot that is not held, raises no fault, and whose effect is on its core alone (07 R209). The tests are made on the core as
the tick leaves it. -/
theorem slotCmd_issues {s : State} {n p k : Nat} {j : Job} (h : Claims.CanIssue s n p k j) (op : SlotOp) (f : Core → Core)
    (hw : slotWf op = true) (hok : bundleOk ((s.pdk p).img.getD {}) [op] = true)
    (hx : (s.core n).xfer = none ∨ isTransfer op = false)
    (hself : selfHeld op = false) (hdraw : drawsOf [op] = 0)
    (hhold : ((s.tickCore n).modCore n (·.queued [] [[op]])).slotHold n j op = none)
    (hfault : ((s.tickCore n).modCore n (·.queued [] [[op]])).slotFault n p j op = none)
    (hkeep : ∀ c, (f c).ending = c.ending) (hfree : ∀ (c : Core) (w : Option Nat), countedCore w (f c) = f (countedCore w c))
    (hi : ∀ t : State, t.issueSlot n p k j (((s.tickCore n).core n).queued [] [[op]]) (s.core n).pc op = t.modCore n f) :
    s.slotCmd n false op = .next (Claims.issued s n p k f) := by
  have hfirst : ((s.tickCore n).modCore n (·.queued [] [[op]])).firstTest n op = (s.tickCore n).modCore n (·.queued [] [[op]]) := by
    cases op <;> first | rfl | (simp [selfHeld] at hself)
  rw [slotCmd_alone h op hw hok hx]
  simp only [List.filter_cons, hself, Bool.not_false, if_true, List.filter_nil, hfirst, heldFor_one _ _ _ _ hdraw, hhold, hfault,
    issueBundle_one op f h.going.1 hkeep hfree hi]

end State
end Sys2Proof.Machine
end

