-- ==== Sys2Proof/Laws/Ops.lean ====
section
/-! SUPPORT. What each shared operation can do, said once. Messages, events and log records change nothing but themselves (`calm`); the
operations over paddocks, cores, bays and units leave package memory and the power limit alone; a memory write keeps the canonical form
and leaves every byte outside its extent alone. -/

namespace Sys2Proof.Machine.State

variable (s : State)

/-- The state without what messages, events and log records write. -/
def calm : State :=
  { s with
    hif := {}, out := []
    mgt := { s.mgt with log := [], logSeq := 0, events := [] }
    ras := { s.ras with event := 0 }
    sch := { s.sch with event := 0, eventPdk := 0 }
    dev := { s.dev with pwrEvent := 0 } }

@[simp] theorem send_calm (o : Out) : (s.send o).calm = s.calm := rfl
@[simp] theorem modFn_calm (fn : Nat) (f : FnCfg → FnCfg) : (s.modFn fn f).calm = s.calm := rfl

@[simp] theorem msix_calm (fn v : Nat) : (s.msix fn v).calm = s.calm := by
  unfold msix; split <;> rfl

theorem foldl_calm {α : Type} (f : State → α → State) (hf : ∀ s a, (f s a).calm = s.calm) (l : List α) :
    (l.foldl f s).calm = s.calm := by
  induction l generalizing s with
  | nil => rfl
  | cons a t ih => rw [List.foldl_cons, ih, hf]

@[simp] theorem msixFlush_calm (fn : Nat) : (s.msixFlush fn).calm = s.calm := by
  unfold msixFlush; dsimp only; rw [foldl_calm _ (fun s v => s.send (.msix fn v (s.ideOf fn))) (fun _ _ => rfl)]; rfl

@[simp] theorem errMsg_calm (fn : Nat) (posted ur : Bool) : (s.errMsg fn posted ur).calm = s.calm := by
  unfold errMsg; repeat' split
  all_goals rfl

@[simp] theorem pwrEv_calm (b : Nat) : (s.pwrEv b).calm = s.calm := by
  unfold pwrEv; split
  · rfl
  · rw [msix_calm]; rfl

@[simp] theorem schEv_calm (b p : Nat) : (s.schEv b p).calm = s.calm := by
  unfold schEv; dsimp only; split
  · rfl
  · rw [msix_calm]; rfl

@[simp] theorem rasEv_calm (b : Nat) : (s.rasEv b).calm = s.calm := by
  unfold rasEv; split
  · rfl
  · rw [msix_calm]; rfl

@[simp] theorem platformEvent_calm (r : LogRec) : (s.platformEvent r).calm = s.calm := by
  unfold platformEvent; split <;> rfl

@[simp] theorem logRec_calm (kind index status severity event paddock : Nat) (detail : List Nat) :
    (s.logRec kind index status severity event paddock detail).calm = s.calm := by
  unfold logRec; dsimp only; split
  · rfl
  · rw [rasEv_calm, platformEvent_calm]; rfl

@[simp] theorem hostRead_calm (fn addr len : Nat) (what : HostReadFor) : (s.hostRead fn addr len what).calm = s.calm := by
  unfold hostRead; dsimp only
  exact (foldl_calm _ (fun t (e : Nat × Nat) => t.send (.hostRead s.hif.nextTag fn e.1 e.2 (t.ideOf fn))) (fun _ _ => rfl) _).trans rfl
@[simp] theorem hostWrite_calm (fn addr : Nat) (data : List Byte) : (s.hostWrite fn addr data).calm = s.calm :=
  foldl_calm s (fun t (e : Nat × Nat) => t.send (.hostWrite fn e.1 (t.ideOf fn) ((data.drop (e.1 - addr)).take e.2))) (fun _ _ => rfl) _

/-- An event of a paddock sets its bit and sends a message, and does nothing else. -/
theorem pdkEv_calm (p b : Nat) :
    (s.pdkEv p b).calm = s.calm ∨
      (s.pdkEv p b).calm = (s.modPdk p (fun d => { d with event := d.event ||| BitVec.ofNat 64 (2 ^ b) })).calm := by
  unfold pdkEv; split
  · exact .inl rfl
  · exact .inr (msix_calm _ _ _)

/-! ### Package memory and the power limit -/

/-- Package memory and the power limit: what the invariant of every step is about. -/
def kept : List Host.Cell × Nat := (s.mem, s.dev.capWatts)

/-- Equal memory and an equal limit keep the invariant. -/
theorem ok_of_kept {s t : State} (h : t.kept = s.kept) : (s.memOk → t.memOk) ∧ (s.capOk → t.capOk) := by
  have hm : t.mem = s.mem := congrArg Prod.fst h
  have hc : t.dev.capWatts = s.dev.capWatts := congrArg Prod.snd h
  simp only [memOk, capOk, hm, hc]
  exact ⟨id, id⟩

/-- An operation that changes only what messages, events and log records write keeps both. -/
theorem kept_of_calm {s t : State} (h : t.calm = s.calm) : t.kept = s.kept :=
  Prod.ext (congrArg State.mem h :) (congrArg (fun s : State => s.dev.capWatts) h :)

theorem foldl_kept {α : Type} (f : State → α → State) (hf : ∀ s a, (f s a).kept = s.kept) (l : List α) (s : State) :
    (l.foldl f s).kept = s.kept := by
  induction l generalizing s with
  | nil => rfl
  | cons a t ih => rw [List.foldl_cons, ih, hf]

theorem hif_kept (h : Hif) : ({ s with hif := h } : State).kept = s.kept := rfl
theorem flights_kept (a : List SemFly) (b : List HqFly) : ({ s with semFly := a, hqFly := b } : State).kept = s.kept := rfl
@[simp] theorem modPdk_kept (p : Nat) (f : Pdk → Pdk) : (s.modPdk p f).kept = s.kept := rfl
@[simp] theorem modRing_kept (p k : Nat) (f : Ring → Ring) : (s.modRing p k f).kept = s.kept := rfl
@[simp] theorem modBay_kept (b : Nat) (f : Bay → Bay) : (s.modBay b f).kept = s.kept := rfl
@[simp] theorem modCore_kept (n : Nat) (f : Core → Core) : (s.modCore n f).kept = s.kept := rfl
@[simp] theorem modFn_kept (fn : Nat) (f : FnCfg → FnCfg) : (s.modFn fn f).kept = s.kept := rfl
@[simp] theorem modTdi_kept (p : Nat) (f : Tdi → Tdi) : (s.modTdi p f).kept = s.kept := rfl
@[simp] theorem modLoad_kept (fn : Nat) (f : LoadRegs → LoadRegs) : (s.modLoad fn f).kept = s.kept := rfl
@[simp] theorem modGraph_kept (p g : Nat) (f : GraphSt → GraphSt) : (s.modGraph p g f).kept = s.kept := rfl
@[simp] theorem modFabJob_kept (p j : Nat) (f : FabJob → FabJob) : (s.modFabJob p j f).kept = s.kept := rfl
@[simp] theorem modEyelet_kept (p e : Nat) (f : Eyelet → Eyelet) : (s.modEyelet p e f).kept = s.kept := rfl
@[simp] theorem modPort_kept (pt : Nat) (f : Port → Port) : (s.modPort pt f).kept = s.kept := rfl
@[simp] theorem modMc_kept (st : Nat) (f : MemCtl → MemCtl) : (s.modMc st f).kept = s.kept := rfl
@[simp] theorem modYard_kept (f : Yard → Yard) : (s.modYard f).kept = s.kept := rfl
@[simp] theorem send_kept (o : Out) : (s.send o).kept = s.kept := rfl
@[simp] theorem newEpoch_kept (fn : Option Nat) : (s.newEpoch fn).kept = s.kept := rfl
@[simp] theorem hostRead_kept (fn addr len : Nat) (what : HostReadFor) : (s.hostRead fn addr len what).kept = s.kept :=
  kept_of_calm (by simp)
@[simp] theorem hostWrite_kept (fn addr : Nat) (data : List Byte) : (s.hostWrite fn addr data).kept = s.kept := kept_of_calm (by simp)
@[simp] theorem errMsg_kept (fn : Nat) (posted ur : Bool) : (s.errMsg fn posted ur).kept = s.kept := kept_of_calm (by simp)
@[simp] theorem countRetired_kept : s.countRetired.kept = s.kept := rfl
@[simp] theorem drawMany_kept (n : Nat) : (s.drawMany n).2.kept = s.kept := rfl
@[simp] theorem drawWide_kept (n : Nat) : (s.drawWide n).2.kept = s.kept := rfl
@[simp] theorem queueRow_kept (st row : Nat) : (s.queueRow st row).kept = s.kept := rfl
@[simp] theorem draw_kept : s.draw.2.kept = s.kept := rfl
@[simp] theorem openVal_kept : s.openVal.2.kept = s.kept := rfl
@[simp] theorem msix_kept (fn v : Nat) : (s.msix fn v).kept = s.kept := kept_of_calm (by simp)
@[simp] theorem msixFlush_kept (fn : Nat) : (s.msixFlush fn).kept = s.kept := kept_of_calm (by simp)
@[simp] theorem pwrEv_kept (b : Nat) : (s.pwrEv b).kept = s.kept := kept_of_calm (by simp)
@[simp] theorem schEv_kept (b p : Nat) : (s.schEv b p).kept = s.kept := kept_of_calm (by simp)
@[simp] theorem rasEv_kept (b : Nat) : (s.rasEv b).kept = s.kept := kept_of_calm (by simp)
@[simp] theorem logRec_kept (kind index status severity event paddock : Nat) (detail : List Nat) :
    (s.logRec kind index status severity event paddock detail).kept = s.kept := kept_of_calm (by simp)

@[simp] theorem pdkEv_kept (p b : Nat) : (s.pdkEv p b).kept = s.kept := by
  unfold pdkEv; split
  · rfl
  · simp

@[simp] theorem refuse_kept (fn code bar off : Nat) : (s.refuse fn code bar off).kept = s.kept := by
  unfold refuse; split
  · rw [hif_kept]
  · rw [modPdk_kept]

@[simp] theorem ideRefuse_kept (fn bar off : Nat) : (s.ideRefuse fn bar off).kept = s.kept := by simp [ideRefuse]

/-- A register write of a VF keeps what its effect keeps. -/
theorem vfWrite_kept (p off : Nat) (ide : Option Nat) (f : State → State) (h : (f s).kept = s.kept) :
    (s.vfWrite p off ide f).kept = s.kept := by
  unfold vfWrite; split
  · rfl
  · split
    · simp
    · exact h

@[simp] theorem poisonGranule_kept (g row : Nat) : (s.poisonGranule g row).kept = s.kept := by
  unfold poisonGranule; dsimp only; rw [logRec_kept, queueRow_kept]; rfl

@[simp] theorem retireRow_kept (n r : Nat) : (s.retireRow n r).kept = s.kept := by
  unfold retireRow; dsimp only; split <;> rfl

@[simp] theorem mapOut_kept (n : Nat) : (s.mapOut n).kept = s.kept := by
  unfold mapOut
  refine foldl_kept _ (fun s r => ?_) _ _
  dsimp only
  split
  · rfl
  · split <;> simp

@[simp] theorem scrubCore_kept (n : Nat) : (s.scrubCore n).kept = s.kept := by simp [scrubCore]

@[simp] theorem scrubBay_kept (b : Nat) : (s.scrubBay b).kept = s.kept := by
  unfold scrubBay; dsimp only
  rw [flights_kept, modBay_kept]
  exact foldl_kept _ (fun s n => by simp) _ _

@[simp] theorem scrubAll_kept : s.scrubAll.kept = s.kept := foldl_kept _ (fun s b => by simp) _ _

@[simp] theorem setPdkSt_kept (p : Nat) (st : PdkSt) : (s.setPdkSt p st).kept = s.kept := by
  unfold setPdkSt; dsimp only
  split
  · rfl
  · split
    · simp
    · split <;> simp

@[simp] theorem settlePdk_kept (p : Nat) : (s.settlePdk p).kept = s.kept := by
  unfold settlePdk; split <;> simp

@[simp] theorem setUnit_kept (u : UnitId) (st : UnitSt) : (s.setUnit u st).kept = s.kept := by
  unfold setUnit; split
  · rfl
  · rw [rasEv_kept]; cases u <;> rfl

@[simp] theorem setUnitBoth_kept (u : UnitId) (st : UnitSt) : (s.setUnitBoth u st).kept = s.kept := by
  have h : (s.setUnitBoth u st).kept = (s.setUnit u st).kept := rfl
  rw [h, setUnit_kept]

/-! ### Writes -/

theorem storeBytes_wf (dead : List Nat) (m : List Host.Cell) (a : Nat) (bs : List Byte) (h : Memory.wf m = true) :
    Memory.wf (storeBytes dead m a bs) = true := by
  induction bs generalizing m a with
  | nil => exact h
  | cons b t ih =>
    refine ih _ _ ?_
    split
    · exact h
    · exact writeByte_wf m a b h

/-- A write leaves every byte outside its extent as it was. -/
theorem readByte_storeBytes_out (dead : List Nat) (m : List Host.Cell) (a b : Nat) (bs : List Byte) (h : b < a ∨ a + bs.length ≤ b) :
    readByte (storeBytes dead m a bs) b = readByte m b := by
  induction bs generalizing m a with
  | nil => rfl
  | cons v t ih =>
    simp only [List.length_cons] at h
    rw [storeBytes, ih _ _ (by omega)]
    split
    · rfl
    · exact readByte_writeByte_ne _ _ _ _ (by omega)

/-- A memory write changes memory, poison and open fetches alone, keeps the canonical form, and leaves every byte outside its extent as it was. -/
theorem memWrite_spec (a : Nat) (bs : List Byte) :
    s.memWrite a bs = { s with mem := (s.memWrite a bs).mem, mcs := s.closeFetches a (a + bs.length)
                               ras := { s.ras with poison := (s.memWrite a bs).ras.poison } } ∧
    (s.memOk → (s.memWrite a bs).memOk) ∧
    (∀ b : Nat, b < a ∨ a + bs.length ≤ b → readByte (s.memWrite a bs).mem b = readByte s.mem b) :=
  ⟨rfl, storeBytes_wf _ _ _ _, fun _ h => readByte_storeBytes_out _ _ _ _ _ h⟩

/-- Zeroing frames changes memory, poison and open fetches alone, and keeps the canonical form. -/
theorem zeroFrames_spec (base count : Nat) :
    s.zeroFrames base count =
      { s with mem := (s.zeroFrames base count).mem, mcs := s.closeFetches (base * frameSize) ((base + count) * frameSize)
               ras := { s.ras with poison := (s.zeroFrames base count).ras.poison } } ∧
    (s.memOk → (s.zeroFrames base count).memOk) :=
  ⟨rfl, zeroRange_wf _ _ _⟩

/-- A request that its controller accepts changes memory, poison and that controller alone; a read changes no memory, and a write writes its
bytes and no others. -/
theorem acceptPiece_spec (w : Waiting) (data : List Byte) :
    let t := s.acceptPiece w data
    t = { s with mem := t.mem, mcs := t.mcs, ras := { s.ras with poison := t.ras.poison } } ∧ (s.memOk → t.memOk) ∧
    (w.write = false → t.mem = s.mem) ∧
    (∀ b : Nat, b < w.addr ∨ w.addr + data.length ≤ b → readByte t.mem b = readByte s.mem b) := by
  dsimp only
  unfold acceptPiece
  by_cases hw : w.write = true
  · simp only [hw, Bool.not_true, Bool.false_and, Bool.false_eq_true, if_false, if_true]
    exact ⟨rfl, storeBytes_wf _ _ _ _, by simp, fun _ h => readByte_storeBytes_out _ _ _ _ _ h⟩
  · simp only [Bool.not_eq_true] at hw
    simp only [hw, Bool.not_false, Bool.true_and, Bool.false_eq_true, if_false]
    split <;> exact ⟨rfl, id, fun _ => rfl, fun _ _ => rfl⟩

/-- Bytes that an engine moves keep the canonical form and the power limit. -/
theorem traffic_ok (write : Bool) (a : Nat) (data : List Byte) (len : Nat) :
    (s.memOk → (s.traffic write a data len).memOk) ∧ (s.traffic write a data len).dev = s.dev := by
  unfold traffic
  generalize piecesOf a len = l
  induction l generalizing s with
  | nil => exact ⟨id, rfl⟩
  | cons e t ih =>
    rw [List.foldl_cons]
    obtain ⟨h1, h2⟩ := ih (s.newTag.2.acceptPiece
      { Waiting.plain with tag := s.newTag.1, write := write, addr := e.1, len := e.2 } ((data.drop (e.1 - a)).take e.2))
    obtain ⟨g1, g2, -⟩ := s.newTag.2.acceptPiece_spec
      { Waiting.plain with tag := s.newTag.1, write := write, addr := e.1, len := e.2 } ((data.drop (e.1 - a)).take e.2)
    exact ⟨fun h => h1 (g2 h), h2.trans (congrArg (fun t : State => t.dev) g1 :)⟩

end Sys2Proof.Machine.State
end

