-- ==== Sys2Proof/WellFormed.lean ====
section
/-! DEFINITION. Well-formed commands: operands that a sender can send. What the device itself refuses (a misaligned register access, a slot
out of range) is well-formed. -/

namespace Sys2Proof

/-- An IDE stream ID is one of 256 (06 R184). -/
def wfIde : Option Nat → Bool
  | none => true
  | some k => k < 256

/-- A register access: at most 8 bytes, its offset in 32 bits (03 R89, R97). -/
def wfAccess (off size : Nat) (ide : Option Nat) : Bool := off < 2 ^ 32 && 1 ≤ size && size ≤ 8 && wfIde ide

/-- A written value fits the bytes written (03 R92). -/
def wfValue (size : Nat) (val : Word) : Bool := val.toNat < 2 ^ (8 * size)

/-- A memory request: a 40-bit address, one byte of data for each byte written, a tag below those of the part's own engines (01 R26). -/
def wfReq (rq : MemReq) : Bool :=
  rq.addr < 2 ^ 40 && rq.data.length = (if rq.write then rq.len else 0) && rq.tag < 2 ^ 32

/-- A check corrects at most the 64 code words of a row (09 R283). -/
def wfEcc : EccResult → Bool
  | .corrected words => 1 ≤ words && words ≤ 64
  | _ => true

/-- A change of configuration space: NumVFs and a stream's ID are in range (03 R88, 06 R184). -/
def wfCfg : CfgWrite → Bool
  | .numVfs n => n < 65536
  | .streamControl k _ => k < 256
  | _ => true

/-- Four readings of 16 bits, one per die (02 PWR_BEAT_MON, R58). -/
def wfDies (l : List Nat) : Bool := l.length = 4 && l.all (· < 65536)

/-- A BAR2 TLP: at most 4 KiB in a 256 MiB BAR, a write with one byte of data for each byte (03 R85, R89). -/
def wfTlp (write : Bool) (off len : Nat) (data : List Byte) (ide : Option Nat) : Bool :=
  off + len ≤ 0x10000000 && len ≤ 4096 && data.length = (if write then len else 0) && wfIde ide

/-- The number of a stream that can be keyed: a selective stream, or 256 for the link stream (06 R184). -/
def wfStream (k : Nat) : Bool := k ≤ 256

/-- A HELLO's fields (15 R427). -/
def wfHello (h : Hello) : Bool := h.device < 1024 && h.port < 8 && h.protect < 2 && h.ethertype < 65536

/-- A header's fields, and a tag of 16 bytes where the frame is encrypted (15 R423, R424). -/
def wfHdr (h : FrameHdr) : Bool :=
  h.src < 1024 && h.dst < 1024 && h.srcPdk < 128 && h.dstPdk < 128 && h.jobId < 2 ^ 32 && h.seq < 2 ^ 32 && h.ctr < 2 ^ 64 && h.xfer < 65536
    && h.offset < 2 ^ 32 && (h.tag.length = if h.enc then 16 else 0)

/-- A frame's payload is at most 4,096 bytes (15 R423). -/
def wfPayload (d : List Byte) : Bool := d.length ≤ 4096

/-- A target block's fields; it is there on the first frame alone (15 R423). -/
def wfTarget (h : FrameHdr) : Option TargetBlk → Bool
  | none => !h.first
  | some t => h.first && t.len < 2 ^ 32 && t.raddr < 2 ^ 64

/-- A trailer: a key and a signature of 96 bytes each, signed bytes that a message holds (16 R443, R447). -/
def wfAuth (au : Auth) : Bool := au.key.length = 96 && au.sig.length = 96 && au.signed.length ≤ 832

/-- MCTP and PLDM do not use the mailbox (16 R443). -/
def wfMctp (tr : Transport) : Bool := tr ≠ .mailbox

/-- The number of a unit that the two registers report, and a state's code (16 RAS_BAY_STATE, RAS_UNIT_STATE, R462). -/
def wfSeen (e : Nat × Nat) : Bool := e.1 < 34 && e.2 < 4

/-- IDs of numeric sensors (16 R451). -/
def wfSensor (id : Nat) : Bool :=
  (1 ≤ id && id ≤ 5) || (0x10 ≤ id && id ≤ 0x15) || (0x20 ≤ id && id ≤ 0x27) || (0x30 ≤ id && id ≤ 0x33)

/-- Whether a command is well-formed; a constructor without a line has no operand that could be otherwise. -/
def Instr.wf : Instr → Bool
  | .registerWrite _ off size val ide => wfAccess off size ide && wfValue size val
  | .rcRead _ off size ide => wfAccess off size ide
  | .pkgMemAccess rq => wfReq rq
  | .pkgMemFetchComplete _ _ ecc _ => wfEcc ecc
  | .memPatrol _ ecc _ _ => wfEcc ecc
  | .spadPatrol _ _ ecc => wfEcc ecc
  | .eccWriteback _ r => r.words.elim true (fun w => 1 ≤ w && w ≤ 64)
  | .junctionRecovered _ _ mon => mon < 65536
  | .ctrlRestartDone queued => queued.length ≤ 3
  | .configWrite _ w => wfCfg w
  | .railUpdate capMv thermMv mon base => wfDies capMv && wfDies thermMv && wfDies mon && base < 65536
  | .bar2Tlp _ write off len data ide => wfTlp write off len data ide
  | .hostCompletion _ ok data => ok || data.isEmpty
  | .loftPageReturn _ ok data => ok || data.isEmpty
  | .sqEntry _ _ data => data.length = 64
  | .getCertificate _ _ off len => off < 65536 && len < 65536
  | .challenge _ _ nonce => nonce.length = 32
  | .getMeasurements _ idx nonce => idx < 256 && nonce.length = 32
  | .keyProg _ stream _ _ _ => wfStream stream
  | .kSetGo _ stream _ _ _ => wfStream stream
  | .kSetStop _ stream _ _ _ => wfStream stream
  | .lockInterfaceRequest _ _ stream _ => wfStream stream
  | .epochAck e => e < 2 ^ 32
  | .frameZeroed slot n => n < (if slot then 65536 else 4194304)
  | .hello _ h => wfHello h
  | .dataFrame _ h t payload => wfHdr h && wfTarget h t && wfPayload payload
  | .ackFrame _ h => wfHdr h
  | .nakFrame _ h status => wfHdr h && status < 256
  | .retireFrame _ h => wfHdr h
  | .collFrame _ h kind len payload => wfHdr h && kind < 2 ^ 32 && len < 2 ^ 32 && wfPayload payload
  | .eyeletAbandon _ e => e < 4096
  | .setEndpointId tr _ => wfMctp tr
  | .setEventReceiver tr _ => wfMctp tr
  | .requestUpdate tr agent => wfMctp tr && agent < 256
  | .updateComponent tr agent _ size => wfMctp tr && agent < 256 && size < 2 ^ 32
  | .requestFirmwareDataResponse tr off data => wfMctp tr && off < 2 ^ 32 && data.length ≤ 512
  | .enrollKey _ slot digest au => slot < 256 && digest.length ≤ 512 && (au.elim true wfAuth)
  | .revokeKey _ slot au => slot < 256 && wfAuth au
  | .logRead _ seq count => seq < 2 ^ 32 && count < 256
  | .logClear _ au => wfAuth au
  | .selftest _ _ _ au => wfAuth au
  | .calibrate _ _ _ au => wfAuth au
  | .quarantine _ _ au => wfAuth au
  | .release _ _ au => wfAuth au
  | .testAccess _ _ au => wfAuth au
  | .ctrlRestart _ au => wfAuth au
  | .sensorRefresh readings => readings.all (fun e => wfSensor e.1)
  | .viewCompare seen => seen.all wfSeen
  | _ => true

end Sys2Proof
end

