-- ==== Sys2Proof/Tests/Slice0.lean ====
section
/-! SUPPORT. Tests of the model: commands that WellFormed refuses, small runs whose results are worked out from the spec by hand, and for
every statement with hypotheses a state and operands that meet them. -/

namespace Sys2Proof.Tests

set_option Elab.async false

open Sys2Proof Sys2Proof.Machine Sys2Proof.Claims

/-! ### Commands that are not well-formed -/

def rq : MemReq :=
  { tag := 1, write := true, addr := 0, len := 2, data := [1, 2], by_ := .host 0 }
def hdr : FrameHdr :=
  { vlanTags := 0, first := true, last := true, enc := false, notReady := false, src := 2, dst := 0, srcPdk := 1, dstPdk := 1, jobId := 7,
    seq := 1, ctr := 0, xfer := 0, offset := 0, tag := [] }
def tb : TargetBlk := { get := false, rspace := false, len := 4, raddr := 0 }
def au : Auth := { nonce := 5, key := List.replicate 96 0, sig := List.replicate 96 0, signed := [] }

theorem smoke_access_offset : (Instr.registerWrite 0 (2 ^ 32) 8 0 none).wf = false := by decide
theorem smoke_access_size : (Instr.rcRead 0 0 9 none).wf = false := by decide
theorem smoke_access_stream : (Instr.rcRead 0 0 8 (some 256)).wf = false := by decide
theorem smoke_value : (Instr.registerWrite 0 0 4 0x100000000 none).wf = false := by decide
theorem smoke_request_address : (Instr.pkgMemAccess { rq with addr := 2 ^ 40 }).wf = false := by decide
theorem smoke_request_tag : (Instr.pkgMemAccess { rq with tag := 2 ^ 32 }).wf = false := by decide
theorem smoke_request_data : (Instr.pkgMemAccess { rq with data := [1] }).wf = false := by decide
theorem smoke_request_read_data : (Instr.pkgMemAccess { rq with write := false }).wf = false := by decide
theorem smoke_fetch_check : (Instr.pkgMemFetchComplete 0 1 (.corrected 0) 0).wf = false := by decide
theorem smoke_memory_patrol : (Instr.memPatrol 0 (.corrected 65) 0 false).wf = false := by decide
theorem smoke_row_patrol : (Instr.spadPatrol 0 0 (.corrected 65)).wf = false := by decide
theorem smoke_writeback : (Instr.eccWriteback 0 { row := 0, words := some 0 }).wf = false := by decide
theorem smoke_recovered_rate : (Instr.junctionRecovered 0 90 65536).wf = false := by decide
theorem smoke_restart_queue : (Instr.ctrlRestartDone [.pcie, .i3c, .pcie, .i3c]).wf = false := by decide
theorem smoke_num_vfs : (Instr.configWrite 0 (.numVfs 65536)).wf = false := by decide
theorem smoke_stream_control : (Instr.configWrite 0 (.streamControl 256 0)).wf = false := by decide
theorem smoke_dies : (Instr.railUpdate [0, 0, 0] [0, 0, 0, 0] [0, 0, 0, 0] 0).wf = false := by decide
theorem smoke_die_value : (Instr.railUpdate [0, 0, 0, 65536] [0, 0, 0, 0] [0, 0, 0, 0] 0).wf = false := by decide
theorem smoke_base : (Instr.railUpdate [0, 0, 0, 0] [0, 0, 0, 0] [0, 0, 0, 0] 65536).wf = false := by decide
theorem smoke_tlp_bar : (Instr.bar2Tlp 0 false 0xFFFFFFF 2 [] none).wf = false := by decide
theorem smoke_tlp_len : (Instr.bar2Tlp 0 false 0 4097 [] none).wf = false := by decide
theorem smoke_tlp_data : (Instr.bar2Tlp 0 true 0 2 [1] none).wf = false := by decide
theorem smoke_completion : (Instr.hostCompletion 0 false [1]).wf = false := by decide
theorem smoke_loft : (Instr.loftPageReturn 0 false [1]).wf = false := by decide
theorem smoke_entry : (Instr.sqEntry 0 0 [1]).wf = false := by decide
theorem smoke_certificate : (Instr.getCertificate .doe 0 65536 0).wf = false := by decide
theorem smoke_challenge : (Instr.challenge .doe 0 []).wf = false := by decide
theorem smoke_measurements : (Instr.getMeasurements .doe 256 (List.replicate 32 0)).wf = false := by decide
theorem smoke_key_prog : (Instr.keyProg 1 257 0 false 0).wf = false := by decide
theorem smoke_key_go : (Instr.kSetGo 1 257 0 false 0).wf = false := by decide
theorem smoke_key_stop : (Instr.kSetStop 1 257 0 false 0).wf = false := by decide
theorem smoke_lock : (Instr.lockInterfaceRequest 1 0 257 false).wf = false := by decide
theorem smoke_epoch : (Instr.epochAck (2 ^ 32)).wf = false := by decide
theorem smoke_slot_zeroed : (Instr.frameZeroed true 65536).wf = false := by decide
theorem smoke_frame_zeroed : (Instr.frameZeroed false 4194304).wf = false := by decide
theorem smoke_hello : (Instr.hello 0 { device := 1024, port := 0, protect := 0, ethertype := 0 }).wf = false := by decide
theorem smoke_header : (Instr.ackFrame 0 { hdr with srcPdk := 128 }).wf = false := by decide
theorem smoke_header_tag : (Instr.retireFrame 0 { hdr with tag := [0] }).wf = false := by decide
theorem smoke_target : (Instr.dataFrame 0 { hdr with first := false } (some tb) []).wf = false := by decide
theorem smoke_no_target : (Instr.dataFrame 0 hdr none []).wf = false := by decide
theorem smoke_payload : wfPayload (List.replicate 4097 0) = false := by rw [wfPayload, List.length_replicate]; decide
theorem smoke_nak : (Instr.nakFrame 0 hdr 256).wf = false := by decide
theorem smoke_coll : (Instr.collFrame 0 hdr (2 ^ 32) 0 []).wf = false := by decide
theorem smoke_abandon : (Instr.eyeletAbandon 0 4096).wf = false := by decide
theorem smoke_mailbox_mctp : (Instr.setEndpointId .mailbox 0).wf = false := by decide
theorem smoke_mailbox_receiver : (Instr.setEventReceiver .mailbox 0).wf = false := by decide
theorem smoke_mailbox_update : (Instr.requestUpdate .mailbox 0).wf = false := by decide
theorem smoke_component_size : (Instr.updateComponent .pcie 0 1 (2 ^ 32)).wf = false := by decide
theorem smoke_firmware_offset : (Instr.requestFirmwareDataResponse .pcie (2 ^ 32) []).wf = false := by decide
theorem smoke_key_slot : (Instr.enrollKey .pcie 256 [] none).wf = false := by decide
theorem smoke_revoke : (Instr.revokeKey .pcie 256 au).wf = false := by decide
theorem smoke_trailer : (Instr.logClear .pcie { au with key := [] }).wf = false := by decide
theorem smoke_trailer_sig : (Instr.selftest .pcie 1 false { au with sig := [] }).wf = false := by decide
theorem smoke_log_count : (Instr.logRead .pcie 0 256).wf = false := by decide
theorem smoke_sensor : (Instr.sensorRefresh [(6, 0)]).wf = false := by decide
theorem smoke_view : (Instr.viewCompare [(34, 0)]).wf = false := by decide
theorem smoke_view_code : (Instr.viewCompare [(0, 4)]).wf = false := by decide
theorem smoke_well_formed : (Instr.logRead .pcie 0 16).wf = true := by decide

/-! ### A core that may issue -/

/-- An image of one program of 100 bundles that needs two bays. -/
def img : TenImage := { needs := { bays := 2 }, progs := [100], sfuReq := [(0, 0)] }
/-- A running job of one bay. -/
def job : Job := { ph := .running, bays := 1, lays := [0], slots := [0], tag := 9 }
/-- Core 0 of paddock 1's job on bay 0, which is `b`. -/
def coreSt (c : Core) (b : Bay) : State :=
  { cores := [(0, { c with running := true, gather := [], queue := [], program := 0 })]
    bays := [(0, { b with job := some (0, 0), holder := some 0 })]
    rings := [(0, { en := true, job := some job })]
    pdks := [(0, { st := .running, img := some img })] }

theorem canIssue (c : Core) (b : Bay) (he : c.ending = false) (hs : b.stopping = none) (hp : c.pc < 100) :
    CanIssue (coreSt c b) 0 0 0 job :=
  ⟨rfl, ⟨rfl, rfl⟩, ⟨he, hs⟩, rfl, hp⟩

/-- A core that may issue. -/
def s0 : State := coreSt {} {}
theorem s0_issues : CanIssue s0 0 0 0 job := canIssue _ _ rfl rfl (by decide)

theorem witness_StepRunsTheFrontCommand : ({ s0 with pending := [.nop 0 false] } : State).pending = .nop 0 false :: [] := rfl
theorem witness_EmptyQueueIsATick : State.reset.pending = [] := rfl
theorem witness_ScalarOperations : CanIssue s0 0 0 0 job := s0_issues

theorem witness_Transfers : CanIssue s0 0 0 0 job ∧ (s0.core 0).xfer = none := ⟨s0_issues, rfl⟩
/-- Core 0 as a bundle of `s` reads it. -/
def cc (s : State) : Core := (s.tickCore 0).core 0

/-- JR to the last bundle, and to one past it. -/
theorem witness_Transfers_inside : CanIssue (coreSt { x := [(1, 99)] } {}) 0 0 0 job ∧
    (cc (coreSt { x := [(1, 99)] } {})).rdX 1 = 99 ∧ (99 : Nat) % 65536 < (coreSt { x := [(1, 99)] } {}).progLen 0 :=
  ⟨canIssue _ _ rfl rfl (by decide), by decide, by decide⟩
theorem witness_Transfers_outside : CanIssue (coreSt { x := [(1, 100)] } {}) 0 0 0 job ∧
    (cc (coreSt { x := [(1, 100)] } {})).rdX 1 = 100 ∧ (coreSt { x := [(1, 100)] } {}).progLen 0 ≤ (100 : Nat) % 65536 :=
  ⟨canIssue _ _ rfl rfl (by decide), by decide, by decide⟩

/-- A DRBG that serves. -/
def sRng : State := { s0 with sec := { rng := { running := true } } }
theorem sRng_issues : CanIssue sRng 0 0 0 job := ⟨rfl, ⟨rfl, rfl⟩, ⟨rfl, rfl⟩, rfl, by decide⟩
theorem witness_AddressSystemAndEndOperations : CanIssue sRng 0 0 0 job ∧ (10 : Nat) ≤ (10 : BitVec 14).toNat ∧ sRng.drbgReady = true ∧
    (sRng.core 0).xfer = none ∧ s0.drbgReady = false := ⟨sRng_issues, by decide, by decide, rfl, by decide⟩
/-- END with nothing in flight, and with a result still to come. -/
theorem witness_End_idle : CanIssue s0 0 0 0 job ∧ (cc s0).flight = [] ∧ (cc s0).mac = none ∧ (cc s0).strms = [] ∧ (cc s0).ended = false ∧
    s0.semFly = [] ∧ s0.hqFly = [] := ⟨s0_issues, rfl, rfl, rfl, rfl, rfl, rfl⟩
def cBusy : Core := { flight := [{ left := 5, act := .setX 1 7 }] }
theorem witness_End_busy : CanIssue (coreSt cBusy {}) 0 0 0 job ∧ (cc (coreSt cBusy {})).flight ≠ [] :=
  ⟨canIssue _ _ rfl rfl (by decide), by decide⟩

theorem witness_RowLaneOperations : CanIssue s0 0 0 0 job ∧ (3 : Fin 16).val ≤ 3 ∧ (5 : Fin 16).val ≤ 5 ∧ 3 < (4 : Fin 16).val ∧
    5 < (6 : Fin 16).val := ⟨s0_issues, by decide, by decide, by decide, by decide⟩
theorem witness_RowLaneOperations_lanes : (255 : Nat) < 256 := by decide

/-- Widening, narrowing and same-width conversions; a stochastic one from FP32 to FP8 E4M3. -/
theorem witness_RowConversionsAndFunctions : CanIssue sRng 0 0 0 job ∧ (4 : WReg).val % (512 / 128) = 0 ∧ (3 : Fin 4).val < 512 / 128 ∧
    (4 : Fin 16).val = 4 ∧ sRng.drbgReady = true :=
  ⟨sRng_issues, by decide, by decide, by decide, by decide⟩
/-- A core whose special-function unit a drain uses, and one where another selector's operation is in flight. -/
def cSfu (a : Act) : Core := { flight := [{ left := 4, act := a }] }
theorem witness_RowConversionsAndFunctions_held : CanIssue s0 0 0 0 job ∧ s0.drbgReady = false ∧
    (∃ f ∈ (cc (coreSt (cSfu .drainUse) {})).flight, f.act = .drainUse ∨ ∃ q, f.act = .sfuDone q ∧ q ≠ (0 : Fin 64).val) ∧
    (∃ f ∈ (cc (coreSt (cSfu (.sfuDone 1)) {})).flight, f.act = .drainUse ∨ ∃ q, f.act = .sfuDone q ∧ q ≠ (0 : Fin 64).val) ∧
    (∀ f ∈ (cc (coreSt (cSfu (.sfuDone 1)) {})).flight, f.act ≠ .drainUse ∧ ∀ q, f.act = .sfuDone q → q = (1 : Fin 64).val) := by
  refine ⟨s0_issues, by decide, ⟨{ left := 3, act := .drainUse }, by decide, .inl rfl⟩,
    ⟨{ left := 3, act := .sfuDone 1 }, by decide, .inr ⟨1, rfl, by decide⟩⟩, fun f hf => ?_⟩
  obtain rfl : f = { left := 3, act := .sfuDone 1 } := by
    have h : (cc (coreSt (cSfu (.sfuDone 1)) {})).flight = [{ left := 3, act := .sfuDone 1 }] := by decide
    rw [h] at hf
    exact List.mem_singleton.mp hf
  exact ⟨by decide, fun q h => by injection h with h; exact h.symm⟩
def pl : Platform := { sfu := [{ slot := 0, func := 1, steps := [] }] }
def sSfu : State := { s0 with plat := some pl }
theorem witness_RowConversionsAndFunctions_program : CanIssue sSfu 0 0 0 job ∧ (cc sSfu).mac = none ∧ (cc sSfu).flight = [] ∧
    sSfu.plat = some pl ∧ pl.sfu.find? (fun e => e.slot = 2 - 2) = some { slot := 0, func := 1, steps := [] } ∧
    (sSfu.pdk 0).img = some img ∧ (∃ q ∈ img.sfuReq, q.1 = 2 - 2) :=
  ⟨⟨rfl, ⟨rfl, rfl⟩, ⟨rfl, rfl⟩, rfl, by decide⟩, rfl, rfl, rfl, rfl, rfl, ⟨(0, 0), by decide, rfl⟩⟩

/-- The last row and one past it; a bank stage taken by an earlier read, and by an earlier write. -/
def cAddr (a : Addr) (bs : List BankUse) : Core := { a := [(0, a)], banks := bs.map (fun b => { b with left := b.left + 1 }) }
def useR : BankUse := { left := 3, bank := 7, read := true }
def useW : BankUse := { left := 3, bank := 7, read := false }
theorem witness_RowLoadsAndStores : CanIssue (coreSt (cAddr 4095 []) {}) 0 0 0 job ∧ spadRow (cc (coreSt (cAddr 4095 []) {})) 0 0 = 4095 ∧
    useR ∉ (cc (coreSt (cAddr 4095 []) {})).banks ∧ useW ∉ (cc (coreSt (cAddr 4095 []) {})).banks :=
  ⟨canIssue _ _ rfl rfl (by decide), by decide, by decide, by decide⟩
theorem witness_RowLoadsAndStores_clash : CanIssue (coreSt (cAddr 4095 [useR, useW]) {}) 0 0 0 job ∧
    spadRow (cc (coreSt (cAddr 4095 [useR, useW]) {})) 0 0 < 4096 ∧
    useR ∈ (cc (coreSt (cAddr 4095 [useR, useW]) {})).banks ∧ useW ∈ (cc (coreSt (cAddr 4095 [useR, useW]) {})).banks :=
  ⟨canIssue _ _ rfl rfl (by decide), by decide, by decide, by decide⟩
theorem witness_RowLoadsAndStores_range : CanIssue (coreSt (cAddr 4095 []) {}) 0 0 0 job ∧
    4096 ≤ spadRow (cc (coreSt (cAddr 4095 []) {})) 0 1 ∧ ((cc (coreSt (cAddr 511 []) {})).rdA 0).toNat % 512 + (0 : BitVec 12).toNat < 512 ∧
    512 ≤ ((cc (coreSt (cAddr 511 []) {})).rdA 0).toNat % 512 + (1 : BitVec 12).toNat :=
  ⟨canIssue _ _ rfl rfl (by decide), by decide, by decide, by decide⟩

/-- FILL and COPY of the last two rows, one row too many, and one that starts beyond; with one in flight. -/
def cFill (a : Addr) : Core := { a := [(0, a)], x := [(1, 0)] }
theorem witness_FillAndCopy : CanIssue (coreSt (cFill 4094) {}) 0 0 0 job ∧ (2 : BitVec 12) ≠ 0 ∧
    (∀ f ∈ (cc (coreSt (cFill 4094) {})).flight, f.act ≠ .fillDone) ∧ spadRow (cc (coreSt (cFill 4094) {})) 0 0 + 2 = 4096 ∧
    ((cc (coreSt (cFill 4094) {})).rdX 1).toNat % 4096 + 2 ≤ 4096 ∧ (cc (coreSt (cFill 4094) {})).banks = [] :=
  ⟨canIssue _ _ rfl rfl (by decide), by decide, by decide, by decide, by decide, rfl⟩
theorem witness_FillAndCopy_span : CanIssue (coreSt (cFill 4095) {}) 0 0 0 job ∧ spadRow (cc (coreSt (cFill 4095) {})) 0 0 < 4096 ∧
    4096 < spadRow (cc (coreSt (cFill 4095) {})) 0 0 + 2 ∧ 4096 ≤ spadRow (cc (coreSt (cFill 4095) {})) 0 1 :=
  ⟨canIssue _ _ rfl rfl (by decide), by decide, by decide, by decide⟩
def cFilling : Core := { flight := [{ left := 4, act := .fillDone }] }
theorem witness_FillAndCopy_held : CanIssue (coreSt cFilling {}) 0 0 0 job ∧
    ¬ (∀ f ∈ (cc (coreSt cFilling {})).flight, f.act ≠ .fillDone) :=
  ⟨canIssue _ _ rfl rfl (by decide), fun h => h { left := 3, act := .fillDone } (by decide) rfl⟩

/-- COPY onto the last two rows and one too many; a bank that an earlier write takes in the stages of FILL, and of COPY's first write. -/
def cDst (x : Word) (bs : List BankUse) : Core := { a := [(0, 7)], x := [(1, x)], banks := bs.map (fun b => { b with left := b.left + 1 }) }
def useC : BankUse := { left := 9, bank := 6, read := false }
theorem witness_FillAndCopy_target : CanIssue (coreSt (cDst 4095 []) {}) 0 0 0 job ∧ spadRow (cc (coreSt (cDst 4095 []) {})) 0 0 + 2 ≤ 4096 ∧
    4096 < ((cc (coreSt (cDst 4095 []) {})).rdX 1).toNat % 4096 + 2 ∧ ((cc (coreSt (cDst 4094 []) {})).rdX 1).toNat % 4096 + 2 = 4096 :=
  ⟨canIssue _ _ rfl rfl (by decide), by decide, by decide, by decide⟩
theorem witness_FillAndCopy_clash : CanIssue (coreSt (cDst 4094 [useW, useC]) {}) 0 0 0 job ∧
    (∀ f ∈ (cc (coreSt (cDst 4094 [useW, useC]) {})).flight, f.act ≠ .fillDone) ∧
    spadRow (cc (coreSt (cDst 4094 [useW, useC]) {})) 0 0 = 7 ∧ ((cc (coreSt (cDst 4094 [useW, useC]) {})).rdX 1).toNat % 4096 = 4094 ∧
    ¬ banksFree (cc (coreSt (cDst 4094 [useW, useC]) {})) [{ left := 3 + 0, bank := (7 + 0) % 8, read := false }] ∧
    ¬ banksFree (cc (coreSt (cDst 4094 [useW, useC]) {}))
      [{ left := 3 + 0, bank := (7 + 0) % 8, read := true }, { left := 9 + 0, bank := (4094 + 0) % 8, read := false }] :=
  ⟨canIssue _ _ rfl rfl (by decide), by decide, by decide, by decide, fun h => h useW (by decide) (by decide),
    fun h => h useC (by decide) (by decide)⟩

/-- SEMSIG to core 5 of logical bay 0, and to logical bay 1 of a job of one bay; SEMWAIT at its count and one above. -/
def cSem (x : Word) : Core := { x := [(1, x)], sem := [(3, 2)] }
theorem witness_SemaphoresAndLandings : CanIssue (coreSt (cSem 5) {}) 0 0 0 job ∧ ((cc (coreSt (cSem 5) {})).rdX 1).toNat / 16 % 16 < job.bays ∧
    job.lays[0]? = some 0 ∧ (2 : BitVec 12).toNat ≤ tget 0 (cc (coreSt (cSem 5) {})).sem 3 ∧
    tget 0 (cc (coreSt (cSem 5) {})).sem 3 < (3 : BitVec 12).toNat :=
  ⟨canIssue _ _ rfl rfl (by decide), by decide, rfl, by decide, by decide⟩
theorem witness_SemaphoresAndLandings_outside : CanIssue (coreSt (cSem 16) {}) 0 0 0 job ∧
    job.bays ≤ ((cc (coreSt (cSem 16) {})).rdX 1).toNat / 16 % 16 := ⟨canIssue _ _ rfl rfl (by decide), by decide⟩
def sFly : State := { s0 with semFly := [{ src := 0, dst := 5, ctr := 3, cnt := 1 }], hqFly := [{ src := 0, bay := 1, queue := 2, handle := 7 }] }
theorem witness_Landings : sFly.semFly.find? (fun f => f.src = (0 : CoreId).val) = some { src := 0, dst := 5, ctr := 3, cnt := 1 } ∧
    sFly.hqFly.find? (fun f => f.src = (0 : CoreId).val) = some { src := 0, bay := 1, queue := 2, handle := 7 } ∧
    sFly.semFly.find? (fun f => f.src = (1 : CoreId).val) = none ∧ sFly.hqFly.find? (fun f => f.src = (1 : CoreId).val) = none := by decide

/-- A push to the own bay with 31 handles and with 32; to another bay by a binding; a pop with and without a handle. -/
def handles (m : Nat) : Bay := { hq := [(2, List.replicate m 7)] }
theorem witness_HandleQueuesAndClaims : CanIssue (coreSt {} (handles 31)) 0 0 0 job ∧
    ((coreSt {} (handles 31)).tickCore 0).hqDest 0 2 job = some (0, 2) ∧ ((coreSt {} (handles 31)).tickCore 0).hqLoad 0 2 = 31 ∧
    ((coreSt {} (handles 32)).tickCore 0).hqDest 0 2 job = some (0, 2) ∧ ((coreSt {} (handles 32)).tickCore 0).hqLoad 0 2 = 32 ∧
    tget [] (((coreSt {} (handles 1)).tickCore 0).bay 0).hq 2 = [7] ∧ tget [] (((coreSt {} (handles 1)).tickCore 0).bay 0).hq 3 = [] :=
  ⟨canIssue _ _ rfl rfl (by decide), by decide, by decide, by decide, by decide, by decide, by decide⟩
def img2 : TenImage := { img with stages := [.bind 2 0 1 4] }
def job2 : Job := { job with bays := 2, lays := [0, 1] }
def sBind : State := { s0 with rings := [(0, { en := true, job := some job2 })], pdks := [(0, { st := .running, img := some img2 })] }
theorem witness_HandleQueuesAndClaims_bound : CanIssue sBind 0 0 0 job2 ∧ (sBind.tickCore 0).hqDest 0 2 job2 = some (1, 4) ∧
    (1 : Nat) ≠ (0 : CoreId).val / 16 ∧ (sBind.tickCore 0).hqLoad 1 4 < 32 :=
  ⟨⟨rfl, ⟨rfl, rfl⟩, ⟨rfl, rfl⟩, rfl, by decide⟩, by decide, by decide, by decide⟩
theorem witness_Claims : CanIssue s0 0 0 0 job ∧ (s0.core 0).claimVal = none := ⟨s0_issues, rfl⟩

/-- Bundles that wait: a claim answered, one not yet answered; a core that has issued END; a bay that is being stopped. -/
def sHeld (wait : Nat) : State := s0.modCore 0 (fun c => { c with
  queue := [[.claimTake 1 2 3]], claimVal := some 4, claimWait := wait })
theorem witness_BubbleBeats : (sHeld 0).liveJob 0 = some (0, 0, job) ∧ (sHeld 0).paced 0 0 = true ∧ ((sHeld 0).core 0).pc < (sHeld 0).progLen 0 ∧
    ((sHeld 0).bay 0).stopping = none ∧ ((sHeld 0).core 0).ending = false ∧ ((sHeld 0).core 0).xfer = none ∧
    ((sHeld 0).core 0).queue = [[.claimTake 1 2 3]] ∧ ((sHeld 0).core 0).claimVal = some 4 ∧ ((sHeld 0).core 0).claimWait = 0 ∧
    ((sHeld 1).core 0).claimWait ≠ 0 := ⟨rfl, rfl, by decide, rfl, rfl, rfl, rfl, rfl, rfl, by decide⟩
theorem witness_BubbleBeats_idle : s0.liveJob 0 = some (0, 0, job) ∧ (s0.core 0).queue = [] := ⟨rfl, rfl⟩
theorem witness_BubbleBeats_ending : (coreSt { cBusy with ending := true } {}).liveJob 0 = some (0, 0, job) ∧
    ((coreSt { cBusy with ending := true } {}).core 0).ending = true ∧ ((coreSt { cBusy with ending := true } {}).core 0).ended = false ∧
    (cc (coreSt { cBusy with ending := true } {})).flight ≠ [] := ⟨rfl, rfl, rfl, by decide⟩
theorem witness_BubbleBeats_stopping : (coreSt {} { stopping := some .preempt }).liveJob 0 = some (0, 0, job) ∧
    ((coreSt {} { stopping := some .preempt }).bay 0).stopping ≠ none := ⟨rfl, by decide⟩

/-- Hoop 1 of two rows: empty, of one row and full, a drop of as many rows as it has and of one more; a disabled one; configurations at the
last row, one row beyond, and starting beyond. -/
def cHoop (a o : Nat) : Core := { hoops := [(1, { base := 8, size := 2, a := a, o := o })], a := [(0, 4095), (1, 4096)] }
def hoopOf (a o : Nat) : Hoop := tget {} (cc (coreSt (cHoop a o) {})).hoops 1
theorem witness_HoopOperations : CanIssue (coreSt (cHoop 1 1) {}) 0 0 0 job ∧ (hoopOf 1 1).size ≠ 0 ∧ (hoopOf 1 1).o ≠ (hoopOf 1 1).size ∧
    (hoopOf 1 1).a ≠ 0 ∧ (0 : Nat) < (hoopOf 1 1).a ∧ (1 : BitVec 12).toNat ≤ (hoopOf 1 1).a ∧ (cc (coreSt (cHoop 1 1) {})).banks = [] :=
  ⟨canIssue _ _ rfl rfl (by decide), by decide, by decide, by decide, by decide, by decide, rfl⟩
theorem witness_HoopOperations_held : CanIssue (coreSt (cHoop 0 2) {}) 0 0 0 job ∧ (hoopOf 0 2).o = (hoopOf 0 2).size ∧ (hoopOf 0 2).a = 0 ∧
    (1 : BitVec 12).toNat < (hoopOf 0 2).size ∧ (hoopOf 0 2).size ≤ (2 : BitVec 12).toNat ∧ (hoopOf 0 2).a < (2 : BitVec 12).toNat ∧
    (hoopOf 0 2).size < (3 : BitVec 12).toNat :=
  ⟨canIssue _ _ rfl rfl (by decide), by decide, by decide, by decide, by decide, by decide, by decide⟩
theorem witness_HoopOperations_disabled : CanIssue s0 0 0 0 job ∧ (tget {} (cc s0).hoops 1).size = 0 := ⟨s0_issues, rfl⟩
theorem witness_HoopOperations_config : CanIssue (coreSt (cHoop 0 0) {}) 0 0 0 job ∧ ((cc (coreSt (cHoop 0 0) {})).rdA 0).toNat = 4095 ∧
    4095 + (1 : BitVec 12).toNat ≤ 4096 ∧ 4096 < 4095 + (2 : BitVec 12).toNat ∧ 4096 ≤ ((cc (coreSt (cHoop 0 0) {})).rdA 1).toNat ∧
    (cc (coreSt (cHoop 0 0) {})).flight = [] := ⟨canIssue _ _ rfl rfl (by decide), by decide, by decide, by decide, by decide, rfl⟩
theorem witness_HoopOperations_moving : CanIssue (coreSt { flight := [{ left := 3, act := .hoopA 1 }] } {}) 0 0 0 job ∧
    (∃ f ∈ (cc (coreSt { flight := [{ left := 3, act := .hoopA 1 }] } {})).flight, f.act = .hoopA 1 ∨ ∃ q, f.act = .hoopO 1 q) :=
  ⟨canIssue _ _ rfl rfl (by decide), ⟨{ left := 2, act := .hoopA 1 }, by decide, .inl rfl⟩⟩

/-- A threshold just reached and just missed; a macro in flight. -/
def cArr (want : Word) : Core := { x := [(1, want)], arr := [(2, 5)], mac := some ⟨0, .yard 0⟩ }
theorem witness_ArrivalsAndMacroResults : CanIssue (coreSt (cArr 5) {}) 0 0 0 job ∧
    ((cc (coreSt (cArr 5) {})).rdX 1).toNat % 2 ^ 32 ≤ tget 0 (cc (coreSt (cArr 5) {})).arr 2 ∧
    tget 0 (cc (coreSt (cArr 6) {})).arr 2 < ((cc (coreSt (cArr 6) {})).rdX 1).toNat % 2 ^ 32 ∧
    (cc (coreSt (cArr 5) {})).mac ≠ none ∧ (cc s0).mac = none :=
  ⟨canIssue _ _ rfl rfl (by decide), by decide, by decide, by decide, rfl⟩

/-! ### Streams -/

/-- A Pricking that loads 64 bytes from its base into a half of one row. -/
def prick : Prick := { dir := 0, deadline := false, arrival := 0, bufRow := 0, halfRows := 1, group := 0, target := 0, insns := [.xfer 64, .tile] }
/-- Paddock 1 with one frame of its own, frame 5. -/
def imgP : TenImage := { img with pricks := [prick] }
def sPrick (a : Addr) (m : Strm) : State :=
  { coreSt { a := [(0, a)], strms := [(2, m)] } {} with
    own := [{ base := 5, count := 1, owner := 1 }]
    plat := some { quotas := [{ frameBase := 5, frameCount := 1, bays := 1 }] }
    pdks := [(0, { st := .running, img := some imgP })] }
theorem sPrick_issues (a : Addr) (m : Strm) : CanIssue (sPrick a m) 0 0 0 job := ⟨rfl, ⟨rfl, rfl⟩, ⟨rfl, rfl⟩, rfl, Nat.succ_pos _⟩
/-- A stream instruction on the last base where 64 bytes fit, one aligned base further, and a base that is not aligned. -/
theorem witness_StreamInstructions : CanIssue (sPrick 0x1FFFC0 {}) 0 0 0 job ∧ ((sPrick 0x1FFFC0 {}).pdk 0).img = some imgP ∧
    imgP.pricks[(0 : BitVec 12).toNat]? = some prick ∧
    ((((sPrick 0x1FFFC0 {}).tickCore 0).core (((sPrick 0x1FFFC0 {}).tickCore 0).leadOf 0 2)).strm 2).settled = true ∧
    ((sPrick 0x1FFFC0 {}).tickCore 0).strmgoFault 0 2 0 (cc (sPrick 0x1FFFC0 {})) 0x1FFFC0 = none ∧
    ((sPrick 0x200000 {}).tickCore 0).strmgoFault 0 2 0 (cc (sPrick 0x200000 {})) 0x200000 = some 0x13 ∧
    ((sPrick 32 {}).tickCore 0).strmgoFault 0 2 0 (cc (sPrick 32 {})) 32 = some 0x11 ∧
    (tget {} (cc (sPrick 32 {})).strms 2).live = false :=
  ⟨sPrick_issues _ _, rfl, rfl, by decide, by decide, by decide, by decide, by decide⟩
/-- The last Pricking number of the instruction, and one above. -/
theorem witness_StreamInstructions_prick : (1023 : BitVec 12).toNat = 1023 ∧ 1023 < (1024 : BitVec 12).toNat := by decide
/-- A fragment of tile 0 at row 3, whose request is answered, and one whose request is not. -/
def frag : StrmRow := { tile := 0, row := 3, off := 0, addr := 0xA00000, len := 2, last := true, tags := 1, data := [7, 8], ret := true }
def fragN : StrmRow := { frag with ret := false, data := [] }
/-- A load stream of one tile of one row, whose row has not landed, and has; a store stream in mid-tile. -/
def ld (landed : Nat) : Strm :=
  { live := true, started := true, lead := true, halfRows := 1, tiles := [[(0xA00000, 2)]], landed := [(0, landed)], fly := [frag] }
def st1 : Strm := { live := true, started := true, lead := true, dir := 1, halfRows := 1, tiles := [[(0xA00000, 2)]], fly := [frag] }
theorem witness_StreamInstructions_waits : CanIssue (sPrick 0 (ld 0)) 0 0 0 job ∧ (tget {} (cc (sPrick 0 (ld 0))).strms 2).loads = true ∧
    (tget {} (cc (sPrick 0 (ld 0))).strms 2).waits = true ∧ (tget {} (cc (sPrick 0 (ld 1))).strms 2).waits = false ∧
    (tget {} (cc (sPrick 0 (ld 1))).strms 2).ended = false ∧ (tget {} (cc (sPrick 0 {})).strms 2).ended = true :=
  ⟨sPrick_issues _ _, by decide, by decide, by decide, by decide, by decide⟩
theorem witness_StreamInstructions_store : CanIssue (sPrick 0 st1) 0 0 0 job ∧ (tget {} (cc (sPrick 0 st1)).strms 2).settled = false ∧
    ((sPrick 0 st1).tickCore 0).strmgoFault 0 2 0 (cc (sPrick 0 st1)) 0 = none ∧
    (tget {} (cc (sPrick 0 st1)).strms 2).live = true ∧ (tget {} (cc (sPrick 0 st1)).strms 2).loads = false ∧
    (tget {} (cc (sPrick 0 st1)).strms 2).ended = false ∧ (tget {} (cc (sPrick 0 st1)).strms 2).waits = false :=
  ⟨sPrick_issues _ _, by decide, by decide, by decide, by decide, by decide, by decide⟩

theorem witness_StreamEngine : ((sPrick 0 (ld 0)).core 0).strm 2 = ld 0 ∧ (ld 0).fly = [frag] ∧ frag.ret = true ∧ (ld 0).loads = true ∧
    (ld 0).lead = true ∧ frag.tile ≤ (sPrick 0 (ld 0)).minCur 0 2 + 1 ∧ ((sPrick 0 (ld 0)).mates 0 2).Nodup ∧
    ((sPrick 0 { ld 0 with fly := [fragN] }).core 0).strm 2 = { ld 0 with fly := [fragN] } ∧ fragN.ret = false ∧
    ((sPrick 0 st1).core 0).strm 2 = st1 ∧ st1.fly = [frag] ∧ st1.live = true ∧ st1.dir = 1 := by decide
/-- A forward to core 5 of logical bay 0. -/
def st3 : Strm := { st1 with dir := 3, target := 5 }
theorem witness_StreamEngine_forward : ((sPrick 0 st3).core 0).strm 2 = st3 ∧ st3.fly = [frag] ∧ ((sPrick 0 st3).bay 0).job = some (0, 0) ∧
    ((sPrick 0 st3).ring 0 0).job = some job ∧ st3.target / 16 < job.bays ∧ job.lays[st3.target / 16]? = some 0 ∧
    16 * 0 + st3.target % 16 ≠ (0 : CoreId).val := by decide
/-- Requests ready to issue: the stream 2 of core 0 is the third in round-robin order, and the first that is ready; a load of one row, and a
store of two. -/
def ldT : Strm := { (ld 0) with fly := [], todo := [[fragN]] }
def stT : Strm := { st1 with fly := [], todo := [[fragN, { fragN with row := 4, addr := 0xA00200 }]] }
theorem order_split : (List.range 272).map (fun i => (0 + i) % 272) = [0, 1] ++ 2 :: (List.range' 3 269) := by decide +kernel
theorem calm_of (m : Strm) (h : m.send = []) : ∀ q, q / 16 = (0 : BayId).val →
    (∀ e ∈ ((sPrick 0 m).core q).strms, e.2.send = []) ∧ ((sPrick 0 m).core q).mac = none := by
  intro q _
  have hp : ∀ e ∈ (sPrick 0 m).cores, (∀ x ∈ e.2.strms, x.2.send = []) ∧ e.2.mac = none := by
    intro e he
    obtain rfl := List.mem_singleton.mp he
    exact ⟨fun x hx => by obtain rfl := List.mem_singleton.mp hx; exact h, rfl⟩
  exact tget_all (P := fun c : Core => (∀ x ∈ c.strms, x.2.send = []) ∧ c.mac = none) {} _ q ⟨fun x hx => by simp at hx, rfl⟩ hp
theorem witness_StreamEngine_issue : (sPrick 0 ldT).readyPiece 0 2 = some [fragN] ∧ (([fragN] : List StrmRow).map (·.tags)).sum ≤ ((sPrick 0 ldT).bay 0).tags ∧
    (sPrick 0 ldT).readyPiece 0 0 = none ∧ (sPrick 0 ldT).readyPiece 0 1 = none ∧ ((sPrick 0 ldT).bay 0).rr = 0 ∧ ldT.send = [] ∧
    ldT.loads = true ∧ (sPrick 0 ldT).quarTouch fragN.addr fragN.len = false ∧ ((sPrick 0 ldT).mc 4).fetches = [] := by decide
theorem witness_StreamEngine_merge : ∃ g ∈ (({ sPrick 0 ldT with mcs := [(4, { fetches := [⟨0xA00000, 2, [1], [0, 0], 0, false, 0⟩] })] } : State).mc
    (0xA00000 / 4096 % 6)).fetches, g.addr = 0xA00000 ∧ g.len = 2 ∧ g.closed = false := by decide
theorem witness_StreamEngine_store : (sPrick 0 stT).readyPiece 0 2 = some [fragN, { fragN with row := 4, addr := 0xA00200 }] ∧
    2 ≤ ((sPrick 0 stT).bay 0).tags ∧ (sPrick 0 stT).readyPiece 0 0 = none ∧ (sPrick 0 stT).readyPiece 0 1 = none ∧ stT.loads = false ∧
    stT.send = [] ∧ (sPrick 0 stT).quarTouch 0xA00000 2 = false ∧ (sPrick 0 stT).quarTouch 0xA00200 2 = false := by decide
theorem witness_StreamEngine_quarantined :
    ({ sPrick 0 ldT with ras := { stackSt := [(4, .quarantined)] } } : State).quarTouch frag.addr frag.len = true := by decide

/-! ### Macros -/

/-- `v` as `k` little-endian bytes at `off` of a descriptor. -/
def put (d : List Byte) (off k v : Nat) : List Byte := d.take off ++ leBytes k v ++ d.drop (off + k)
/-- A row of 512 zero bytes with fields put into it. -/
def row (fs : List (Nat × Nat × Nat)) : List Byte := fs.foldl (fun d f => put d f.1 f.2.1 f.2.2) (List.replicate 512 0)
/-- C = A × B of one by one by one BF16 elements into FP32, all in the scratchpad (08 R238, R239). -/
def matDesc : List Byte := row [(0, 1, 1), (4, 4, 1), (8, 4, 1), (12, 4, 1), (16, 2, 1), (18, 2, 128), (20, 2, 128), (22, 2, 0x8000),
  (0x41, 1, 1), (0x48, 8, 0x1000), (0x81, 1, 1), (0x88, 8, 0x2000), (0xC8, 8, 0x3000), (0xD0, 4, 64), (0x100, 1, 2), (0x140, 1, 2), (0x180, 1, 2)]
/-- An attention macro over one entry of one query row and no key (12 R340-R342). -/
def attDesc : List Byte := row [(0, 1, 1), (4, 2, 1), (6, 1, 1), (7, 1, 1), (0x10, 2, 1), (0x12, 2, 128), (0x16, 2, 64), (0x1C, 2, 64),
  (0x20, 1, 1), (0x21, 1, 1), (0x2A, 2, 1), (0x2C, 2, 16), (0x2E, 2, 256), (0x41, 1, 1), (0x48, 8, 0x4000), (0x81, 1, 1), (0x88, 8, 0x6000),
  (0xC0, 1, 2), (0x100, 1, 2), (0x140, 1, 2)]
def isGo : State.MacroStart → Nat
  | .fault e => 100 + e
  | .zero _ => 1
  | .go (.matrix _) => 2
  | .go (.attention _) => 3
  | .go (.yard id) => 1000 + id
theorem go_matrix (m : State.MacroStart) (h : isGo m = 2) : ∃ f, m = .go (.matrix f) := by
  unfold isGo at h
  split at h <;> first | exact ⟨_, rfl⟩ | omega
theorem go_attention (m : State.MacroStart) (h : isGo m = 3) : ∃ f, m = .go (.attention f) := by
  unfold isGo at h
  split at h <;> first | exact ⟨_, rfl⟩ | omega
/-- Descriptor `d` in row 0, a batch table of one entry in row 1, a live sequence with handle 7. -/
def sMac (d : List Byte) : State :=
  { coreSt { spad := [(0, rowOf d), (1, rowOf (row [(0, 4, 7), (16, 2, 1)]))] } {} with
    plat := some { quotas := [{ bays := 1, frameBase := 5, frameCount := 1 }], stride := 2 }
    yard := { seqs := [(7, { pdk := 0, maxlen := 64, length := 32, ns := 0, tpages := [], created := 0 })] } }
theorem sMac_issues (d : List Byte) : CanIssue (sMac d) 0 0 0 job := ⟨rfl, ⟨rfl, rfl⟩, ⟨rfl, rfl⟩, rfl, Nat.succ_pos _⟩
/-- A matrix macro that passes, one of no work, and one whose base is not aligned. -/
theorem witness_TensorMacros_matrix : CanIssue (sMac matDesc) 0 0 0 job ∧ ((sMac matDesc).pdk 0).img = some img ∧ (cc (sMac matDesc)).mac = none ∧
    spadRow (cc (sMac matDesc)) 0 0 < 4096 ∧ rowBytes ((cc (sMac matDesc)).rowAt (spadRow (cc (sMac matDesc)) 0 0)) = matDesc ∧
    (∃ f, ((sMac matDesc).tickCore 0).matStart 0 0 img matDesc 0 = .go (.matrix f)) :=
  ⟨sMac_issues _, rfl, rfl, by decide, by decide +kernel, go_matrix _ (by decide +kernel)⟩
theorem witness_TensorMacros_ends : isGo (((sMac matDesc).tickCore 0).matStart 0 0 img (put matDesc 4 4 0) 0) = 1 ∧
    isGo (((sMac matDesc).tickCore 0).matStart 0 0 img (put matDesc 0x48 8 0x1001) 0) = 100 + 0x11 := by decide +kernel
theorem witness_TensorMacros_attention : CanIssue (sMac attDesc) 0 0 0 job ∧
    (∃ f, ((sMac attDesc).tickCore 0).attStart 0 0 img attDesc 1 = .go (.attention f)) ∧
    isGo (((sMac attDesc).tickCore 0).attStart 0 0 img attDesc 0) = 1 ∧ isGo (((sMac attDesc).tickCore 0).attStart 0 0 img attDesc 2) = 100 + 0x10 :=
  ⟨sMac_issues _, go_attention _ (by decide +kernel), by decide +kernel, by decide +kernel⟩
/-- Keys 0 to 31 of a sequence of 32 positions, and one more. -/
def sKeys (klen : Nat) : State :=
  { sMac attDesc with cores := (coreSt { spad := [(0, rowOf attDesc), (1, rowOf (row [(0, 4, 7), (8, 4, klen), (16, 2, 1)]))] } {}).cores }
theorem witness_TensorMacros_keys : CanIssue (sKeys 33) 0 0 0 job ∧
    isGo (((sKeys 33).tickCore 0).attStart 0 0 img attDesc 1) = 100 + 0x21 ∧ isGo (((sKeys 32).tickCore 0).attStart 0 0 img attDesc 1) = 3 :=
  ⟨⟨rfl, ⟨rfl, rfl⟩, ⟨rfl, rfl⟩, rfl, Nat.succ_pos _⟩, by decide +kernel, by decide +kernel⟩
/-- The last row that a descriptor may lie in, and one past it. -/
theorem witness_TensorMacros_range : CanIssue (coreSt (cAddr 4095 []) {}) 0 0 0 job ∧ spadRow (cc (coreSt (cAddr 4095 []) {})) 0 0 < 4096 ∧
    4096 ≤ spadRow (cc (coreSt (cAddr 4095 []) {})) 0 1 ∧ (cc (coreSt (cArr 5) {})).mac ≠ none :=
  ⟨canIssue _ _ rfl rfl (by decide), by decide, by decide, by decide⟩

/-- A matrix macro in flight: 2 × 1 tiles of one step each; `pos` steps are computed, the tiles of `full` not yet drained. -/
def mf (pos : Nat) (full : List FullTile) : MatFly :=
  { a := {}, b := {}, c := {}, d := { loc := 2 }, v0 := {}, v1 := {}, me := 2, ne := 128, ke := 1, tm := 1, tn := 128, tk := 128, fm := 2, order := 0
    chain := none, claim := none, pos := pos, full := full, drained := pos, bucket := 3, tileSrc := false, db := false, pdk := 0 }
def tile (m : Nat) : FullTile := { mt := m, nt := 0, half := 0, step := m }
def sTile (f : MatFly) : State := coreSt { mac := some ⟨4, .matrix f⟩ } {}
/-- The first tile computed and to be drained; every tile drained; by claim, with the counter used up; a step not yet computed. -/
theorem witness_TilesSplitsAndResults : (sTile (mf 1 [tile 0])).liveJob 0 = some (0, 0, job) ∧
    ((sTile (mf 1 [tile 0])).core 0).mac = some ⟨4, .matrix (mf 1 [tile 0])⟩ ∧ (if (mf 1 [tile 0]).db then 2 else 1) ≤ (mf 1 [tile 0]).full.length ∧
    (mf 1 [tile 0]).full = tile 0 :: [] ∧ (mf 1 [tile 0]).chain = none ∧ (sTile (mf 1 [tile 0])).tileBad (mf 1 [tile 0]) (tile 0) = none ∧
    stepAt (mf 2 []) (mf 2 []).pos = none ∧ (mf 2 []).full = [] ∧ tileCount (mf 2 []) * kTiles (mf 2 []) ≤ (mf 2 []).pos ∧
    ((sTile (mf 2 [])).core 0).ending = false ∧ ({ mf 0 [] with claim := some 5, stopped := true } : MatFly).taken = [] ∧
    (mf 1 [tile 0]).full ≠ [] := by decide
/-- C in a quarantined stack; a chain that rounds stochastically without a DRBG; one with a special function. -/
def mfBad : MatFly := { mf 1 [tile 0] with c := { loc := 1, stride := 64, fmt := 1 } }
def sBadTile : State := { sTile mfBad with ras := { stackSt := [(0, .quarantined)] } }
def mfSr (sr : Bool) : MatFly := { mf 1 [tile 0] with chain := some { outFmt := 0, sr := sr, steps := [{ kind := 8, sel := 0, imm := 0 }] } }
theorem witness_TilesSplitsAndResults_bad : sBadTile.liveJob 0 = some (0, 0, job) ∧ sBadTile.tileBad mfBad (tile 0) = some 0x70 ∧
    (sTile mfBad).tileBad mfBad (tile 0) = none ∧ mfBad.c.loc = 1 ∧
    (mfSr true).chain.elim false (·.sr) = true ∧ (sTile (mfSr true)).drbgReady = false ∧
    (mfSr false).chain.elim false (·.sr) = false ∧ (sTile (mfSr false)).tileBad (mfSr false) (tile 0) = none := by decide

/-- A sequencer's piece ready to issue, with nothing more to ask for; a row that has come for a step whose tile waits for a drain. -/
def mfSeq (todo : List (List StrmRow)) (fly : List StrmRow) : MatFly :=
  { mf 0 [tile 0] with seq := { asked := 3, todo := todo, fly := fly } }
def sSeq (todo : List (List StrmRow)) (fly : List StrmRow) : State := sTile (mfSeq todo fly)
theorem seq_calm (todo : List (List StrmRow)) (fly : List StrmRow) : ∀ q, q / 16 = (0 : BayId).val →
    (∀ e ∈ ((sSeq todo fly).core q).strms, e.2.send = []) ∧ (q ≠ (0 : CoreId).val → ((sSeq todo fly).core q).mac = none) := by
  intro q _
  refine ⟨tget_all (P := fun c : Core => ∀ e ∈ c.strms, e.2.send = []) {} _ q (fun e he => by simp at he) (fun e he => ?_), fun h => ?_⟩
  · obtain rfl := List.mem_singleton.mp he
    exact fun x hx => by simp at hx
  · have h0 : ¬(q = 0) := h
    show (tget {} (sSeq todo fly).cores q).mac = none
    simp [sSeq, sTile, coreSt, tget, h0]
theorem seq_order : (List.range 272).map (fun i => (0 + i) % 272) = List.range 16 ++ (17 * ((0 : CoreId).val % 16) + 16) :: (List.range' 17 255) := by
  decide +kernel
theorem witness_TileSequencerStreamAndRunway : ((sSeq [[fragN]] []).core 0).mac = some ⟨4, .matrix (mfSeq [[fragN]] [])⟩ ∧
    (mfSeq [[fragN]] []).pos + 2 < (mfSeq [[fragN]] []).seq.asked ∧ (sSeq [[fragN]] []).readySeq 0 = some [fragN] ∧
    (([fragN] : List StrmRow).map (·.tags)).sum ≤ ((sSeq [[fragN]] []).bay 0).tags ∧ ((sSeq [[fragN]] []).bay 0).rr = 0 ∧
    (∀ x ∈ List.range 16, (sSeq [[fragN]] []).readyPiece (x / 17) (x % 17) = none) ∧ (sSeq [[fragN]] []).quarTouch fragN.addr fragN.len = false ∧
    ((sSeq [[fragN]] []).mc 4).fetches = [] ∧
    ({ sSeq [[fragN]] [] with ras := { stackSt := [(4, .quarantined)] } } : State).quarTouch fragN.addr fragN.len = true ∧
    (mfSeq [] [frag]).seq.fly = frag :: [] ∧ frag.ret = true ∧ frag.tile ≤ (mfSeq [] [frag]).pos + 1 ∧
    (if (mfSeq [] [frag]).db then 2 else 1) ≤ (mfSeq [] [frag]).full.length := by decide +kernel
/-- A load that released 64 bytes at the last tick that counts, and one tick before it; one whose core is held on it. -/
def ldR (at_ : Nat) : Strm := { (ld 0) with rel := [(at_, 64)] }
def sRel (c : Core) : State := { sPrick 0 {} with cores := [(0, c)], dev := { tsc := 16384 } }
theorem witness_TileSequencerStreamAndRunway_runway :
    ((sRel { strms := [(2, ldR 0)] }).core 0).strm 2 = ldR 0 ∧ (ldR 0).rel.filter (fun e => (16384 : Nat) < e.1 + 16384) = [] ∧
    (ldR 1).rel.filter (fun e => (16384 : Nat) < e.1 + 16384) = [(1, 64)] ∧ (sRel { strms := [(2, ldR 1)] }).mates 0 2 = [0] ∧
    (sRel { strms := [(2, ldR 1)] }).heldOn 0 2 = false ∧
    (sRel { strms := [(2, ldR 1)], cause := some 0, queue := [[.strmswap 2]] }).heldOn 0 2 = true := by decide

def sp : Split := { key := 64, entry := 0, group := 0, tile := 0, index := 1, total := 3, rows := [], failed := 0 }
def fold (fly : Option Split) (next : Nat) : Fold := { owner := 0, next := next, part := { sp with index := 0 }, fly := fly }
def af (due : Option Split) : AttFly :=
  { h := attHead [], q := {}, o := {}, lse := {}, ents := [], kv := [], pdk := 0, next := 0, item := none, stopped := false, done := 0,
    masked := 0, fail := 0, awaits := [], due := due }
def sSplit (due : Option Split) (fs : List Fold) : State := coreSt { mac := some ⟨4, .attention (af due)⟩ } { folds := fs }
theorem witness_Splits : ((sSplit (some sp) [fold none 1]).core 0).mac = some ⟨4, .attention (af (some sp))⟩ ∧
    ((sSplit (some sp) [fold none 1]).bay 0).folds = [fold none 1] ∧ (fold none 1).part.key = sp.key ∧ (fold none 1).next = sp.index ∧
    (fold none 1).fly = none ∧ (af none).due = none ∧ ((sSplit none [fold (some sp) 1]).bay 0).folds = [fold (some sp) 1] ∧
    (fold (some sp) 1).next + 1 < (fold (some sp) 1).part.total ∧ (fold (some sp) 2).part.total ≤ (fold (some sp) 2).next + 1 ∧
    (∀ x ∈ ((sSplit none [fold none 1]).bay 0).folds, x.fly = none) := by decide

/-! ### The Yard -/

/-- TRIM of sequence 7 to 16 tokens; a handle that names none; APPEND of no token. -/
def trimDesc : List Byte := row [(0, 1, 4), (4, 4, 7), (8, 4, 16)]
def yop (op : YardOp) : YOp := { pdk := 0, bay := 0, op := op, seq := 7, a0 := 0, a1 := 0, row := 0, n := 0, data := [] }
def sFull : State := { sMac trimDesc with yard := { (sMac trimDesc).yard with ops := (List.range 4).map (fun i => (i, yop .query)), nextOp := 4 } }
theorem witness_YardMacros : CanIssue (sMac trimDesc) 0 0 0 job ∧ (cc (sMac trimDesc)).mac = none ∧
    rowBytes ((cc (sMac trimDesc)).rowAt (spadRow (cc (sMac trimDesc)) 0 0)) = trimDesc ∧ (sMac trimDesc).intake 0 < 4 ∧
    isGo (((sMac trimDesc).tickCore 0).yardChecks 0 .trim trimDesc 0) = 1000 ∧
    isGo (((sMac trimDesc).tickCore 0).yardChecks 0 .trim (put trimDesc 4 4 8) 0) = 100 + 0x13 ∧
    isGo (((sMac trimDesc).tickCore 0).yardChecks 0 .append (put trimDesc 0 1 3) 0) = 1 :=
  ⟨sMac_issues _, rfl, by decide +kernel, by decide, by decide +kernel, by decide +kernel, by decide +kernel⟩
theorem witness_YardMacros_full : CanIssue sFull 0 0 0 job ∧ 4 ≤ sFull.intake 0 :=
  ⟨⟨rfl, ⟨rfl, rfl⟩, ⟨rfl, rfl⟩, rfl, Nat.succ_pos _⟩, by decide⟩

/-- One operation in the Yard, on a sequence of 32 tokens of at most 64. -/
def sq : Seq := { pdk := 0, maxlen := 64, length := 32, ns := 0, tpages := [], created := 0 }
def sOp (o : YOp) : State := { sMac trimDesc with yard := { (sMac trimDesc).yard with ops := [(0, o)], nextOp := 1 } }
theorem witness_YardOperationEffectsAndResult : (sOp (yop .query)).yard.ops = [(0, yop .query)] ∧ (yop .query).st = .queued ∧
    (sOp (yop .query)).seqAt 0 7 = some sq ∧ sq.maxlen < sq.length + 33 ∧ sq.length < 33 ∧ sq.length ≠ 0 ∧ ceilDiv sq.maxlen 16 < 0 + 5 ∧
    0 + 4 ≤ ceilDiv sq.maxlen 16 ∧ 0 + 32 ≤ sq.length ∧ (sOp (yop .query)).inLoft 7 1 = false ∧ (sOp (yop .query)).macNames 0 7 = false := by
  decide
def sYard (o : YOp) : State := { coreSt { mac := some ⟨4, .yard 0⟩ } {} with yard := { ops := [(0, o)] } }
theorem witness_YardResults : (sYard (yop .query)).liveJob 0 = some (0, 0, job) ∧ ((sYard (yop .query)).core 0).mac = some ⟨4, .yard 0⟩ ∧
    tfind (sYard (yop .query)).yard.ops 0 = some (yop .query) ∧ (yop .query).st ≠ .done ∧
    tfind (sYard { yop .query with st := .done, status := 0x22 }).yard.ops 0 = some { yop .query with st := .done, status := 0x22 } ∧
    0x22 ∈ [0x00, 0x01, 0x20, 0x21, 0x22] ∧ 0x13 ∉ [0x00, 0x01, 0x20, 0x21, 0x22] := by decide

def sYr : State := { s0 with
  plat := some { quotas := [{ bays := 1, loftGrants := 2, loftMib := 4 }], stride := 256 }
  yard := { frames := [(3, { pdk := 0, use := .zeroing, lastUse := 0 })], slots := [(2, 64)] } }
def nd : Node := { pdk := 0, version := 0, ns := 0, parent := none, page := 0, ids := [], frame := 0, created := 0 }
theorem witness_YardRegistersAndFrames : Heeds sYr 1 none ∧ tfind sYr.yard.frames 3 = some { pdk := 0, use := .zeroing, lastUse := 0 } ∧
    tfind sYr.yard.slots 2 = some 64 ∧ (64 : Nat) ≤ 64 ∧ sYr.nodesUsed 0 = 0 ∧ ({ sYr with yard := { nodes := [(0, nd)] } } : State).nodesUsed 0 ≠ 0 ∧
    (sYr.loftPages 0).any (fun u => u.1 = 1) = false ∧ (sYr.grant 0 1).en = false ∧ (4096 : Word).toNat ≠ (sYr.grant 0 1).base ∧
    bitAt (0x80000004 : Word).toNat 31 = true ∧ (sYr.grant 0 1).base % 4096 = 0 ∧ bits (0x80000004 : Word).toNat 20 0 = 4 ∧
    1 < (sYr.quota 0).loftGrants ∧
    (((List.range 16).filter (fun q => q ≠ 1 && (sYr.grant 0 q).en)).map (fun q => (sYr.grant 0 q).mib)).sum + 4 ≤ (sYr.quota 0).loftMib := by
  decide
/-- A grant that holds a page, and one that is enabled and holds none. -/
def sGr : State := { sYr with
  pdks := [(0, { st := .running, img := some img, loft := [(1, { mib := 1, en := true })] })]
  yard := { seqs := [(7, sq)], ptes := [(7 * 2 ^ 20, { st := .loft, grant := 0, loc := 2 })] } }
theorem witness_YardRegistersAndFrames_loft : Heeds sGr 1 none ∧ (sGr.loftPages 0).any (fun u => u.1 = 0) = true ∧
    (sGr.loftPages 0).any (fun u => u.1 = 1) = false ∧ (sGr.grant 0 1).en = true := by decide
def lf : LoftFetch := { pdk := 0, seq := 7, page := 0, frame := none, op := none, core := 0, dead := true, ep := 0 }
def sLf : State := { hif := { reads := [(5, .loft)] }, yard := { fetches := [(5, lf)] } }
def df : Deferred := { pdk := 0, seq := 7, ptes := [], release := none }
theorem witness_YardRegistersAndFrames_events : tfind sLf.hif.reads 5 = some .loft ∧ tfind sLf.yard.fetches 5 = some lf ∧ lf.dead = true ∧
    sLf.yard.ops = [] ∧ sLf.cores = [] ∧ tfind sLf.hif.reads 6 ≠ some .loft ∧
    ({ s0 with yard := { deferred := [df] } } : State).macNames df.pdk df.seq = false ∧ s0.yard.deferred = [] := by decide

/-! ### Jobs, bundles, health -/

theorem noTraffic (s : State) (h : s.cores.all (fun e => e.2.strms = [] && e.2.mac.isNone) = true) : NoTraffic s := by
  intro n
  refine tget_all (P := fun c : Core => c.strms = [] ∧ c.mac = none) {} s.cores n ⟨rfl, rfl⟩ (fun e he => ?_)
  simpa using List.all_eq_true.mp h e he
def sStop : State := coreSt {} { stopping := some .preempt }
def jobF : Job := { job with endWith := some 0x13 }
def sEnd : State := { s0 with rings := [(0, { en := true, job := some jobF })] }
/-- Every core of the bay has ended. -/
def sAll : State := { s0 with cores := (List.range 16).map (fun n => (n, { ended := true })) }
def sRand (running : Bool) : State := { coreSt {} {} with sec := { rng := { running := running } } }.modCore 0 (fun c => { c with queue := [[.rand 1]] })
theorem witness_CoresStopFirstFaultAndJobsEnd : (sStop.bay 0).stopping = some .preempt ∧ (sStop.bay 0).stopped = false ∧ (s0.bay 0).stopping = none ∧
    (sEnd.ring 0 0).job = some jobF ∧ jobF.ph = .running ∧ jobF.endWith = some 0x13 ∧ (sEnd.bay 0).job = some (0, 0) ∧
    (sEnd.ring 0 0).mute = false ∧ (State.reset.ring 0 0).job = none ∧ (sRand false).liveJob 0 = some (0, 0, job) ∧
    ((sRand false).core 0).queue = [[.rand 1]] ∧ (sRand false).sec.rng.running = false ∧ (sRand true).sec.rng.running = true ∧
    ((s0.bay (0 / 16)).job = some (0, 0)) ∧ (s0.ring 0 0).job = some job ∧ job.endWith = none ∧
    (s0.core 3).ended = false ∧ (∀ c, c < 16 → (s0.bay c).stopping ≠ some .quarantine) := by decide
theorem witness_CoresStopFirstFaultAndJobsEnd_traffic : NoTraffic sStop ∧ NoTraffic sEnd ∧ NoTraffic sAll :=
  ⟨noTraffic _ rfl, noTraffic _ rfl, noTraffic _ rfl⟩
theorem witness_CoresStopFirstFaultAndJobsEnd_ended : (sAll.ring 0 0).job = some job ∧ (sAll.ring 0 0).mute = false ∧
    job.bays = ((List.range 16).filter (fun c => (sAll.bay c).job = some (0, 0))).length ∧
    (∀ c, c < 16 → (sAll.bay c).job = some (0, 0) → ∀ m ∈ coresOf c, (sAll.core m).ended = true) := by decide +kernel
theorem witness_CoresStopFirstFaultAndJobsEnd_yard : ((sYard (yop .query)).bay 0).job = some (0, 0) ∧ 0 ∈ coresOf 0 ∧
    ((sYard (yop .query)).core 0).mac = some ⟨4, .yard 0⟩ ∧ ((sYard (yop .query)).core 0).ended = false ∧
    (∀ q, ((sYard (yop .query)).core q).strms = []) :=
  ⟨rfl, by decide, rfl, rfl, fun q => tget_all (P := fun c : Core => c.strms = []) {} _ q rfl
    (fun e he => by obtain rfl := List.mem_singleton.mp he; rfl)⟩
/-- A job that waits; one that ended with core 5's fault at this tick, which a fault of core 0 in the same tick replaces, and at an earlier one. -/
def jobT (ts : Nat) : Job := { jobF with detail := 5, faultTs := ts }
theorem witness_CoresStopFirstFaultAndJobsEnd_waiting :
    (({ s0 with rings := [(0, { job := some { job with ph := .saved } })] } : State).ring 0 0).job = some { job with ph := .saved } ∧
    (jobT 0).faultTs = s0.dev.tsc.toNat ∧ 0 < (jobT 0).detail % 256 ∧ ¬((jobT 1).faultTs = s0.dev.tsc.toNat ∧ 0 < (jobT 1).detail % 256) ∧
    (jobT 1).endWith = some 0x13 := by decide
theorem witness_ResultsAfterTheirLatency : ({} : Core).flight = [] ∧ ({} : Core).banks = [] ∧ 0 < (1 : Nat) := by decide
theorem witness_SlotsIssueTogether : CanIssue (coreSt (cAddr 4095 []) {}) 0 0 0 job ∧ (1 : WReg) ≠ 2 ∧
    spadRow (cc (coreSt (cAddr 4095 []) {})) 0 0 < 4096 ∧ useR ∉ (cc (coreSt (cAddr 4095 []) {})).banks :=
  ⟨canIssue _ _ rfl rfl (by decide), by decide, by decide, by decide⟩

def cEcc (sp : List Nat) (q : Nat) : Core := { dirty := [8], spares := [(0, sp)], patrol := [(0, q)], marked := [8] }
def sEcc (sp : List Nat) (q : Nat) : State := { coreSt (cEcc sp q) {} with dev := { computeRails := true } }
/-- The last visible row, an unused spare, none left; a row retired by a program. -/
theorem witness_ScratchpadHealth : (sEcc [5] 511).dev.computeRails = true ∧ s0.dev.computeRails = false ∧ ((sEcc [5] 511).bay 0).powered = true ∧
    tget 0 ((sEcc [5] 511).core 0).patrol 0 < 512 ∧ 512 ≤ tget 0 ((sEcc [5] 513).core 0).patrol 0 ∧
    ((sEcc [5] 513).spareRows 0 0).find? (fun i => 513 - 512 ≤ i) = some 5 ∧ ((sEcc [5] 518).spareRows 0 0).find? (fun i => 518 - 512 ≤ i) = none ∧
    (sEcc [5] 0).spare 0 0 ≠ 0 ∧ ((sEcc [5] 0).bay 0).job ≠ none ∧ (∀ r ∈ ((sEcc [5] 0).core 0).marked, r < 4096) ∧ (sEcc [] 0).spare 0 0 = 0 := by
  decide
/-- The same core in a bay that holds no job. -/
def sIdle (sp : List Nat) : State := { sEcc sp 0 with bays := [(0, { holder := some 0 })] }
theorem witness_ScratchpadHealth_idle : (sIdle [5]).spare 0 0 ≠ 0 ∧ ((sIdle [5]).bay 0).job = none ∧ ((sIdle [5]).bay 0).holder ≠ none ∧
    (sIdle []).spare 0 0 = 0 ∧ (sIdle []).liveJob 0 = none ∧ ((sIdle []).bay 0).unit_ ≠ .quarantined ∧ ((sIdle []).bay 0).job = none := by decide

/-! ### Package memory -/

/-- Package memory with frame 5 of paddock 1, and its image running. -/
def sMem : State := { sPrick 0 {} with dev := { memRails := true } }
/-- Writes of two bytes to the first and the last granule of frame 5, the last within one granule and one that spans two; reads. -/
def wr (a : Nat) : MemReq := { rq with addr := a }
def rd (a : Nat) : MemReq := { rq with addr := a, write := false, data := [] }
def fe (closed : Bool) : Fetch := { addr := 0xA00000, len := 2, tags := [1, 4], data := [0, 0], status := 0, closed := closed, ep := 0 }
def sFetch (closed : Bool) : State := { sMem with mcs := [(0xA00 % 6, { fetches := [fe closed] })] }
theorem witness_PackageMemoryRequests : sMem.dev.memRails = true ∧ ({ rq with len := 0 } : MemReq).len = 0 ∧ (wr 0xA00000).len ≠ 0 ∧
    0x1800000000 ≤ (wr 0x1800000000).addr ∧ (wr 0x17FFFFFFFF).addr < 0x1800000000 ∧ 0x1800000000 < (wr 0x17FFFFFFFF).addr + 2 ∧
    (wr 0x17FFFFFFFE).addr + 2 ≤ 0x1800000000 ∧ sMem.mayReach (sMem.ownerOf (0x17FFFFFFFE / 2 ^ 21)) (wr 0).by_ = false ∧
    sMem.mayReach (sMem.ownerOf (0xA00000 / 2 ^ 21)) (wr 0).by_ = true ∧ 0xA00000 / 4096 = (0xA00000 + 2 - 1) / 4096 ∧
    sMem.stackBad (0xA00000 / 4096 % 6) = false ∧ (wr 0xA00000).data.length = (wr 0xA00000).len := by decide
theorem witness_PackageMemoryRequests_span : 0xBFFFFF / 4096 ≠ (0xBFFFFF + 2 - 1) / 4096 ∧ 0xBFFFFE / 4096 = (0xBFFFFE + 2 - 1) / 4096 ∧
    5 < 6 ∧ 6 ≤ (0xBFFFFF + 2 - 1) / 2 ^ 21 ∧ 0xBFFFFF / 2 ^ 21 = 5 ∧ sMem.mayReach (sMem.ownerOf 5) (wr 0).by_ = true ∧
    sMem.mayReach (sMem.ownerOf 6) (wr 0).by_ = false := by decide
/-- Frame 5 free to write, locked; and in a stack that is quarantined. -/
theorem unlocked : ∀ p, sMem.writerOf (wr 0xA00000).by_ = some p → sMem.frameLocked p (0xA00000 / 2 ^ 21) = false := by
  intro p h
  obtain rfl : p = 0 := (Option.some.inj h).symm
  decide
def sLocked : State := { sMem with pdks := [(0, { st := .running, img := some imgP, lock := some (5, 1) })] }
theorem witness_PackageMemoryRequests_locked : (wr 0xA00000).write = true ∧ sLocked.writerOf (wr 0xA00000).by_ = some 0 ∧
    sLocked.frameLocked 0 (0xA00000 / 2 ^ 21) = true ∧ sLocked.stackBad (0xA00000 / 4096 % 6) = false ∧
    ({ sMem with ras := { stackSt := [(4, .quarantined)] } } : State).stackBad (0xA00000 / 4096 % 6) = true := by decide
theorem witness_PackageMemoryRequests_read : (rd 0xA00000).write = false ∧ sMem.mayReach (sMem.ownerOf 5) (rd 0).by_ = true ∧
    (∀ f ∈ (sMem.mc (0xA00 % 6)).fetches, ¬(f.addr = (rd 0xA00000).addr ∧ f.len = (rd 0xA00000).len ∧ f.closed = false)) ∧
    (∀ f ∈ ((sFetch true).mc (0xA00 % 6)).fetches, ¬(f.addr = (rd 0xA00000).addr ∧ f.len = (rd 0xA00000).len ∧ f.closed = false)) ∧
    (∃ f ∈ ((sFetch false).mc (0xA00 % 6)).fetches, f.addr = (rd 0xA00000).addr ∧ f.len = (rd 0xA00000).len ∧ f.closed = false) := by decide

def wt (n : Nat) (cls : MemClass) (dry bay : Nat) : Waiting :=
  { Waiting.plain with tag := 1, write := true, addr := 0xA00000, len := 2, cls := cls, dry := dry, bay := bay, slots := n }
def sSlot (q : List Waiting) (recent : List Bool) : State := { mcs := [(4, { queue := q, writing := [wt 1 .fcfs 0 0], recent := recent })] }
theorem witness_RowSlotsCompletionsAndPatrol : (State.reset.mc 4).queue = [] ∧ ((sSlot [wt 2 .save 0 0] []).mc 4).queue = wt 2 .save 0 0 :: [] ∧
    1 < (wt 2 .save 0 0).slots ∧ (wt 1 .save 0 0).slots ≤ 1 ∧ true ∈ ((sSlot [] [true, false]).mc 4).recent ∧
    true ∉ ((sSlot [] [false]).mc 4).recent ∧ (wt 1 .deadline 8 0).dry < (wt 1 .deadline 9 0).dry ∧ (wt 1 .fcfs 0 2).bay < (wt 1 .fcfs 0 3).bay ∧
    (wt 1 .fcfs 0 2).tick = (wt 1 .fcfs 0 3).tick ∧ ((sFetch false).mc 4).fetches = [fe false] ∧ 4 ∈ (fe false).tags ∧
    (∀ q ∈ (fe false).tags, q < 2 ^ 32) ∧ ((sFetch false).mc 4).queue = [] ∧ (fe false).status = 0 ∧
    ({ fe false with status := 0x60 } : Fetch).status ≠ 0 ∧ (∀ g ∈ ((sFetch false).mc 4).fetches, 5 ∉ g.tags) ∧
    ((sSlot [] []).mc 4).writing = wt 1 .fcfs 0 0 :: [] ∧ (wt 1 .fcfs 0 0).tag = 1 ∧
    State.reset.dev.memRails = false ∧ sMem.dev.memRails = true := by decide
/-- The fetch of a stream's one request, not yet answered. -/
def feOwn : Fetch := { fe false with tags := [2 ^ 32] }
def sOwn : State := { sPrick 0 (ld 0) with cores := [(0, { strms := [(2, { ld 0 with fly := [{ fragN with rtag := 2 ^ 32 }] })] })]
                                           mcs := [(4, { fetches := [feOwn] })] }
theorem witness_RowSlotsCompletionsAndPatrol_own : (sOwn.mc 4).fetches = [feOwn] ∧ feOwn.tags = [2 ^ 32] ∧ feOwn.status = 0 ∧ feOwn.data ≠ [] ∧
    sOwn.cores = [(0, { strms := [(2, { ld 0 with fly := [{ fragN with rtag := 2 ^ 32 }] })] })] ∧ fragN.ret = false ∧ (sOwn.mc 4).queue = [] := by decide

/-- The paddock's window on its one frame: the last two bytes, and the frame after. -/
theorem witness_Bar2Accesses : Heeds sMem 1 none ∧ sMem.bar2Check 0 true 0xBFFFFE 0 2 = none ∧ ([1, 2] : List Byte).length = 2 ∧
    ((sMem.quota 0).frameBase + ((sMem.pdk 0).win + 0x1FFFFE / 2 ^ 21)) * 2 ^ 21 + 0x1FFFFE % 2 ^ 21 = 0xBFFFFE ∧
    sMem.bar2Check 0 false 0xBFFFFE 0 2 = none ∧ sMem.poisonTouch 0xBFFFFE 2 = false ∧
    ({ sMem with ras := { poison := [0xBFF] } } : State).poisonTouch 0xBFFFFE 2 = true ∧
    (sMem.quota 0).frameCount ≤ (sMem.pdk 0).win + 0x200000 / 2 ^ 21 := by decide +kernel
def sRun : State := { sMem with sec := { tdi := [(0, { st := .run, stream := some 3 })] } }
/-- Stream 5, whose key is destroyed. -/
def sGone : State := { sMem with sec := { ide := [(5, { gone := true })] } }
theorem witness_Bar2Accesses_stream : sRun.ideBad 1 none = true ∧ sRun.ideBad 1 (some 4) = true ∧ Heeds sRun 1 (some 3) ∧
    sRun.keyGone (some 4) = false ∧ sRun.keyGone none = false ∧ sGone.keyGone (some 5) = true := by decide

/-! ### Power, resets and removal -/

def sRail (mv : Nat) : State := { dev := { baseOn := true, computeRails := true, railMv := [(0, mv), (1, mv), (2, mv), (3, mv)],
                                           beatMon := [(0, 2561), (1, 2560)] } }
theorem witness_RailsPowerCapAndPace : (3 : Nat) < 4 ∧ (sRail 720).dev.baseOn = true ∧ (sRail 720).mgt.restart = false ∧
    (sRail 720).dev.computeRails = true ∧ 720 ≤ (sRail 720).rail 3 ∧ (sRail 840).rail 3 ≤ 840 ∧ (sRail 720).dev.tripSeal = false ∧
    2560 < tget 0 (sRail 720).dev.beatMon 0 ∧ ¬2560 < tget 0 (sRail 720).dev.beatMon 1 ∧
    ({ sRail 800 with dev := { (sRail 800).dev with tripSeal := true } } : State).dev.tripSeal = true ∧
    ({ dev := { baseOn := true } } : State).dev.computeRails = false ∧ ({ mgt := { restart := true } } : State).mgt.restart = true ∧
    (sRail 720).dev.beatBase ≤ 2560 := by decide
def imgPace : TenImage := { img with features := 8 }
def sPace : State := { s0 with pdks := [(0, { st := .running, img := some imgPace })] }
/-- A pace of 1 and of 108, of 0 and of 109, and none at all. -/
theorem witness_RailsPowerCapAndPace_pace : Heeds sPace 1 none ∧ sRun.ideBad 1 none = true ∧ (sPace.pdk 0).img = some imgPace ∧
    bitAt imgPace.features 3 = true ∧ bits (0x0101 : Word).toNat 14 8 = 1 ∧ bits (0x6C01 : Word).toNat 14 8 = 108 ∧
    bits (0x0001 : Word).toNat 14 8 = 0 ∧ 108 < bits (0x6D01 : Word).toNat 14 8 ∧ bitAt (0x0001 : Word).toNat 0 = true ∧
    bitAt (0 : Word).toNat 0 = false ∧ (s0.pdk 0).img = some img ∧ bitAt img.features 3 = false ∧ sGone.keyGone (some 5) = true := by decide +kernel

def sTrip (b : Bay) : State := { dev := { tripSeal := true, computeRails := true, memRails := true, trans := .trip }, bays := [(3, b)] }
def sHot : State := { s0 with dev := { (sRail 720).dev with trans := .toStandby } }
theorem witness_ThermalSteps : (sRail 720).dev.computeRails = true ∧ (sRail 720).mgt.restart = false ∧ 95 < 96 ∧ (sRail 720).rail 0 ≤ 720 ∧
    660 ≤ (sRail 660).rail 0 ∧ 93 ≤ 93 ∧ (sRail 719).rail 0 < 720 ∧ (sRail 719).dev.baseOn = true ∧ (sRail 719).dev.tripSeal = false ∧ (sRail 660).rail 0 ≠ 0 ∧ 105 < 106 ∧ (sRail 720).dev.tripSeal = false ∧
    (sRail 720).dev.trans ≠ .toStandby ∧ sHot.dev.trans = .toStandby ∧ sHot.dev.tripSeal = false ∧ sHot.dev.computeRails = true ∧ 93 < 94 ∧
    (sRail 720).dev.subfloor = false ∧ s0.baysOf 0 ≠ [] ∧ (sTrip {}).dev.computeRails = true ∧ (sTrip {}).dev.tripSeal = true ∧ (∀ b, b < 16 → ((sTrip {}).bay b).job = none) ∧
    (∃ b, b < 16 ∧ ((sTrip { job := some (0, 0) }).bay b).job ≠ none) := by decide

def sUp : State := { dev := { phase := .standby, baseOn := true, aux := true, booted := true, perst := false, refclk := true } }
def sUpLink (l : LinkSt) (bad : Bool) : State := { sUp with dev := { sUp.dev with link := l, compatBad := bad } }
theorem witness_PowerOnSequence : State.reset.dev.aux = false ∧ ({ dev := { aux := true, booted := true } } : State).dev.baseOn = false ∧
    sUp.dev.conv = none ∧ sUp.dev.link = .down ∧ sUp.dev.needPerst = false ∧ sUp.dev.refclk = true ∧ sUp.dev.phase = .standby ∧
    ({ dev := { needPerst := true } } : State).dev.needPerst = true ∧ (sUpLink .training false).dev.link = .training ∧
    sUp.dev.standbyKind = .reset ∧ (sUpLink .up false).dev.compatBad = false ∧ (sUpLink .up true).dev.compatBad = true ∧
    (sUpLink .up false).dev.link = .up ∧ (sUpLink .up false).dev.conv = none ∧ State.reset.dev.phase ≠ .standby ∧ sUp.dev.baseOn = true ∧
    sUp.dev.perst = false ∧ sUp.dev.aux = true ∧ ({ dev := { aux := true, booted := true } } : State).dev.aux = true := by decide

theorem witness_ConventionalResets : sUp.dev.conv = none ∧ sUp.dev.baseOn = true ∧ State.reset.dev.baseOn = false ∧
    (sUpLink .training false).dev.link = .training ∧ (sUpLink .disabled false).dev.link = .disabled ∧ sUp.dev.refclk = true ∧
    State.reset.dev.refclk = false ∧ ({ sUp with dev := { sUp.dev with conv := some .hot } } : State).dev.conv = some .hot ∧
    ({ sUpLink .up false with dev := { (sUpLink .up false).dev with conv := some .hot } } : State).dev.link = .up := by decide
/-- Main power about to go after an orderly removal, and without one; and the auxiliary supply after that. -/
def sPull (r : Removal) : State := { dev := { p54 := true, aux := true, perst := true, removal := r } }
theorem witness_PowerLoss : (sPull .none).dev.p54 = true ∧ State.reset.dev.p54 = false ∧ (sPull .none).dev.aux = true ∧
    State.reset.dev.aux = false ∧ (sPull .standby).dev.removal = .standby ∧ (sPull .standby).dev.perst = true ∧
    ¬((sPull .none).dev.removal = .standby) ∧ (sPull .unpowered).dev.removal = .unpowered ∧ (sPull .none).dev.removal ≠ .unpowered := by decide
theorem witness_PowerLoss_unmarked : ∀ n, n < 256 → ((sPull .none).core n).marked = [] := fun _ _ => rfl

def sDev (d : Dev) : State := { dev := d }
theorem witness_StandbyPowerUpAndBayPower : (sDev { phase := .ready }).dev.trans = .none ∧
    (∃ p, p < 64 ∧ (s0.pdk p).st ≠ .empty) ∧ ¬(∃ p, p < 64 ∧ ((sDev { phase := .ready }).pdk p).st ≠ .empty) ∧
    (sDev { trans := .toStandby }).dev.trans ≠ .none ∧ ({ s0 with dev := { trans := .toStandby } } : State).dev.trans = .toStandby ∧
    (sDev { phase := .standby, standbyKind := .requested }).dev.standbyKind = .requested ∧
    (∀ e ∈ (sDev { phase := .standby, standbyKind := .tripped, tj := [(0, 85)] }).dev.tj, e.2 ≤ 85) ∧
    (∃ e ∈ (sDev { phase := .standby, standbyKind := .tripped, tj := [(0, 86)] }).dev.tj, 85 < e.2) ∧
    (sDev { phase := .standby }).dev.trans = .none ∧ (sDev { phase := .standby }).dev.standbyKind = .reset ∧ (sDev { trans := .fromTrip }).dev.trans = .fromTrip := by decide
def sBay (b : Bay) : State := { dev := { phase := .ready, computeRails := true }, bays := [(15, b)] }
theorem witness_StandbyPowerUpAndBayPower_bays : bitAt (0x8000 : BitVec 16).toNat 15 = true ∧ (sBay {}).dev.phase = .ready ∧
    ((sBay {}).bay 15).powered = true ∧ ((sBay {}).bay 15).pendOff = false ∧ ((sBay {}).bay 15).test = none ∧ ((sBay {}).bay 15).job = none ∧
    State.reset.dev.phase ≠ .ready ∧ ((sBay { pendOff := true, scrubbed := true }).bay 15).pendOff = true ∧
    ((sBay { pendOff := true, scrubbed := true }).bay 15).stopping = none ∧ ((sBay { pendOff := true, scrubbed := true }).bay 15).scrubbed = true ∧
    ((sBay { job := some (0, 0) }).bay 15).job ≠ none ∧ ((sBay { powered := false, pendOn := true }).bay 15).powered = false ∧
    ((sBay { powered := false, pendOn := true }).bay 15).pendOn = true ∧ (sBay {}).dev.computeRails = true ∧
    ((sBay {}).bay 15).pendOn = false := by decide

/-! ### Functions, configuration and the host's accesses -/

def sVf : State := { s0 with hif := { vfEnable := true, numVfs := 64 }, dev := { phase := .ready, cfgReady := true } }
/-- A STANDBY that was requested, in which a reset of PF0 is asked for. -/
def sAsk : State := sDev { phase := .standby, standbyKind := .requested, flr0 := true }
theorem witness_FunctionResets : s0.vfOn 0 = false ∧ s0.hif.vfEnable = false ∧ sVf.vfOn 63 = true ∧ sVf.vfOn 0 = true ∧ sVf.hif.vfEnable = true ∧
    (sVf.pdk 0).st ≠ .empty ∧ (sVf.pdk 0).st ≠ .teardown ∧ (sVf.pdk 63).st = .empty ∧ sVf.dev.phase ≠ .off ∧ sVf.dev.conv = none ∧
    (sDev { flr0 := true }).dev.flr0 = true ∧ (∀ q, q < 64 → ((sDev { flr0 := true }).pdk q).st = .empty) ∧
    ¬((sDev { flr0 := true }).dev.phase = .standby) ∧ sAsk.dev.flr0 = true ∧ sAsk.dev.phase = .standby ∧ sAsk.dev.standbyKind = .requested ∧
    sAsk.dev.trans = .none ∧ (∀ q, q < 64 → (sAsk.pdk q).st = .empty) ∧ (sDev {}).dev.flr0 = false ∧
    (∃ q, q < 64 ∧ (({ s0 with dev := { flr0 := true } } : State).pdk q).st ≠ .empty) := by decide +kernel
def sSusp (u : Susp) : State := { pdks := [(0, { st := .suspended, susp := u })] }
theorem witness_FunctionPowerStates : (s0.pdk 0).st = .running ∧ (State.reset.pdk 0).st = .empty ∧
    ((sSusp { d3vf := true }).pdk 0).st = .suspended ∧ ((sSusp { d3vf := true }).pdk 0).susp = { d3vf := true } ∧
    ((sSusp { op := true }).pdk 0).susp.op = true ∧ ((sSusp { d3pf := true }).pdk 0).susp = { d3pf := true } ∧
    ((sSusp { bme := true }).pdk 0).susp = { bme := true } := by decide
def sLock (st : TdiSt) : State := { sVf with sec := { tdi := [(0, { st := st })] } }
def sMsix : State := { sVf with hif := { vfEnable := true, numVfs := 64, fns := [(1, { bme := true, msixEn := true, vecMask := [(3, false), (7, false)], pba := [(3, true), (7, true)] })] } }
theorem witness_ConfigurationAndMessages : State.reset.dev.cfgReady = false ∧ sVf.dev.cfgReady = true ∧ ((sLock .locked).tdi 0).st = .locked ∧
    ((sLock .run).tdi 0).st = .run ∧ tget 0 ((sLock .run).fnCfg 1).cfg 0x10 ≠ (5 : BitVec 32) ∧
    tget 0 ((sLock .run).fnCfg 1).cfg 0x10 = (0 : BitVec 32) ∧ ¬(((sLock .unlocked).tdi 0).st = .locked ∨ ((sLock .unlocked).tdi 0).st = .run) ∧
    (∀ e ∈ sMsix.rings, e.1 / 256 = 1 - 1 → e.2.cpls = []) ∧ sMsix.releasable 1 = [3, 7] ∧ (sUpLink .training false).dev.cfgReady = false ∧
    (sUpLink .training false).dev.link = .training ∧ State.reset.dev.link ≠ .training ∧ s0.hif.vfEnable = false ∧ sVf.hif.vfEnable = true ∧
    (sDev { cfgReady := true }).hif.vfEnable = false ∧ (sDev { cfgReady := true }).dev.cfgReady = true := by decide +kernel
/-- Stream 7, to which paddock 1's TDI is bound, with a control of 5. -/
def sCtl : State := { sVf with sec := { ide := [(7, { vf := some 0, ctl := 5 })], tdi := [(0, { st := .locked, stream := some 7 })] } }
theorem witness_ConfigurationAndMessages_stream : (tget {} sCtl.sec.ide 7).ctl = 5 ∧ (tget {} sCtl.sec.ide 7).ctl ≠ 6 ∧
    (tget {} sCtl.sec.ide 7).vf = some (0 : PdkId).val ∧ (sCtl.tdi 0).st = .locked := by decide +kernel

/-- The last quadword of each BAR, one that reaches past it, a wrong size, an address off its size, and a register window. -/
theorem witness_HostRegisterAccesses : State.reset.dev.cfgReady = false ∧ sVf.dev.cfgReady = true ∧ (sVf.fnCfg 1).d3 = false ∧
    (sVf.fnCfg 0).d3 = false ∧ 0x200000 < 0x1FFFFC + 8 ∧ 0x1FFFF8 + 8 ≤ 0x200000 ∧ 0x3FFFFF8 + 8 ≤ 0x4000000 ∧ sVf.vfOn 0 = true ∧
    (sDev { cfgReady := true }).vfOn 0 = false ∧ Heeds sVf 1 none ∧ Heeds sVf 0 none ∧ ((2 : Nat) ≠ 4 ∧ (2 : Nat) ≠ 8) ∧ 0x24 % 8 ≠ 0 ∧
    ¬((8 ≠ 4 ∧ 8 ≠ 8) ∨ 0x3FFFFF8 % 8 ≠ 0) ∧ (0x2000000 : Nat) ≤ 0x3FFFFF8 := by decide
/-- Paddock 1's TDI in RUN on stream 3; stream 5's keys destroyed. -/
def sVfRun : State := { sVf with sec := { tdi := [(0, { st := .run, stream := some 3 })], ide := [(5, { gone := true })] } }
theorem witness_HostRegisterAccesses_streams : sVfRun.dev.cfgReady = true ∧ (sVfRun.fnCfg 1).d3 = false ∧ sVfRun.vfOn 0 = true ∧
    sVfRun.keyGone (some 5) = true ∧ sVfRun.keyGone none = false ∧ sVfRun.ideBad 1 none = true := by decide
def sLatch : State := { sVf with hif := { vfEnable := true, numVfs := 64, latch := [(1, 9)], reads := [(4, .sqe 0 0), (6, .image)] }
                                 rings := [(0, { fetch := some 4 })] }
theorem witness_TimestampWindowAndHostReads : sVf.dev.cfgReady = true ∧ (sVf.fnCfg 1).d3 = false ∧ sVf.vfOn 0 = true ∧
    (sVf.tdi (1 - 1)).st ≠ .run ∧ sVf.keyGone (sVf.tdi 0).stream = false ∧ tfind sLatch.hif.latch (2 * 0 + 1) = some 9 ∧
    tfind sVf.hif.latch (2 * 0 + 1) = none ∧ Heeds sVf 1 none ∧ sVfRun.keyGone none = false ∧ sVfRun.ideBad 1 none = true ∧
    sVfRun.keyGone (some 5) = true ∧ tfind sVf.hif.reads 5 = none ∧ tfind sLatch.hif.reads 4 = some (.sqe 0 0) ∧
    (sLatch.ring 0 0).fetch = some 4 ∧ tfind sLatch.hif.reads 6 = some .image ∧ sLatch.ldr.readErr = false := by decide

/-! ### Loads, paddocks and their jobs -/

def sLdr (l : Ldr) (ready : Bool) : State :=
  { hif := { vfEnable := true, numVfs := 64, fns := [(0, { bme := true })] }, dev := { phase := .ready, cfgReady := true }, ldr := l, sec := { rng := { running := ready } }
    plat := some { quotas := [{ frameBase := 5, frameCount := 1 }] }, own := [{ base := 5, count := 1, owner := 1 }] }
/-- A platform load queued, PF0 with and without Bus Master Enable. -/
def sLdr0 (bme : Bool) : State :=
  { hif := { fns := [(0, { bme := bme })] }, dev := { phase := .init, cfgReady := true }, ldr := { queue := [0], regs := [(0, { len := 64, queued := true })] } }
/-- Paddock 1's load of the largest image, queued, and one byte block more; one taken, in a phase that refuses it. -/
def regs (len : Nat) : Tab LoadRegs := [(1, { len := len, queued := true })]
theorem witness_ImageLoads : ((sLdr {} true).load 0).queued = false ∧ ((sLdr {} true).load 0).busy = false ∧
    ((sLdr { regs := regs 64 } true).load 1).queued = true ∧ (sLdr {} true).vfOn 0 = true ∧
    (sLdr {} true).ideBad 1 none = false ∧ State.reset.vfOn 0 = false ∧ State.reset.ideBad 1 none = false ∧ ((sLdr {} true).pdk 0).st = .empty ∧ ((sLdr {} true).pdk 0).lock = none ∧ (sLdr {} true).ldr.queue = [] ∧
    (sLdr { queue := [1, 2], regs := regs 64 } true).ldr.queue = (0 + 1) :: [2] ∧
    (sLdr { queue := [1, 2], regs := regs 0x40000000 } true).earlyFail 1 = none ∧
    (sLdr { queue := [1, 2], regs := regs 0x40000040 } true).earlyFail 1 = some (5, 0x41) ∧
    (sLdr { queue := [1, 2], regs := regs 0 } true).earlyFail 1 = some (3, 0x01) ∧ (3 : Nat) ≤ 3 ∧
    (sLdr0 true).ldr.queue = 0 :: [] ∧ (sLdr0 true).earlyFail 0 = none ∧ (sLdr0 true).canMaster 0 = true ∧ (sLdr0 false).canMaster 0 = false ∧
    (sLdr { queue := [1, 2], regs := regs 64 } true).drbgReady = true ∧ (sLdr { queue := [1, 2], regs := regs 64 } false).drbgReady = false := by
  decide
/-- A load that fails its second check. That one passes cannot be shown on a fixed state: the versions it is compared with and the signatures
of firmware are opaque; a load's end by a failure and its end by passing exclude each other. -/
theorem witness_ImageLoads_fails : (sLdr { cur := some 0, early := some (2, 0x13) } true).ldr.cur = some 0 ∧ (sLdr { cur := some 0, early := some (2, 0x13) } true).ldr.passed = false ∧
    (sLdr { cur := some 0, early := some (2, 0x13) } true).ldr.readOut = 0 ∧ (sLdr { cur := some 0, early := some (2, 0x13) } true).loadFail 0 = some (2, 0x13, 0, 0) := by decide
def sInit : State := { dev := { phase := .init }, ldr := { cur := some 0, passed := true } }
theorem witness_ImageLoads_commit : sInit.ldr.cur = some 0 ∧ sInit.ldr.passed = true ∧ sInit.dev.phase = .init ∧
    (sLdr { cur := some 64, passed := true } true).ldr.cur = some (63 + 1) ∧ (sLdr { cur := some 64, passed := true } true).ldr.passed = true ∧
    (sLdr {} true).ldr.cur = none ∧ (sLdr {} true).dev.tripSeal = false ∧ (sLdr {} true).dev.tripped = false ∧
    (sDev { tripped := true }).dev.tripped = true := by decide

theorem witness_SuspensionAndTeardown : (s0.pdk 0).st = .running ∧ ((sSusp { op := true }).pdk 0).susp = { op := true } ∧
    { ((sSusp { op := true, bme := true }).pdk 0).susp with op := false } ≠ ({} : Susp) ∧ (State.reset.pdk 0).st = .empty ∧
    (State.reset.pdk 0).st ≠ .suspended := by decide
def sDown (d : Teardown) : State := { s0 with pdks := [(0, { st := .teardown, td := some d })] }
theorem witness_SuspensionAndTeardown_teardown : ((sDown {}).pdk 0).st = .teardown ∧ ((sDown {}).pdk 0).td = some {} ∧
    ((sDown { drained := true, flr := true }).pdk 0).td = some { drained := true, flr := true } ∧ (s0.pdk 0).st ≠ .teardown := by decide

/-- Ring 0 of paddock 1's image, selected. -/
def imgR : TenImage := { img with needs := { bays := 2, rings := 1 }, entries := [{ ring := 0, program := 0, start := 0 }] }
def sRing (r : Ring) (st : PdkSt) : State :=
  { s0 with rings := [(0, r)], pdks := [(0, { st := st, img := some imgR })], plat := some { quotas := [{ rings := 1, bays := 2 }] } }
/-- RING_CFG with the smallest and the largest sizes and vector, and one size below and above. -/
def okLow : Word := 0x0000000101000405
def okHigh : Word := 0x000000011B001010
/-- A full block of the one ring that the paddock has: ring 1 holds its slot. -/
def sFullRings : State := { (sRing {} .running) with rings := [(0, {}), (1, { slot := some 0 })] }
theorem witness_RingsAndDoorbells : Heeds (sRing {} .running) 1 none ∧ ((sRing {} .running).ring 0 0).en = false ∧
    ((sRing {} .running).ring 0 0).job = none ∧ ((sRing {} .running).ring 0 0).cpls = [] ∧ ((sRing {} .running).ring 0 0).fetch = none ∧
    sFullRings.ringSlot 0 = none ∧ (sFullRings.ring 0 0).en = false ∧ ((sRing {} .running).pdk 0).ringSel = 0 ∧
    (sRing {} .running).enableOk 0 0 (ringCfg {} okLow.toNat) = true ∧ (sRing {} .running).enableOk 0 0 (ringCfg {} okHigh.toNat) = true ∧
    (sRing {} .running).enableOk 0 0 (ringCfg {} (okLow - 2).toNat) = false ∧
    (sRing {} .running).enableOk 0 0 (ringCfg {} (okHigh + 1).toNat) = false ∧ (sRing {} .running).ringSlot 0 ≠ none := by decide
def ring4 (head tail : Nat) : Ring := { en := true, sqLog := 4, cqLog := 4, sqHead := head, sqTail := tail, cqHead := head, cqTail := tail }
theorem witness_RingsAndDoorbells_doorbells : ((sRing (ring4 14 15) .running).ring 0 0).en = true ∧
    ((sRing (ring4 14 15) .running).ring 0 0).job = none ∧ ((sRing (ring4 14 15) .teardown).pdk 0).st = .teardown ∧
    ((sRing (ring4 14 15) .running).pdk 0).st ≠ .teardown ∧ 2 ^ (ring4 14 15).sqLog ≤ (16 : BitVec 16).toNat ∧
    (1 : BitVec 16).toNat < 2 ^ (ring4 14 15).sqLog ∧ (15 + 16 - 14) % 16 < (1 + 16 - 14) % 16 ∧ (15 + 16 - 14) % 16 ≤ (15 + 16 - 14) % 16 := by
  decide

/-- Submission entries: of kind 3, a NOP, and jobs of 0, 2 and 3 bays. -/
def entry (kind bays : Nat) : List Byte := (row [(0, 1, kind), (2, 2, 9), (4, 1, bays), (16, 8, 7)]).take 64
def wellFormed (d : List Byte) : Prop :=
  (fieldAt d 0 1 = 1 ∨ fieldAt d 0 1 = 2) ∧ fieldAt d 1 1 < 8 ∧ zeroAt d 5 3 = true ∧ zeroAt d 12 4 = true ∧
    (bitAt (fieldAt d 1 1) 1 = true → fieldAt d 8 4 ≠ 0)
def sSq : State := sRing { ring4 0 1 with fetch := some 4 } .running
theorem witness_EntriesAndCompletions : (s0.ring 0 0).fetch = none ∧ (sSq.ring 0 0).fetch = some 4 ∧ (sSq.ring 0 0).en = true ∧
    (sSq.ring 0 0).job = none ∧ (sSq.pdk 0).st ≠ .teardown ∧ (sSq.pdk 0).st ≠ .empty ∧ ¬wellFormed (entry 3 1) ∧ wellFormed (entry 2 0) ∧
    fieldAt (entry 2 0) 0 1 = 2 ∧ wellFormed (entry 1 0) ∧ fieldAt (entry 1 0) 4 1 = 0 ∧ sSq.needBays 0 < fieldAt (entry 1 3) 4 1 ∧
    fieldAt (entry 1 2) 4 1 ≤ sSq.needBays 0 := by unfold wellFormed; decide
def cpl : Cpl := { status := 0, tag := 9 }
def sCq (head : Nat) : State := { sRing { ring4 0 1 with cqLog := 4, cqTail := 15, cqHead := head, cpls := [cpl] } .running with
  hif := { fns := [(1, { bme := true })] } }
theorem witness_EntriesAndCompletions_write : ((sCq 1).ring 0 0).cpls = cpl :: [] ∧ (sCq 1).canMaster (0 + 1) = true ∧
    ¬((((sCq 1).ring 0 0).cqTail + 1) % 2 ^ ((sCq 1).ring 0 0).cqLog = ((sCq 1).ring 0 0).cqHead) ∧
    (((sCq 0).ring 0 0).cqTail + 1) % 2 ^ ((sCq 0).ring 0 0).cqLog = ((sCq 0).ring 0 0).cqHead := by decide

def jobW : Job := { job with ph := .waiting, slots := [], lays := [] }
def sWait : State := { dev := { phase := .ready }, rings := [(0, { en := true, slot := some 0, job := some jobW })]
                       pdks := [(0, { st := .runnable, img := some imgR })] }
theorem witness_SchedulingAndBaySwitch : State.reset.candidates = [] ∧ (∀ c, c < 16 → (State.reset.bay c).next = none) ∧
    sWait.candidates = [(0, 0)] ∧ (sWait.ring 0 0).job = some jobW ∧ jobW.bays = 1 ∧ (∀ c, c < 16 → (sWait.bay c).next = none) ∧
    (∃ c, c < 16 ∧ sWait.takeable c = true) ∧ (s0.bay 0).job ≠ none ∧ (State.reset.bay 0).job = none ∧ (State.reset.bay 0).stopping = none := by
  decide +kernel
/-- Bay 3 reserved for the waiting job: free, held by another paddock whose need is not met, or by the job's own; the paddock with its need met;
a paddock that does not run; a bay of a paddock in TEARDOWN. -/
def sHold (holder : Option Nat) (more : Tab Bay) (st : PdkSt) : State :=
  { sWait with bays := (3, { next := some (0, 0, 0), holder := holder }) :: more, pdks := [(0, { st := st, img := some imgR })]
               plat := some { quotas := [{ rings := 1, bays := 2 }] } }
def two : Tab Bay := [(4, { holder := some 0 }), (5, { holder := some 0 })]
def sLeave : State := { s0 with bays := [(0, { job := some (0, 0), holder := some 0, stopping := some .preempt, stopped := true })] }
theorem witness_SchedulingAndBaySwitch_switch : (sLeave.bay 0).stopping = some .preempt ∧ (sLeave.bay 0).stopped = true ∧
    (sLeave.bay 0).next = none ∧ sLeave.tearing 0 = false ∧ (sLeave.bay 0).job = some (0, 0) ∧ (sLeave.ring 0 0).job = some job ∧
    ({ sLeave with pdks := [(0, { st := .teardown })] } : State).tearing 0 = true := by decide
theorem witness_SchedulingAndBaySwitch_bring : ((sHold (some 1) [] .runnable).bay 3).stopping = none ∧
    ((sHold (some 1) [] .runnable).bay 3).next = some (0, 0, 0) ∧ ((sHold (some 1) [] .runnable).bay 3).prepared = false ∧
    (sHold (some 1) [] .runnable).takeable 3 = true ∧ ((sHold (some 1) [] .runnable).ring 0 0).job = some jobW ∧ jobW.ph = .waiting ∧
    (sHold (some 1) [] .runnable).eligible 0 0 = true ∧ ((sHold (some 1) [] .runnable).bay 3).holder ≠ some 0 ∧
    ((sHold (some 1) [] .runnable).baysOf 0).length < (sHold (some 1) [] .runnable).needBays 0 ∧
    (sHold (some 1) two .runnable).eligible 0 0 = true ∧ (sHold (some 1) two .runnable).needBays 0 ≤ ((sHold (some 1) two .runnable).baysOf 0).length ∧
    (sHold (some 1) two .runnable).takeable 3 = true ∧ (sHold (some 0) [] .runnable).eligible 0 0 = true ∧
    (sHold (some 0) [] .runnable).takeable 3 = true ∧ (sHold (some 1) [] .suspended).eligible 0 0 = false ∧
    (sHold (some 1) [] .suspended).takeable 3 = true := by decide +kernel

/-! ### The security block -/

def sEnt (r : Rng) : State := { dev := { baseOn := true }, sec := { rng := r } }
theorem witness_RandomBitsConsentAndEpochs : State.reset.dev.baseOn = false ∧ (sEnt {}).dev.baseOn = true ∧
    (sEnt { rctRun := 40, rctVal := 7 }).sec.rng.rctRun = 40 ∧ (7 : Byte) = (sEnt { rctRun := 40, rctVal := 7 }).sec.rng.rctVal ∧
    (sEnt { aptPos := 511, aptCount := 409, aptRef := 7 }).sec.rng.aptCount = 409 ∧
    (sEnt { aptPos := 511, aptCount := 409, aptRef := 7 }).sec.rng.aptPos ≠ 0 ∧
    (8 : Byte) ≠ (sEnt { aptPos := 511, aptCount := 409, aptRef := 7 }).sec.rng.rctVal ∧ (sEnt { passRun := 1024 }).sec.rng.running = false ∧
    (8 : Byte) ≠ (sEnt { aptPos := 511, aptCount := 409, aptRef := 7 }).sec.rng.aptRef ∧
    (sEnt { aptPos := 511, aptCount := 409, aptRef := 7 }).sec.rng.aptCount ≠ 410 ∧ 1024 ≤ (sEnt { passRun := 1024 }).sec.rng.passRun ∧ (sEnt { passRun := 1023 }).sec.rng.passRun < 1024 ∧
    (sEnt { running := true, fresh := 1024 }).sec.rng.running = true ∧ 1024 ≤ (sEnt { running := true, fresh := 1024 }).sec.rng.fresh ∧
    (sEnt { running := true, fresh := 1023 }).sec.rng.fresh < 1024 := by decide
theorem witness_RandomBitsConsentAndEpochs_consent : Heeds s0 (0 + 1) none ∧ (s0.pdk 0).st = .running ∧
    (0x1F : Word).toNat % 16 ≠ (s0.pdk 0).consent ∧ (0x10 : Word).toNat % 16 = (s0.pdk 0).consent ∧ (State.reset.pdk 0).st = .empty ∧
    epochDone ({ sec := { epoch := 5, ack := 4 } } : State).sec.ack (5 % 2 ^ 32) = false ∧ epochDone 5 (5 % 2 ^ 32) = true ∧
    epochDone 4 (4 % 2 ^ 32) = true ∧ epochDone 5 (6 % 2 ^ 32) = false ∧ ({ sec := { epoch := 5, ack := 4 } } : State).accessOpen 5 = false ∧
    (sFetch false).accessOpen 5 = true := by decide

def ses (e : Bool) : Session := { sid := 3, established := e, keyEpoch := 0 }
def sSpdm (n : Nat) (e key up : Bool) : State :=
  { sVf with sec := { rng := { running := up }, aliasKey := key, doe := List.replicate n (ses e) } }
theorem witness_SpdmResponders : State.reset.answers .doe = false ∧ State.reset.answers .mctp = false ∧ (sSpdm 3 true true true).answers .doe = true ∧
    (sSpdm 3 true true true).measurement 1 ≠ none ∧ (sSpdm 3 true true true).sec.aliasKey = true ∧ (sSpdm 3 true false true).sec.aliasKey = false ∧
    (1 : Fin 8) ≠ 0 ∧ (sSpdm 3 true true false).drbgReady = false ∧ (sSpdm 4 true true true).drbgReady = true ∧
    4 ≤ ((sSpdm 4 true true true).sessions .doe).length ∧ ((sSpdm 3 true true true).sessions .doe).length < 4 ∧
    (sSpdm 3 true true true).session .doe 2 = none ∧ (sSpdm 1 true true true).session .doe 3 = some (ses true) ∧
    (sSpdm 1 false true true).session .doe 3 = some (ses false) ∧ (ses false).established = false := by
  refine ⟨rfl, rfl, rfl, Option.some_ne_none _, rfl, rfl, by decide, rfl, rfl, by decide, by decide, by decide, by decide, by decide, rfl⟩

/-- An established session; stream 255 with a key each way, bound to paddock 1 where it is locked or runs. -/
def stream (vf : Option Nat) : IdeStream :=
  { keys := [(0, true, 0), (0, false, 0)], active := [(0, true, 0), (0, false, 0)], vf := vf }
def sIde (st : TdiSt) (vf : Option Nat) (pst : PdkSt) : State :=
  { sVf with sec := { doe := [ses true], ide := [(255, stream vf)], tdi := [(0, { st := st, stream := vf.map (fun _ => 255) })] }
             pdks := [(0, { st := pst })] }
theorem witness_InterfaceSecurity_outside : ¬∃ r, sVf.answers r = true ∧ (sVf.session r 3).elim false (·.established) = true := by
  rintro ⟨r, h, e⟩
  cases r <;> exact absurd e (by decide)
theorem witness_InterfaceSecurity :
    (sIde .run (some 0) .running).answers .doe = true ∧ ((sIde .run (some 0) .running).session .doe 3).elim false (·.established) = true ∧
    (sIde .run (some 0) .running).streamOk 255 = true ∧ (sIde .run (some 0) .running).streamOk 257 = false ∧
    (stream (some 0)).vf = some 0 ∧ ((sIde .run (some 0) .running).tdi 0).st = .run ∧ (0, true, 1) ∉ (stream (some 0)).keys ∧
    (0, true, 0) ∈ (stream (some 0)).keys ∧ ((sIde .locked (some 0) .empty).tdi 0).st = .locked ∧
    ((sIde .locked (some 0) .empty).tdi 0).stream = some 255 ∧ (sIde .locked (some 0) .empty).streamActive 255 = true ∧
    ((sIde .unlocked none .empty).tdi 0).st = .unlocked ∧ (sIde .unlocked none .empty).vfOn 0 = true ∧
    ((sIde .unlocked none .empty).pdk 0).st = .empty ∧ ((sIde .unlocked none .running).pdk 0).st ≠ .empty ∧ 255 < 256 ∧ (stream none).vf = none ∧
    ((sIde .run (some 0) .running).pdk 0).st ≠ .empty ∧ (sIde .unlocked none .empty).streamOk 255 = true ∧
    (sIde .unlocked (some 1) .empty).streamOk 255 = true ∧ (stream (some 1)).vf = some 1 ∧ (256 : Nat) ≤ 256 ∧
    (sIde .unlocked none .empty).streamActive 254 = false ∧ State.reset.dev.cfgReady = false ∧ sVf.dev.cfgReady = true ∧ 2 ≤ 2 := by decide

/-! ### The fabric -/

/-- Device 3 of a fabric without protection: every port is enabled and up; `jb` is paddock 1's job slot 0, its members being this paddock
and paddock 1 of device 9, behind port 2. -/
def fabJob_ (st : JobSlotSt) : FabJob := { jobId := 7, nMembers := 2, members := [(0, (3, 1)), (1, (9, 1))], st := st, colls := 2 }
def imgF : TenImage := { img with features := 4 }
def fab_ (st : JobSlotSt) : Fab :=
  { ports := [(2, { unit_ := .online, up := true, mode := .direct, peer := 9 }), (3, { unit_ := .online, up := true, mode := .faulted })]
    jobs := [(0, fabJob_ st)], eyes := [(0, { en := true, cfg := 0x20000000006, base := 512 })] }
def sFab (f : Fab) : State :=
  { s0 with plat := some { fabric := some { ethertype := 0x88B5, device := 3, portEn := 0xFE, protect := 0 }
                           quotas := [{ bays := 1, frameBase := 5, frameCount := 1, eyelets := 2 }] }
            own := [{ base := 5, count := 1, owner := 1 }], fab := f, pdks := [(0, { st := .running, img := some imgF })] }
def sF : State := sFab (fab_ .active)
def hello_ (d : Nat) : Hello := { device := d, port := 1, protect := 0, ethertype := 0x88B5 }
theorem witness_FabricLinksAndHellos : (sF.port 2).up = true ∧ (sF.port 2).unit_ = .online ∧ (hello_ 3).device = sF.fabCfg.device ∧
    (hello_ 9).device ≠ sF.fabCfg.device ∧ (hello_ 9).protect = sF.fabCfg.protect ∧ (hello_ 9).ethertype = sF.fabCfg.ethertype ∧
    (sF.port 2).mode ≠ .faulted ∧ (sF.port 3).mode = .faulted ∧ ¬((sF.port 4).up = true ∧ (sF.port 4).unit_ = .online) ∧
    sF.portLive 2 = true ∧ bitAt sF.fabCfg.portEn 7 = true ∧ bitAt sF.fabCfg.portEn 0 = false := by decide

/-- A slot that may be activated, and one whose own rank is missing; an eyelet that may be opened. -/
def act (member : Nat × Nat) : FabJob := { (fabJob_ .idle) with members := [(0, (3, 1)), (1, member)] }
theorem witness_FabricSlotsAndEyelets : Heeds sF (0 + 1) none ∧ bitAt (0x0000010200000007 : Word).toNat 41 = false ∧
    ((sFab (fab_ .idle)).fabJob 0 0).st ≠ .active ∧ (sFab (fab_ .idle)).fabWritable 0 = true ∧
    (sFab (fab_ .idle)).activateOk 0 0 (act (9, 1)) = true ∧ (sFab (fab_ .idle)).activateOk 0 0 (act (3, 1)) = false ∧
    (sF.fabJob 0 0).st = .active ∧ (State.reset.fabJob 0 0).st ≠ .active ∧ ((sFab (fab_ .idle)).fabJob 0 0).st = .idle ∧
    State.reset.fabWritable 0 = false ∧ ((sFab {}).eyelet 0 0).en = false ∧ (sF.eyelet 0 0).en = true ∧ sF.feature 0 2 = true ∧
    bitAt (1 : Word).toNat 0 = true ∧ bitAt (0 : Word).toNat 0 = false ∧ s0.feature 0 2 = false := by decide
theorem witness_FabricSlotsAndEyelets_eyelet : sF.eyeOpenOk 0 1 ((0x20000000002 : Word) ||| 1).toNat = true ∧
    sF.eyeOpenOk 0 1 ((0x1FF00000002 : Word) ||| 1).toNat = false := by decide

/-- The first frame of a PUT of the last two bytes of eyelet 0's window, of three, of a GET; a record of rank 1. -/
def fh : FrameHdr :=
  { vlanTags := 0, first := true, last := true, enc := false, notReady := false, src := 9, dst := 3, srcPdk := 1, dstPdk := 1, jobId := 7,
    seq := 1, ctr := 1, xfer := 5, offset := 0, tag := [] }
def blk (get : Bool) (len : Nat) : TargetBlk := { get := get, rspace := false, len := len, raddr := 1022 }
def stands (ty : Nat) (payload : List Byte) : Bool := match sF.rxCheck 2 ty fh payload with
  | (some w, t) => w = (0, 0, 1) && t = sF
  | _ => false
theorem rx_of_stands (ty : Nat) (payload : List Byte) (h : stands ty payload = true) : sF.rxCheck 2 ty fh payload = (some (0, 0, 1), sF) := by
  unfold stands at h
  split at h
  · next hm => simp at h; rw [hm, h.1, h.2]
  · cases h
theorem witness_ReceivedFrames : State.reset.portLive 2 = false ∧ sF.portLive 2 = true ∧ sF.fab.closing = [] ∧
    ({ fh with dst := 4 } : FrameHdr).dst ≠ sF.device ∧ sF.rxCheck 2 1 fh (targetBytes (blk false 2) ++ [1, 2]) = (some (0, 0, 1), sF) ∧
    fh.seq = (sF.flow 0 0 1).nextRecv ∧ fh.first = true ∧ sF.resolve 0 fh.jobId (blk false 2) = .inl 0 ∧
    sF.resolve 0 fh.jobId (blk false 3) = .inr 0x12 ∧ sF.resolve 0 fh.jobId (blk true 2) = .inl 0 ∧
    sF.rxCheck 2 2 fh [] = (some (0, 0, 1), sF) ∧ sF.rxCheck 2 3 fh (leBytes 1 0x13) = (some (0, 0, 1), sF) ∧ fh.notReady = false ∧
    fh.xfer < 2 ^ 15 ∧ sF.rxCheck 2 5 fh [] = (some (0, 0, 1), sF) ∧ sF.rxCheck 2 6 fh (collBytes 4 1 [0, 0, 0, 0]) = (some (0, 0, 1), sF) ∧
    sF.ownRank 0 0 = 0 := by
  refine ⟨by decide, by decide, rfl, by decide, rx_of_stands _ _ (by decide +kernel), by decide, rfl, by decide +kernel, by decide +kernel,
    by decide +kernel, rx_of_stands _ _ (by decide +kernel), rx_of_stands _ _ (by decide +kernel), rfl, by decide,
    rx_of_stands _ _ (by decide +kernel), rx_of_stands _ _ (by decide +kernel), by decide⟩
/-- A frame out of sequence, and a receiver that is not ready, which the port takes as well. -/
theorem witness_ReceivedFrames_others : ({ fh with seq := 2 } : FrameHdr).seq ≠ (sF.flow 0 0 1).nextRecv ∧
    (sF.rxCheck 2 1 { fh with seq := 2 } (targetBytes (blk false 2) ++ [1, 2])).1 = some (0, 0, 1) ∧
    (sF.rxCheck 2 3 { fh with notReady := true } (leBytes 1 0)).1 = some (0, 0, 1) := by decide +kernel

def fid : FlowId := ⟨0, 0, 1⟩
def flow_ (resends : Nat) (nr : Bool) : Flow := { unacked := [{ ty := 1, hdr := fh, payload := [] }], resends := resends, notReady := nr }
def sFlow (m : Nat) (resends : Nat) (nr : Bool) : State :=
  sFab { fab_ .active with jobs := [(0, { (fabJob_ .active) with members := [(0, (3, 1)), (1, (m, 1))] })], flows := [(1, flow_ resends nr)] }
theorem witness_FabricRecovery : (sF.flow 0 0 1).unacked = [] ∧ ((sFlow 9 16 true).flow 0 0 1).notReady = true ∧
    ((sFlow 9 16 false).flow 0 0 1).unacked ≠ [] ∧ ((sFlow 9 16 false).flow 0 0 1).notReady = false ∧ (sFlow 10 0 false).hasPort 0 0 1 = false ∧
    (sFlow 9 16 false).hasPort 0 0 1 = true ∧ 16 ≤ ((sFlow 9 16 false).flow 0 0 1).resends ∧ ((sFlow 9 15 false).flow 0 0 1).resends < 16 ∧
    (1 : Nat) ≠ (sFlow 9 15 false).ownRank 0 0 := by decide

/-- A post queue bound to Hoop 1 of core 0: a PUT of no job slot that exists; a post that has ended, with a completion row and without. -/
def putRow : List Byte := row [(0, 1, 1), (1, 1, 16)]
def sPost (posts : List Post) (o : Nat) : State :=
  { sF with fab := { fab_ .active with postqs := [(2, { en := true, hoop := 1 })], posts := posts, kept := [{ pdk := 0, ring := some 0, lbay := 0, pos := 0, ctr := 3, cnt := 4 }] }
            cores := [(0, { running := true, spad := [(8, rowOf putRow)], hoops := [(1, { base := 8, size := 2, a := 1, o := o })] })] }
def post (cpl : Nat) (st : Option Nat) : Post :=
  { pdk := 0, q := 2, op := 1, job := 0, cpl := cpl, lspace := 0, len := 64, laddr := 0, member := 1, rspace := 0, raddr := 0, tag := 5, ring := 0,
    lbay := 0, pos := 0, status := st }
def popped : Post := { State.postOf 0 2 { en := true, hoop := 1 } putRow 0 with num := ((sPost [] 1).fabJob 0 16).colls }
theorem witness_PostsAndCollectives : (tget {} s0.fab.postqs (0 * 16 + 2)).en = false ∧
    tget {} (sPost [] 1).fab.postqs (0 * 16 + 2) = { en := true, hoop := 1 } ∧ ((sPost [] 1).pdk 0).st ≠ .teardown ∧
    (sPost [] 1).ringCore 0 0 0 0 = some (0 : CoreId).val ∧ (((sPost [] 1).core 0).hoop 1).size ≠ 0 ∧ (((sPost [] 1).core 0).hoop 1).a ≠ 0 ∧
    fieldAt putRow 0 1 = 1 ∧ State.postCheck (sPost [] 1) 0 putRow popped = some 0x10 ∧
    rowBytes (((sPost [] 1).core 0).rowAt ((8 + 0) % 4096)) = putRow ∧ (sPost [] 1).fab.posts = [] ∧ (sPost [post 0x81 none] 1).fab.posts = [post 0x81 none] ∧
    (post 0x81 none).pdk = 0 ∧ (post 0x81 none).q = 2 ∧ (post 0x81 none).status = none ∧ (post 0x81 none).result = none ∧
    (post 0x01 (some 0)).status = some 0 ∧ bitAt (post 0x01 (some 0)).cpl 7 = false ∧ bitAt (post 0x81 (some 0)).cpl 7 = true ∧
    (post 0x81 (some 0)).gone = false ∧ ((sPost [] 1).core 0).hoopRoom (0x81 % 16) 1 = true ∧ ((sPost [] 2).core 0).hoopRoom (0x81 % 16) 1 = false ∧
    (sPost [] 1).fab.kept.filter (fun k => (sPost [] 1).ringCore k.pdk (k.ring.getD 0) k.lbay k.pos = some (0 : CoreId).val) =
      [{ pdk := 0, ring := some 0, lbay := 0, pos := 0, ctr := 3, cnt := 4 }] := by decide +kernel
def coll_ : Coll := { pdk := 0, job := 0, num := 1, kind := 4, len := 1, recs := [(0, [0, 0, 0, 0]), (1, [0, 0, 0, 0])], whole := [0, 1] }
theorem witness_PostsAndCollectives_fold : s0.jobUsable 0 0 = false ∧ (sFab { fab_ .active with colls := [coll_] }).jobUsable 0 0 = true ∧
    (sFab { fab_ .active with colls := [coll_] }).ownRank 0 0 = 0 ∧
    (sFab { fab_ .active with colls := [coll_] }).fab.colls.find? (fun c => c.pdk = (0 : PdkId).val && c.job = (0 : Fin 16).val &&
      (List.range ((sFab { fab_ .active with colls := [coll_] }).fabJob 0 0).nMembers).all c.whole.contains) = some coll_ ∧
    s0.fab.colls = [] := by decide

/-! ### The Tambour -/

/-- A graph of one motion node over an image of 16 × 16 pixels, whose record follows its input; one frame. -/
def gnode : GNode := { kind := 2, engine := 1, op := 0, outFmt := 0, outW := 0, outH := 0, param := [] }
def gr_ : Graph :=
  { graph := 0, strict := true, skip := false, width := 16, height := 16, inFmt := 4, vector := 0, inSlots := 2, padval := 0, inPitch := 64, inBase := 0,
    inSlot := 4096, recBase := 8192, nodes := [gnode]
    edges := [{ src := 0xFE, port := 0, dst := 0, mode := 1, lbay := 0, pos := 0, sig := 0, arrival := 0, base := 0, slot := 4096, slots := 2 }] }
def gf (bands : Tab Nat) (ts : Option Nat) : GFrame := { f := 0, rows := 16, order := 0, bands := bands, endTs := ts }
def sGraph (en : Bool) (fs : List GFrame) : State :=
  { sF with pdks := [(0, { st := .running, img := some { img with graphs := [gr_] } })], tmb := { graphs := [(0, { en := en, frames := fs })], order := 1 } }
theorem witness_FrameGraphs : Heeds (sGraph true []) (0 + 1) none ∧ ((sGraph false []).graph 0 0).en = false ∧
    ((sGraph false []).pdk 0).st = .running ∧ (sGraph false []).graphOf 0 0 = some gr_ ∧ ((sGraph true []).graph 0 0).en = true ∧
    (sGraph false []).graphOf 0 1 = none ∧ gr_.inSlots ≤ ((sGraph true [gf [] none, gf [] none]).graph 0 0).frames.length ∧
    ((sGraph true [gf [] none]).graph 0 0).frames.length < gr_.inSlots ∧ (15 : Nat) ≠ gr_.height ∧ gr_.strict = true ∧
    (({ tmb := { engines := [(1, { unit_ := .quarantined })] } } : State).engine 1).unit_ ≠ .online ∧
    State.firstBand ((sGraph true []).eligibleBands 1) = none ∧ ((sGraph true [gf [] none]).engine 1).unit_ = .online ∧
    State.firstBand ((sGraph true [gf [] none]).eligibleBands 1) = some (0, 0, 0, 0) ∧ gr_.nodes[0]? = some gnode ∧
    ((sGraph true [gf [] none]).graph 0 0).frames.find? (fun y => y.order = 0) = some (gf [] none) ∧ frameDone gr_ (gf [] none) = false ∧
    frameDone gr_ (gf [(0, 1)] (some 9)) = true ∧ (gf [(0, 1)] (some 9)).endTs = some 9 ∧ ((sGraph true []).graph 0 0).frames = [] := by
  decide +kernel
def kept_ : Kept := { pdk := 0, ring := none, lbay := 0, pos := 0, ctr := 3, cnt := 4 }
theorem witness_FrameGraphs_signals : (State.reset.bay 0).job = none ∧ (s0.bay (0 / 16)).job = some (0, 0) ∧
    ([kept_].filter (fun k => k.pdk = 0 && s0.pdkCore 0 k.lbay k.pos = some 0)) = [kept_] := by decide +kernel

/-! ### The management controller -/

/-- A controller that is up and hears the I3C transport. -/
def sMg (m : Mgt) : State := { dev := { aux := true, booted := true, phase := .init }, mgt := m, sec := { rng := { running := true } } }
def rec_ : LogRec := { seq := 1, boot := 1, ts := 0, kind := 0, index := 0, status := 0, severity := 0, event := 1, paddock := 0, detail := [] }
theorem witness_MctpAndPldmQueries : State.reset.heard .i3c = false ∧ (sMg {}).heard .i3c = true ∧ Transport.i3c ≠ .mailbox ∧
    (0x7E : Byte) ∈ ([0x00, 0x01, 0x05, 0x06, 0x7E, 0xFF] : List Byte) ∧ (2 : Byte) ∉ ([0x00, 0x01, 0x05, 0x06, 0x7E, 0xFF] : List Byte) ∧
    (5 : Byte) ∈ ([0, 2, 5] : List Byte) ∧ (1 : Byte) ∉ ([0, 2, 5] : List Byte) ∧ (0x33 : BitVec 16).toNat ∈ State.numericIds ∧
    (0x34 : BitVec 16).toNat ∉ State.numericIds ∧ (sMg {}).stateReading (0x100 : BitVec 16).toNat = some 2 ∧
    (sMg {}).stateReading (0x101 : BitVec 16).toNat = none ∧ (sMg {}).mgt.events = [] ∧ (sMg { events := [rec_] }).mgt.events = rec_ :: [] := by decide

/-- An update in each phase. Whether a component's image verifies and whether the matrix lists a combination is opaque: the two cases of
each exclude each other, and one of the two holds. -/
def sFw (f : Fw) : State := sMg { fw := f }
def upd (ph : FwPh) : Fw := { ph := ph, agent := some 3, comp := 1, size := 2, buf := [1, 2] }
theorem witness_FirmwareUpdate : Transport.i3c ≠ .mailbox ∧ (sFw (upd .ready)).heard .i3c = true ∧ (sFw {}).mgt.fw.ph = .idle ∧
    (sFw (upd .learn)).mgt.fw.ph = .learn ∧ ¬(sFw {}).mgt.fw.agent = some 3 ∧ (upd .ready).agent = some 3 ∧
    ((1 : BitVec 16).toNat = 1 ∨ (1 : BitVec 16).toNat = 2) ∧ (1 : Nat) ≠ 0 ∧ (sFw (upd .ready)).mgt.fw.ph = .ready ∧
    (sFw (upd .download)).mgt.fw.ph = .download ∧ (sFw (upd .download)).mgt.fw.buf.length = (sFw (upd .download)).mgt.fw.size ∧
    ({ upd .download with buf := [1] } : Fw).buf.length ≠ (upd .download).size ∧ (sFw (upd .verify)).mgt.fw.ph = .verify ∧
    (sFw (upd .apply)).mgt.fw.ph = .apply := by decide

/-- A key whose digest slot 0 holds, and its signature over nonce 5 and a byte. -/
def authKey : List Byte :=
  leBytes 48 0x86bc5d6478060603cd98dc15e5752aeb245d4e5c31b0b61e32a0061620d068a3a0c3ed196c47ced3ec679dde1495d7e1 ++
    leBytes 48 0xc8084e50c9020fb6d7d9a76e4508eb95a2e6dcde3c760d1be48b0b026a02bdff5287da64eb5785013b82bf87cd531d20
def authSig : List Byte :=
  let e := 0xafdaf7070a5144184872a508ff567c6ad34a8705b3e501a1e2924918a120a1aef33730e62876f7b8350efc8dff12eed
  leBytes 48 e ++ leBytes 48 e
def auth : Auth := { nonce := 5, key := authKey, sig := authSig, signed := leBytes 8 5 ++ [3] }
def keyDigest : List Byte :=
  Crypto.beBytes 48 0xd8af9bc34c2ded6c68cba038f782860d8d0e4157a02d2274f5bcf7bb7a47aa390281254f8f6fa65ad6e6453e643cdc54
def sKey (used : Bool) (now : Nat) (keys : Tab (List Byte)) : State :=
  { sMg { nonces := [(2, { value := 5, issued := 7, used := used })], keys := keys, timer := now } with
    dev := { aux := true, booted := true, phase := .init, computeRails := true } }
theorem sKey_cred : (sKey false 10000000007 [(0, keyDigest)]).credOk .i3c auth = true := by decide +kernel
theorem witness_OtvedaCommands : Transport.i3c ≠ .mailbox ∧ (sKey false 9 [(0, keyDigest)]).heard .i3c = true ∧
    (sKey false 9 [(0, keyDigest)]).drbgReady = true ∧ State.reset.drbgReady = false ∧ 16 < 17 ∧ Img.isPublished 0x4001 = false ∧
    (sKey true 9 [(0, keyDigest)]).credOk .i3c auth = false ∧ (sKey false 10000000008 [(0, keyDigest)]).credOk .i3c auth = false ∧
    (3 : Nat) < 4 ∧ keyDigest.length = 48 ∧ (sKey false 9 [(0, keyDigest)]).enrolState = true ∧
    ({ sKey false 9 [] with dev := { phase := .ready } } : State).enrolState = false ∧ (sKey false 9 [(0, keyDigest)]).mgt.keys.length = 1 ∧
    thas (sKey false 9 [(0, keyDigest)]).mgt.keys 0 = true ∧ thas (sKey false 9 [(0, keyDigest)]).mgt.keys 3 = false ∧
    (0x8000 : BitVec 16) ≠ 0 ∧ bitAt (0x8000 : BitVec 16).toNat 15 = true ∧ (sKey false 9 []).bayOffline 15 = false ∧
    (sKey false 9 []).unitSt (.bay 0) ≠ .quarantined := by decide +kernel
def sQuar : State := { bays := [(15, { unit_ := .quarantined })], ras := { stackSt := [(5, .quarantined)], coreSt := [(250, .quarantined)] }
                       fab := { ports := [(7, { unit_ := .quarantined })] } }
theorem witness_OtvedaCommands_release : sQuar.unitSt (.stack 5) = .quarantined ∧ sQuar.unitSt (.port 7) = .quarantined ∧
    sQuar.unitSt (.bay 15) = .quarantined ∧ sQuar.unitSt (.core 250) = .quarantined := by decide

def bt (started : Bool) : BayTest := { calib := false, force := false, started := started, release := false }
def sTest (started : Bool) (left : List Nat) : State :=
  { sMg { tests := [{ tr := .i3c, calib := false, left := left, results := [] }] } with
    dev := { aux := true, booted := true, phase := .ready, computeRails := true }
    bays := [(4, { test := some (bt started) })] }
theorem witness_RestartsTestsAndViews : (sMg {}).ctrlUp = true ∧ State.reset.ctrlUp = false ∧ (sMg { restart := true }).mgt.restart = true ∧
    (State.reset.bay 4).test = none ∧ ((sTest false [4, 5]).bay 4).test = some (bt false) ∧ (sTest false [4, 5]).testTurn 4 = true ∧
    (sTest false [4, 5]).bayOffline 4 = false ∧ ((sTest false [4, 5]).bay 4).unit_ ≠ .quarantined ∧ ((sTest false [4, 5]).bay 4).holder = none ∧
    ((sTest false [4, 5]).bay 4).pendOff = false ∧ ((sTest false [4, 5]).bay 4).job = none ∧ ((sTest false [4, 5]).bay 4).stopping = none ∧ (sTest false [3, 4]).testTurn 4 = false ∧ ((sTest true [4]).bay 4).test = some (bt true) ∧
    (bt true).started = true := by decide
def sView (t : Nat) : State := { sMg { diff := [(18, 5)], timer := t } with fab := { ports := [(2, { unit_ := .online })] } }
theorem witness_RestartsTestsAndViews_view : State.unitOfCode 3 ≠ ((sView 0).port 2).unit_ ∧ ((sView 0).port 2).unit_ ≠ .quarantined ∧
    tfind (sView 10000006).mgt.diff (16 + 2) = some 5 ∧ 10000000 < (sView 10000006).mgt.timer - 5 ∧ tfind (sMg {}).mgt.diff (16 + 2) = none ∧
    [((0x30 : Nat), (7 : Nat)), (0x30, 8)] = [(0x30, 7)] ++ (0x30, 8) :: [] ∧ 0x30 ∈ State.numericIds := by decide

theorem witness_StepKeepsMemoryAndLimit : step State.reset = .next State.reset.idleTick ∧ State.reset.memOk ∧ State.reset.capOk :=
  ⟨rfl, by decide, by decide⟩

/-! ### Values worked out from the spec by hand -/

/-- What is in flight on core 0 after command `i` with registers `x`; where the program counter goes and when; the faults. -/
def acts (c : Core) (i : Instr) : List Act := match exec i (coreSt c {}) with
  | .next t => (t.core 0).flight.map (·.act)
  | _ => []
def x2 (a b : Word) : Core := { x := [(1, a), (2, b)], pc := 10 }
def after {α : Type} (s : State) (i : Instr) (f : State → α) (d : α) : α := match exec i s with
  | .next t => f t
  | _ => d

/-- 07 R212: wrapping, signed and unsigned comparison, the shift amount's low six bits, sign extension of immediates. -/
theorem test_add_wraps : acts (x2 (2 ^ 64 - 1) 2) (.add 0 false 3 1 2) = [.setX 3 1] := by decide +kernel
theorem test_slt_signed : acts (x2 (2 ^ 64 - 1) 1) (.slt 0 false 3 1 2) = [.setX 3 1] := by decide +kernel
theorem test_sltu_unsigned : acts (x2 (2 ^ 64 - 1) 1) (.sltu 0 false 3 1 2) = [.setX 3 0] := by decide +kernel
theorem test_min_signed : acts (x2 (2 ^ 64 - 1) 1) (.min 0 false 3 1 2) = [.setX 3 (2 ^ 64 - 1)] := by decide +kernel
theorem test_sra_low_six_bits : acts (x2 (2 ^ 63) 65) (.sra 0 false 3 1 2) = [.setX 3 (2 ^ 63 + 2 ^ 62)] := by decide +kernel
theorem test_srl_zero_fill : acts (x2 (2 ^ 63) 65) (.srl 0 false 3 1 2) = [.setX 3 (2 ^ 62)] := by decide +kernel
theorem test_mul_low_half : acts (x2 (2 ^ 63 + 3) 2) (.mul 0 false 3 1 2) = [.setX 3 6] := by decide +kernel
theorem test_addi_sign_extends : acts (x2 5 0) (.addi 0 false 3 1 0x3FFF) = [.setX 3 4] := by decide +kernel
theorem test_andi_sign_extends : acts (x2 (2 ^ 63 + 1) 0) (.andi 0 false 3 1 0x3FFE) = [.setX 3 (2 ^ 63)] := by decide +kernel
theorem test_li_sign_extends : acts {} (.li 0 false 3 0x40000) = [.setX 3 (2 ^ 64 - 2 ^ 18)] := by decide +kernel
theorem test_lis_keeps_the_rest : acts (x2 0x1111222233334444 0) (.lis 0 false 1 2 0xABCD) = [.setX 1 0x1111ABCD33334444] := by decide +kernel
theorem test_amov_low_forty_bits : acts (x2 (2 ^ 40 + 7) 0) (.amov 0 false 3 1) = [.setA 3 7] := by decide +kernel
theorem test_aaddi_wraps : acts { a := [(1, 0)] } (.aaddi 0 false 3 1 0x3FFF) = [.setA 3 (2 ^ 40 - 1)] := by decide +kernel
/-- 07 R212, R213: JAL links PC + 3; the transfer comes after two delay bundles, from the transfer's own index. -/
theorem test_jal_links : acts (x2 0 0) (.jal 0 false 3 0x7FFFE) = [.setX 3 13] := by decide +kernel
theorem test_jal_target : after (coreSt (x2 0 0) {}) (.jal 0 false 3 0x7FFFE) (fun t => ((t.core 0).xfer, (t.core 0).pc)) (none, 0) =
    (some (2, 8), 11) := by decide +kernel
theorem test_bge_signed_not_taken : after (coreSt (x2 (2 ^ 64 - 1) 0) {}) (.bge 0 false 1 2 5) (fun t => (t.core 0).xfer) (some (0, 0)) = none := by
  decide +kernel
theorem test_bgeu_taken : after (coreSt (x2 (2 ^ 64 - 1) 0) {}) (.bgeu 0 false 1 2 5) (fun t => (t.core 0).xfer) none = some (2, 15) := by decide +kernel

/-- A row of one value in each of its first lanes, the others zero. -/
def lanes (w : Nat) (vs : List Nat) : Row := BitVec.ofNat 4096 (vs.reverse.foldl (fun a v => a * 2 ^ w + v) 0)
def w2 (a b : Row) : Core := { w := [(1, a), (2, b)] }
/-- Row register 3 as the acts set it, its first `k` lanes of `w` bits. -/
def got (as : List Act) (w k : Nat) : List Nat := match as.find? (fun a => a ≠ .satFlag) with
  | some (.setW 3 v) => (List.range k).map (fun i => v.toNat / 2 ^ (w * i) % 2 ^ w)
  | _ => []
/-- 07 R220: INT8 saturates, INT32 wraps, −0 is below +0, the canonical NaN; 1 + 2⁻²⁴ rounds to even. -/
theorem test_vadd_int8_saturates : got (acts (w2 (lanes 8 [100, 0x80, 1]) (lanes 8 [100, 0xFF, 1])) (.vadd 0 false 3 1 2 3)) 8 3 =
    [127, 0x80, 2] := by decide +kernel
theorem test_vadd_int8_sets_int_sat : Act.satFlag ∈ acts (w2 (lanes 8 [100]) (lanes 8 [100])) (.vadd 0 false 3 1 2 3) := by decide +kernel
theorem test_vsub_int32_wraps : got (acts (w2 (lanes 32 [0x80000000]) (lanes 32 [1])) (.vsub 0 false 3 1 2 2)) 32 1 = [0x7FFFFFFF] := by
  decide +kernel
theorem test_vadd_fp32_rounds_to_even : got (acts (w2 (lanes 32 [0x3F800000, 0x7F800000]) (lanes 32 [0x33800000, 0xFF800000]))
    (.vadd 0 false 3 1 2 0)) 32 2 = [0x3F800000, 0x7FC00000] := by decide +kernel
theorem test_vmax_signed_zeros : got (acts (w2 (lanes 32 [0x80000000, 0x7F800001]) (lanes 32 [0, 0])) (.vmax 0 false 3 1 2 0)) 32 2 =
    [0, 0x7FC00000] := by decide +kernel
/-- 07 R218: a lane of −0.0 selects ws1; 07 R220: 1000.0 to INT8 is 127, and 2.5 rounds to 2. -/
theorem test_vsel_minus_zero : got (acts { w := [(1, lanes 32 [7, 7]), (2, lanes 32 [8, 8]), (4, lanes 32 [0x80000000, 0])] }
    (.vsel 0 false 3 1 2 4 0)) 32 2 = [7, 8] := by decide +kernel
theorem test_vcvt_int8 : got (acts { w := [(4, lanes 32 [0x447A0000, 0x40200000, 0x7FC00000])] } (.vcvt 0 false 3 4 0 3 0 false)) 8 3 =
    [127, 2, 0] := by decide +kernel

/-- 07 R208-R222: ADD x3, x1, x2; VADD w4, w5, w6 in FP32; LDR w7 from a2 + 9. Bit 23 of an R form is reserved. -/
theorem test_bundle : Bundle.decode (0x00082301 + 0x65401 * 2 ^ 32 + 0x124701 * 2 ^ 80) =
    some [.alu .add 3 1 2, .lane .add 4 5 6 0 0, .ldr 7 2 9] := by decide +kernel
theorem test_bundle_reserved : Bundle.decode 0x00882301 = none := by decide +kernel

/-- 02 R60: a limit is clamped to 500 and to 900. -/
theorem test_pwr_cap_low : after .reset (.pwrCapWrite 499) (fun t => (t.dev.capWatts, t.dev.clamped)) (0, false) = (500, true) := by decide +kernel
theorem test_pwr_cap_high : after .reset (.pwrCapWrite 901) (fun t => (t.dev.capWatts, t.dev.clamped)) (0, false) = (900, true) := by decide +kernel
/-- 02 R52: N = 109 is not applied. -/
theorem test_pace_reject : after sPace (.pdkPaceWrite 0 0x6D01 none) (fun t => ((t.pdk 0).paceEn, (t.pdk 0).paceReject)) (true, false) =
    (false, true) := by decide +kernel
theorem test_pace_last : after sPace (.pdkPaceWrite 0 0x6C01 none) (fun t => ((t.pdk 0).paceEn, (t.pdk 0).paceN)) (false, 0) = (true, 108) := by
  decide +kernel
/-- 01 R28: at the first unpopulated address, and across it. -/
theorem test_memory_above : after sMem (.pkgMemAccess (wr 0x1800000000)) (·.out) [] = [.memDone 1 0x13 []] := by decide +kernel
theorem test_memory_across : after sMem (.pkgMemAccess (wr 0x17FFFFFFFF)) (·.out) [] = [.memDone 1 0x12 []] := by decide +kernel
/-- 06 R176, R475: the forty-first equal sample fails. -/
theorem test_repetition_count : after (sEnt { running := true, rctRun := 40, rctVal := 7 }) (.entropySample 7)
    (fun t => (t.sec.rng.running, t.sec.rng.rctFail)) (true, false) = (false, true) := by decide +kernel
/-- 13 R384: the test vector that SipHash's paper prints, key 00 to 0F, input 00 to 0E; 00 R7, 04 R114: SHA-384 of "abc" (FIPS 180-4). -/
theorem test_siphash : Crypto.sipHash 0x0706050403020100 0x0F0E0D0C0B0A0908 ((List.range 15).map (BitVec.ofNat 8)) = 0xa129ca6149be45e5 := by
  decide +kernel
theorem test_sha384 : Crypto.sha384Bytes [0x61, 0x62, 0x63] = Crypto.beBytes 48
    0xcb00753f45a35e8bb5a03d699ac65007272c32ab0eded1631a8b605a43ff5bed8086072ba1e7cc2358baeca134c825a7 := by decide +kernel

end Sys2Proof.Tests
end

section
/-! Proofs for the statements of chapter 00: the queue's front command, and accesses to BAR0. -/

namespace Sys2Proof.Machine

/-- A number's little-endian bytes are as many as were asked for. -/
@[simp] theorem length_leBytes (n v : Nat) : (leBytes n v).length = n := by
  induction n generalizing v with
  | zero => rfl
  | succ n ih => simp [leBytes, ih]

theorem exec_registerWrite (s : State) (fn : Fn) (off size : Nat) (v : Word) (ide : Option Nat) :
    exec (.registerWrite fn off size v ide) s = .next (s.hostRegWrite fn off size v.toNat ide) := rfl

theorem exec_rcRead (s : State) (fn : Fn) (off size : Nat) (ide : Option Nat) :
    exec (.rcRead fn off size ide) s = .next (s.hostRegRead fn off size ide) := rfl

namespace State

variable {s : State} {fn off size : Nat} {write : Bool} {ide : Option Nat}

/-! ### Which check an access to BAR0 ends at (03 R86, R91, R92; 06 R189, R203) -/

/-- A request to BAR0 that a function answers for: the link is configured, the function is there and not in D3hot, and the bytes are
inside its BAR. -/
structure Reaches (s : State) (fn off size : Nat) : Prop where
  linked : s.dev.cfgReady = true
  awake  : (s.fnCfg fn).d3 = false
  inside : off + size ≤ barSize fn
  there  : fn = 0 ∨ s.vfOn (fn - 1) = true

theorem access_silent (h : s.dev.cfgReady = false) : s.access fn off size write ide = .silent := by
  simp [access, h]

theorem access_unsupported (hl : s.dev.cfgReady = true)
    (h : barSize fn < off + size ∨ ¬(fn = 0 ∨ s.vfOn (fn - 1) = true)) : s.access fn off size write ide = .unsupported := by
  rcases h with h | h
  · simp [access, hl, h]
  · simp only [not_or, Bool.not_eq_true] at h
    simp [access, hl, h]

/-- A request that a function answers for goes on to the checks of key, stream, alignment and bay window, in this order. -/
theorem Reaches.access_eq (h : s.Reaches fn off size) :
    s.access fn off size write ide =
      if s.keyGone ide then .retired
      else if s.ideBad fn ide then .wrongStream
      else if (size ≠ 4 && size ≠ 8) || off % size ≠ 0 then .refused Status.alignFault
      else if fn = 0 && s.windowShut off write then .refused Status.accessDenied
      else .ok := by
  have hfail : ((fn ≠ 0 && !s.vfOn (fn - 1)) || (s.fnCfg fn).d3 || barSize fn < off + size) = false := by
    have hin := h.inside
    rcases h.there with rfl | ht
    · simpa [h.awake] using hin
    · simpa [h.awake, ht] using hin
  unfold access
  rw [if_neg (by simp [h.linked]), if_neg (ne_true_of_eq_false hfail)]

theorem Reaches.access_retired (h : s.Reaches fn off size) (hk : s.keyGone ide = true) :
    s.access fn off size write ide = .retired := by
  simp [h.access_eq, hk]

theorem Reaches.access_wrongStream (h : s.Reaches fn off size) (hk : s.keyGone ide = false) (hi : s.ideBad fn ide = true) :
    s.access fn off size write ide = .wrongStream := by
  simp [h.access_eq, hk, hi]

theorem Reaches.access_misaligned (h : s.Reaches fn off size) (hh : Claims.Heeds s fn ide)
    (hw : (size ≠ 4 ∧ size ≠ 8) ∨ off % size ≠ 0) : s.access fn off size write ide = .refused Status.alignFault := by
  obtain ⟨hkey, hstream⟩ := hh
  have hw' : ((size ≠ 4 && size ≠ 8) || off % size ≠ 0) = true := by simpa using hw
  rw [h.access_eq, hkey, hstream, if_neg Bool.false_ne_true, if_neg Bool.false_ne_true, if_pos hw']

theorem Reaches.access_ok (h : s.Reaches fn off size) (hh : Claims.Heeds s fn ide)
    (hw : ¬((size ≠ 4 ∧ size ≠ 8) ∨ off % size ≠ 0)) (hopen : fn = 0 → s.windowShut off write = false) :
    s.access fn off size write ide = .ok := by
  obtain ⟨hkey, hstream⟩ := hh
  have hw' : ¬((size ≠ 4 && size ≠ 8) || off % size ≠ 0) = true := by simpa using hw
  have hopen' : ¬(fn = 0 && s.windowShut off write) = true := by simpa using hopen
  rw [h.access_eq, hkey, hstream, if_neg Bool.false_ne_true, if_neg Bool.false_ne_true, if_neg hw', if_neg hopen']

/-- No window of core state is closed outside the bay windows (03 R91). -/
theorem windowShut_outside (h : off < 0x1000000 ∨ 0x2000000 ≤ off) : s.windowShut off write = false := by
  have : (decide (0x1000000 ≤ off) && decide (off < 0x2000000)) = false := by simp; omega
  simp [windowShut, this]

@[simp] theorem ideBad_pf0 : s.ideBad 0 ide = false := rfl

/-- An aligned access of PF0 below its bay windows, under keys that stand. -/
theorem access_pf0 (hl : s.dev.cfgReady = true) (hd : (s.fnCfg 0).d3 = false) (hk : s.keyGone ide = false)
    (hs : size = 4 ∨ size = 8) (ha : off % size = 0) (ho : off < 0x1000000) : s.access 0 off size write ide = .ok := by
  have hr : s.Reaches 0 off size := ⟨hl, hd, by simp only [barSize, if_true]; omega, .inl rfl⟩
  exact hr.access_ok ⟨hk, ideBad_pf0⟩ (by omega) (fun _ => windowShut_outside (.inl ho))

/-! ### What the host's access does after its check -/

theorem hostRegWrite_of_ok {v : Nat} (h : s.access fn off size true ide = .ok) :
    s.hostRegWrite fn off size v ide = s.regWrite fn off size v := by
  simp [hostRegWrite, h]

theorem hostRegRead_of_ok (h : s.access fn off size false ide = .ok) :
    s.hostRegRead fn off size ide =
      (s.regRead fn off size).2.send (.cpl fn .success (leBytes size (s.regRead fn off size).1)) := by
  simp [hostRegRead, h]

/-! ### What a read of a register leaves alone -/

/-- What no read of a register writes: package memory, the messages sent, and the queue. -/
def unread (s : State) : List Host.Cell × List Out × List Instr := (s.mem, s.out, s.pending)

theorem unread_ite {c : Prop} [Decidable c] {a b t : State} (ha : a.unread = t.unread) (hb : b.unread = t.unread) :
    (if c then a else b).unread = t.unread := by
  split
  · exact ha
  · exact hb

theorem pfClear_unread (o : Nat) (lo hi : Bool) : (s.pfClear o lo hi).unread = s.unread := by
  unfold pfClear
  repeat' apply unread_ite
  all_goals rfl

theorem vfClear_unread (p o : Nat) (lo hi : Bool) : (s.vfClear p o lo hi).unread = s.unread := by
  unfold vfClear
  repeat' apply unread_ite
  all_goals rfl

/-- A read of a register clears RC fields and moves the latch (00 R471), and these are none of them. -/
theorem regRead_unread : (s.regRead fn off size).2.unread = s.unread := by
  unfold regRead
  extract_lets o v lo hi clear latch
  have hclear : (clear s).unread = s.unread := unread_ite (pfClear_unread o lo hi) (vfClear_unread _ o lo hi)
  clear_value clear
  split
  · exact hclear
  · split_ifs
    · exact hclear
    · exact hclear
    · split <;> rfl

/-- A read that passes its check completes with as many bytes as it asks for, and leaves memory and the queue alone. -/
theorem hostRegRead_completes (h : s.access fn off size false ide = .ok) :
    ∃ data, data.length = size ∧ (s.hostRegRead fn off size ide).out = s.out ++ [.cpl fn .success data] ∧
      (s.hostRegRead fn off size ide).mem = s.mem ∧ (s.hostRegRead fn off size ide).pending = s.pending := by
  have hkeep : (s.regRead fn off size).2.unread = s.unread := regRead_unread
  simp only [unread, Prod.mk.injEq] at hkeep
  obtain ⟨hmem, hout, hpending⟩ := hkeep
  rw [hostRegRead_of_ok h]
  exact ⟨_, length_leBytes _ _, by rw [send_out, hout], hmem, hpending⟩

/-! ### Registers of PF0 -/

/-- An 8-byte read of HIF_ERR returns it, clears it and drops its latch (03 R97; 00 R471). -/
theorem regRead_hifErr : s.regRead 0 0x20 8 =
    (s.hif.err.toNat, { s with hif := { s.hif with err := 0, latch := tdel s.hif.latch 0 } }) := rfl

/-- A read of the low half of SCH_EVENT_PDK returns and clears that half (log 70). -/
theorem regRead_schEventPdk_low : s.regRead 0 0x300808 4 =
    (s.sch.eventPdk.toNat % 2 ^ 32, { s with sch := { s.sch with eventPdk := s.sch.eventPdk &&& 0xFFFFFFFF00000000 } }) := by
  simp [regRead, latchKey, reg, pfReg, pfClear, BitVec.and_assoc]

/-- A read of the high half of SCH_EVENT_PDK returns and clears that half (log 70). -/
theorem regRead_schEventPdk_high : s.regRead 0 0x30080C 4 =
    (s.sch.eventPdk.toNat / 2 ^ 32, { s with sch := { s.sch with eventPdk := s.sch.eventPdk &&& 0xFFFFFFFF } }) := by
  simp [regRead, latchKey, reg, pfReg, pfClear, BitVec.and_assoc]

/-- A write of 8 bytes that PF0 accepts acts on the whole register: PF0 has no bit that a 1 clears. -/
theorem regWrite_pf0_whole {v : Nat} (ho : off % 8 = 0) (hv : v < 2 ^ 64) : s.regWrite 0 off 8 v = s.pfPut off true true v := by
  have hoff : off / 8 * 8 = off := Nat.div_mul_cancel (Nat.dvd_of_mod_eq_zero ho)
  have hmod : v % 18446744073709551616 = v := Nat.mod_eq_of_lt hv
  simp [regWrite, onlyClears, ho, hoff, hmod]

/-- A write of PWR_CAP sets the power limit (02 R60). -/
theorem pfPut_pwrCap (hi : Bool) (v : Nat) : s.pfPut 0x800010 true hi v = s.pwrCapWrite v := by
  simp [pfPut]

/-- PF0 has no register at 0x28. -/
theorem pfPut_reserved (lo hi : Bool) (v : Nat) : s.pfPut 0x28 lo hi v = s := by
  simp [pfPut]

end State

end Sys2Proof.Machine

namespace Sys2Proof.Proofs

open Sys2Proof Sys2Proof.Machine Sys2Proof.Claims

/-- Settles O1: `step` takes the command and the rest of the queue apart. -/
theorem stepRunsTheFrontCommand : Obligations.StepRunsTheFrontCommand := by
  intro s c rest h
  simp only [step, h]

section

variable {s : State} {ide : Option Nat} {off size : Nat}

/-- A read of PF0 below its bay windows completes with the register's value, in the state that the read leaves. -/
theorem gives_rcRead_pf0 {P : State → Prop} (hl : s.dev.cfgReady = true) (hd : (s.fnCfg 0).d3 = false) (hk : s.keyGone ide = false)
    (hs : size = 4 ∨ size = 8) (ha : off % size = 0) (ho : off < 0x1000000)
    (hP : P ((s.regRead 0 off size).2.send (.cpl 0 .success (leBytes size (s.regRead 0 off size).1)))) :
    Gives (.rcRead 0 off size ide) s P := by
  refine ⟨_, rfl, ?_⟩
  have hread := State.hostRegRead_of_ok (State.access_pf0 (write := false) hl hd hk hs ha ho)
  exact hread ▸ hP

/-- A write of 8 bytes of PF0 below its bay windows acts on the whole register. -/
theorem exec_registerWrite_pf0 (hl : s.dev.cfgReady = true) (hd : (s.fnCfg 0).d3 = false) (hk : s.keyGone ide = false)
    (ha : off % 8 = 0) (ho : off < 0x1000000) (v : Word) :
    exec (.registerWrite 0 off 8 v ide) s = .next (s.pfPut off true true v.toNat) := by
  have hok := State.access_pf0 (write := true) hl hd hk (.inr rfl) ha ho
  exact congrArg _ ((State.hostRegWrite_of_ok hok).trans (State.regWrite_pf0_whole ha v.isLt))

end

/-- Settles O40: each case is the check that the access ends at, and for the fixed registers what their read or write does. -/
theorem hostRegisterAccesses : Obligations.HostRegisterAccesses := by
  intro s fn off size v ide bar wrong there
  have hbar : bar = State.barSize fn := by simp only [bar, State.barSize, Fin.val_eq_zero_iff]
  have hthere : there = ((fn : Nat) = 0 ∨ s.vfOn (fn - 1) = true) := by simp only [there, Fin.val_eq_zero_iff]
  rw [hthere, hbar]
  refine ⟨fun hoff => ?silent, fun hl hd => ⟨fun hout => ?unsupported, fun hin hth hk => ?retired, fun hin hth hk hi => ?wrongStream,
    fun hin hth hh => ⟨fun hw => ?misaligned, fun hw hopen => ?answered⟩⟩, fun hl hd hk => ?registers⟩
  case silent =>
    simp [exec_registerWrite, exec_rcRead, State.hostRegWrite, State.hostRegRead, State.access_silent hoff]
  case unsupported =>
    simp [exec_registerWrite, exec_rcRead, State.hostRegWrite, State.hostRegRead, State.access_unsupported hl hout]
  case registers =>
    refine ⟨gives_rcRead_pf0 hl hd hk (.inr rfl) rfl (by decide) ?_, gives_rcRead_pf0 hl hd hk (.inl rfl) rfl (by decide) ?_,
      gives_rcRead_pf0 hl hd hk (.inl rfl) rfl (by decide) ?_, ?_, ?_⟩
    · rw [State.regRead_hifErr]
      exact ⟨rfl, rfl⟩
    · rw [State.regRead_schEventPdk_low]
      exact ⟨rfl, rfl⟩
    · rw [State.regRead_schEventPdk_high]
      exact ⟨rfl, rfl⟩
    · rw [exec_registerWrite_pf0 hl hd hk rfl (by decide), State.pfPut_pwrCap]
    · rw [exec_registerWrite_pf0 hl hd hk rfl (by decide), State.pfPut_reserved]
  all_goals have hr : s.Reaches fn off size := ⟨hl, hd, hin, hth⟩
  case retired =>
    simp [exec_registerWrite, exec_rcRead, State.hostRegWrite, State.hostRegRead, hr.access_retired hk]
  case wrongStream =>
    simp [exec_registerWrite, exec_rcRead, State.hostRegWrite, State.hostRegRead, hr.access_wrongStream hk hi, State.ideRefuse]
  case misaligned =>
    simp [exec_registerWrite, exec_rcRead, State.hostRegWrite, State.hostRegRead, hr.access_misaligned hh hw]
  case answered =>
    have hshut (h0 : (fn : Nat) = 0) : s.windowShut off false = false := State.windowShut_outside (hopen.resolve_left (by omega))
    exact ⟨_, rfl, State.hostRegRead_completes (hr.access_ok hh hw hshut)⟩

end Sys2Proof.Proofs
end

section
/-! Proofs for the statement of chapter 01: a request to package memory. -/

namespace Sys2Proof.Machine

/-! ### Bytes and tables -/

/-- A function that keeps the default, applied to every entry, applies to what a key reads as. -/
theorem tget_map {α : Type} {d : α} {g : α → α} (hd : g d = d) (t : Tab α) (k : Nat) :
    tget d (t.map (fun e => (e.1, g e.2))) k = g (tget d t k) := by
  induction t with
  | nil => exact hd.symm
  | cons e t ih =>
    simp only [List.map_cons, tget, ih]
    split <;> rfl

theorem readBytes_eq_map (m : List Host.Cell) (a n : Nat) :
    readBytes m a n = (List.range n).map (fun i => readByte m (a + i)) := by
  induction n generalizing a with
  | zero => rfl
  | succ n ih =>
    simp [readBytes, ih, List.range_succ_eq_map, Nat.add_assoc, Nat.add_comm 1]

/-- A write changes the bytes of its extent that no unrepairable row backs (16 R461), and no others. -/
theorem readByte_storeBytes (dead : List Nat) (m : List Host.Cell) (a b : Nat) (bs : List Byte) :
    readByte (storeBytes dead m a bs) b =
      if a ≤ b ∧ b < a + bs.length ∧ b / 4096 ∉ dead then bs.getD (b - a) 0 else readByte m b := by
  induction bs generalizing m a with
  | nil => rw [if_neg (by simp only [List.length_nil]; omega)]; rfl
  | cons v t ih =>
    rw [storeBytes, ih, List.length_cons]
    have hother (h : b ≠ a) : readByte (if dead.contains (a / 4096) = true then m else writeByte m a v) b = readByte m b := by
      split
      · rfl
      · exact readByte_writeByte_ne _ _ _ _ h
    rcases Nat.lt_trichotomy b a with hb | rfl | hb
    · rw [hother (by omega), if_neg (fun h => by omega), if_neg (fun h => by omega)]
    · by_cases hdead : b / 4096 ∈ dead <;> simp [hdead]
    · have hsub : b - a = b - (a + 1) + 1 := by omega
      rw [hsub, List.getD_cons_succ, hother (by omega)]
      exact if_congr (and_congr (by omega) (and_congr (by omega) Iff.rfl)) rfl rfl

/-! ### Extents within one unit -/

theorem mem_unitsOf {size a len u : Nat} (hl : len ≠ 0) : u ∈ unitsOf size a len ↔ a / size ≤ u ∧ u ≤ (a + len - 1) / size := by
  have hle : a / size ≤ (a + len - 1) / size := Nat.div_le_div_right (by omega)
  simp only [unitsOf, Nat.max_eq_left (Nat.one_le_iff_ne_zero.mpr hl), List.mem_map, List.mem_range]
  constructor
  · rintro ⟨i, hi, rfl⟩
    omega
  · exact fun h => ⟨u - a / size, by omega, by omega⟩

theorem unitsOf_within {size a len : Nat} (hl : len ≠ 0) (h : a / size = (a + len - 1) / size) : unitsOf size a len = [a / size] := by
  simp [unitsOf, Nat.max_eq_left (Nat.one_le_iff_ne_zero.mpr hl), ← h]

/-- What lies within one granule lies within one frame (01 R26, R27). -/
theorem frame_of_within {a len : Nat} (h : a / 4096 = (a + len - 1) / 4096) : a / frameSize = (a + len - 1) / frameSize := by
  have hsplit (x : Nat) : x / frameSize = x / 4096 / 512 := (Nat.div_div_eq_div_mul x 4096 512).symm
  rw [hsplit, hsplit, h]

/-- An extent within one granule is one piece (01 R27). -/
theorem piecesOf_within {a len : Nat} (hl : len ≠ 0) (h : a / 4096 = (a + len - 1) / 4096) : piecesOf a len = [(a, len)] := by
  have hk : min len (4096 - a % 4096) = len := by omega
  simp [piecesOf, memPieces, hl, hk]

/-- A request as its controller holds it once accepted: its tick and epoch are the present ones, and a piece of n bytes costs ⌈n ÷ 512⌉ + 2
row slots (10 R310). -/
def Waiting.accepted (w : Waiting) (s : State) : Waiting :=
  { w with tick := s.dev.tsc.toNat, ep := s.sec.epoch, slots := (w.len + 511) / 512 + 2 }

/-- A controller after a write of the bytes from `lo` up to but not including `hi`: the fetches that touch them take in no later read
(01 R31). -/
def MemCtl.closing (m : MemCtl) (lo hi : Nat) : MemCtl :=
  { m with fetches := m.fetches.map (fun f => if f.addr < hi && lo < f.addr + f.len then { f with closed := true } else f) }

namespace State

variable {s : State} {rq : MemReq} {w : Waiting} {data : List Byte} {may : Nat → Bool} {a len e : Nat}

/-! ### The check of an access (01 R28; 06 R192; 16 R463) -/

theorem checkOwners_above (h : memTop ≤ a) : s.checkOwners may a len = some Status.accessDenied := if_pos h

theorem checkOwners_across (ha : a < memTop) (h : memTop < a + len) : s.checkOwners may a len = some Status.accessSpan := by
  rw [checkOwners, if_neg (by omega), if_pos h]

/-- An access inside populated memory goes on to its owners and its stacks, in this order. -/
theorem checkOwners_inside (hl : len ≠ 0) (h : a + len ≤ memTop) :
    s.checkOwners may a len =
      if !may (s.ownerOf (a / frameSize)) then some Status.accessDenied
      else if (unitsOf frameSize a len).any (fun f => !may (s.ownerOf f)) then some Status.accessSpan
      else if s.quarTouch a len then some Status.quarantined
      else none := by
  rw [checkOwners, if_neg (by omega), if_neg (by omega)]

theorem checkOwners_firstFrame (hl : len ≠ 0) (h : a + len ≤ memTop) (hf : may (s.ownerOf (a / frameSize)) = false) :
    s.checkOwners may a len = some Status.accessDenied := by
  simp [checkOwners_inside hl h, hf]

theorem checkOwners_laterFrame {f : Nat} (hl : len ≠ 0) (h : a + len ≤ memTop) (hfirst : may (s.ownerOf (a / frameSize)) = true)
    (hlo : a / frameSize ≤ f) (hhi : f ≤ (a + len - 1) / frameSize) (hf : may (s.ownerOf f) = false) :
    s.checkOwners may a len = some Status.accessSpan := by
  have hany : (unitsOf frameSize a len).any (fun f => !may (s.ownerOf f)) = true :=
    List.any_eq_true.mpr ⟨f, (mem_unitsOf hl).mpr ⟨hlo, hhi⟩, by simp [hf]⟩
  simp [checkOwners_inside hl h, hfirst, hany]

/-- Within one granule of a frame that the requester may reach, only a quarantined stack is left to refuse an access. -/
theorem checkOwners_within (hl : len ≠ 0) (h : a + len ≤ memTop) (hw : a / 4096 = (a + len - 1) / 4096)
    (hf : may (s.ownerOf (a / frameSize)) = true) :
    s.checkOwners may a len = if s.stackBad (a / 4096 % 6) then some Status.quarantined else none := by
  simp [checkOwners_inside hl h, hf, unitsOf_within hl (frame_of_within hw), quarTouch, unitsOf_within hl hw]

theorem lockFault_within {p : Nat} (hl : len ≠ 0) (hw : a / 4096 = (a + len - 1) / 4096) :
    s.lockFault p a len = if s.frameLocked p (a / frameSize) then some Status.accessDenied else none := by
  rw [lockFault, unitsOf_within hl (frame_of_within hw)]
  by_cases h : s.frameLocked p (a / frameSize) = true <;> simp [h]

/-! ### A request in its controller's terms (10 R304-R308) -/

theorem memWaiting_request : (s.memWaiting rq).tag = rq.tag ∧ (s.memWaiting rq).addr = rq.addr ∧ (s.memWaiting rq).len = rq.len ∧
    (s.memWaiting rq).write = rq.write := by
  cases h : rq.by_ with
  | core c k =>
    by_cases hk : k.val < 16
    · simp only [memWaiting, h, if_pos hk]
      split <;> exact ⟨rfl, rfl, rfl, rfl⟩
    · simp only [memWaiting, h, if_neg hk]
      split <;> exact ⟨rfl, rfl, rfl, rfl⟩
  | _ => simp [memWaiting, h]

theorem memWaiting_save (h : rq.by_ = .save) : (s.memWaiting rq).cls = .save := by
  simp [memWaiting, h]

theorem memWaiting_host {p : PdkId} (h : rq.by_ = .host p) : (s.memWaiting rq).cls = .fcfs := by
  simp [memWaiting, h, Waiting.plain]

/-- A stream's request takes the place of its core, and the class and dry time of the stream. -/
theorem memWaiting_stream {c : CoreId} {k : Fin 17} (h : rq.by_ = .core c k) (hk : k.val < 16) :
    (s.memWaiting rq).bay = c.val / 16 ∧ (s.memWaiting rq).core = c.val ∧
    (((s.core c).strm k).deadline = true →
      (s.memWaiting rq).cls = .deadline ∧ (s.memWaiting rq).dry = s.dev.tsc.toNat + s.runway c k) ∧
    (((s.core c).strm k).deadline = false → (s.memWaiting rq).cls = .fcfs) := by
  unfold memWaiting
  rw [h]
  dsimp only
  rw [if_pos hk]
  split_ifs with hd <;> simp [hd, Waiting.plain]

/-! ### A piece at its controller (01 R29-R31; 10 R305, R310) -/

theorem mc_memWrite (st : Nat) (bs : List Byte) : (s.memWrite a bs).mc st = (s.mc st).closing a (a + bs.length) :=
  tget_map (d := ({} : MemCtl)) (g := fun m => m.closing a (a + bs.length)) rfl s.mcs st

theorem acceptPiece_write (hw : w.write = true) :
    s.acceptPiece w data =
      (s.modMc (w.addr / 4096 % 6) (fun m => { m with queue := m.queue ++ [w.accepted s] })).memWrite w.addr data := by
  simp [acceptPiece, hw, Waiting.accepted, ceilDiv]

/-- A read of bytes that no open fetch is of joins the queue and starts a fetch of what the bytes hold. -/
theorem acceptPiece_fetch (hw : w.write = false)
    (h : ∀ f ∈ (s.mc (w.addr / 4096 % 6)).fetches, ¬(f.addr = w.addr ∧ f.len = w.len ∧ f.closed = false)) :
    s.acceptPiece w data = s.modMc (w.addr / 4096 % 6) (fun m =>
      { m with
        queue := m.queue ++ [w.accepted s]
        fetches := m.fetches ++ [{ addr := w.addr, len := w.len, tags := [w.tag], closed := false, ep := s.sec.epoch
                                   data := (List.range w.len).map (fun i => readByte s.mem (w.addr + i))
                                   status := if s.poisonTouch w.addr w.len then Status.rowRetired else Status.ok }] }) := by
  have hany : (s.mc (w.addr / 4096 % 6)).fetches.any (fun f => f.addr = w.addr && f.len = w.len && !f.closed) = false := by
    simpa [and_assoc] using h
  simp [acceptPiece, hw, hany, Waiting.accepted, ceilDiv, memRead, readBytes_eq_map, poisonTouch]

/-- A read of bytes that an open fetch is of adds its tag to that fetch and nothing to the queue. -/
theorem acceptPiece_join (hw : w.write = false)
    (h : ∃ f ∈ (s.mc (w.addr / 4096 % 6)).fetches, f.addr = w.addr ∧ f.len = w.len ∧ f.closed = false) :
    s.acceptPiece w data = s.modMc (w.addr / 4096 % 6) (fun m =>
      { m with fetches := m.fetches.map (fun f =>
          if f.addr = w.addr && f.len = w.len && !f.closed then { f with tags := f.tags ++ [w.tag] } else f) }) := by
  have hany : (s.mc (w.addr / 4096 % 6)).fetches.any (fun f => f.addr = w.addr && f.len = w.len && !f.closed) = true := by
    simpa [and_assoc] using h
  simp [acceptPiece, hw, hany]

/-! ### A request to package memory -/

theorem pkgAccess_empty (hr : s.dev.memRails = true) (hl : rq.len = 0) :
    s.pkgAccess rq = s.send (.memDone rq.tag Status.okZero []) := by
  simp [pkgAccess, hr, hl]

theorem pkgAccess_refused (hr : s.dev.memRails = true) (hl : rq.len ≠ 0)
    (h : s.checkOwners (fun o => s.mayReach o rq.by_) rq.addr rq.len = some e) : s.pkgAccess rq = s.send (.memDone rq.tag e []) := by
  simp [pkgAccess, hr, hl, h]

theorem pkgAccess_locked {p : Nat} (hr : s.dev.memRails = true) (hl : rq.len ≠ 0)
    (h : s.checkOwners (fun o => s.mayReach o rq.by_) rq.addr rq.len = none)
    (hw : rq.write = true) (hp : s.writerOf rq.by_ = some p) (hlock : s.lockFault p rq.addr rq.len = some e) :
    s.pkgAccess rq = s.send (.memDone rq.tag e []) := by
  simp [pkgAccess, hr, hl, h, hw, hp, hlock]

/-- A request within one granule that no check refuses is accepted as one piece. -/
theorem pkgAccess_accepted (hr : s.dev.memRails = true) (hl : rq.len ≠ 0) (hwithin : rq.addr / 4096 = (rq.addr + rq.len - 1) / 4096)
    (h : s.checkOwners (fun o => s.mayReach o rq.by_) rq.addr rq.len = none)
    (hfree : rq.write = true → ∀ p, s.writerOf rq.by_ = some p → s.lockFault p rq.addr rq.len = none) :
    s.pkgAccess rq = s.acceptPiece (s.memWaiting rq) (rq.data.take rq.len) := by
  have hlock : (if rq.write then (s.writerOf rq.by_).bind (fun p => s.lockFault p rq.addr rq.len) else none) = none := by
    split
    · next hw => exact Option.bind_eq_none_iff.mpr (hfree hw)
    · rfl
  obtain ⟨-, haddr, hlen, -⟩ := memWaiting_request (s := s) (rq := rq)
  have hsame : { s.memWaiting rq with addr := rq.addr, len := rq.len } = s.memWaiting rq := by rw [← haddr, ← hlen]
  simp [pkgAccess, hr, hl, h, hlock, piecesOf_within hl hwithin, hsame]

end State

end Sys2Proof.Machine

namespace Sys2Proof.Proofs

open Sys2Proof Sys2Proof.Machine Sys2Proof.Claims

/-- Settles O28: each refusal is the first check that fails, and an access within one granule is accepted as one piece. -/
theorem packageMemoryRequests : Obligations.PackageMemoryRequests := by
  intro s rq hr frame st within reached unlocked done joins
  have hdone {e : Nat} (h : s.pkgAccess rq = s.send (.memDone rq.tag e [])) : exec (.pkgMemAccess rq) s = done e := congrArg _ h
  have hshut {f : Nat} (h : ¬reached f) : s.mayReach (s.ownerOf f) rq.by_ = false := eq_false_of_ne_true h
  refine ⟨fun hl => ?empty, fun hl ha => ?above, fun hl ha hspan => ?across, fun hl hin hf => ?firstFrame,
    fun hl hin hf hlater => ?laterFrame, fun hl hin hf hwithin => ⟨fun hbad => ?quarantined, fun hgood hlocked => ?locked,
      fun hgood hfree => ⟨fun hw hdata => ?write, fun hw hnone => ?fetch, fun hw hsome => ?join⟩⟩⟩
  case empty => exact hdone (State.pkgAccess_empty hr hl)
  case above => exact hdone (State.pkgAccess_refused hr hl (State.checkOwners_above ha))
  case across => exact hdone (State.pkgAccess_refused hr hl (State.checkOwners_across ha hspan))
  case firstFrame => exact hdone (State.pkgAccess_refused hr hl (State.checkOwners_firstFrame hl hin (hshut hf)))
  case laterFrame =>
    obtain ⟨f, hlo, hhi, hno⟩ := hlater
    exact hdone (State.pkgAccess_refused hr hl (State.checkOwners_laterFrame hl hin hf (Nat.le_of_lt hlo) hhi (hshut hno)))
  all_goals have hcheck := State.checkOwners_within (may := fun o => s.mayReach o rq.by_) hl hin hwithin hf
  case quarantined =>
    rw [if_pos hbad] at hcheck
    exact hdone (State.pkgAccess_refused hr hl hcheck)
  all_goals rw [if_neg (ne_true_of_eq_false hgood)] at hcheck
  case locked =>
    simp only [unlocked, not_forall, Bool.not_eq_false] at hlocked
    obtain ⟨hw, p, hp, hlock⟩ := hlocked
    exact hdone (State.pkgAccess_locked hr hl hcheck hw hp ((State.lockFault_within hl hwithin).trans (if_pos hlock)))
  all_goals
    have hexec : exec (.pkgMemAccess rq) s = .next (s.acceptPiece (s.memWaiting rq) (rq.data.take rq.len)) :=
      congrArg _ (State.pkgAccess_accepted hr hl hwithin hcheck fun hw p hp =>
        (State.lockFault_within hl hwithin).trans (if_neg (ne_true_of_eq_false (hfree hw p hp))))
    obtain ⟨htag, haddr, hlen, hwrite⟩ := State.memWaiting_request (s := s) (rq := rq)
    have hjoins : joins ((s.memWaiting rq).accepted s) :=
      ⟨htag, haddr, hlen, hwrite, by rw [← hlen]; rfl, State.memWaiting_save, fun _ => State.memWaiting_host,
        fun _ _ => State.memWaiting_stream⟩
  case write =>
    refine ⟨_, hexec, ?_⟩
    rw [State.acceptPiece_write (hwrite.trans hw), haddr, List.take_of_length_le hdata.le]
    refine ⟨fun a => ?_, ⟨_, ?_, hjoins⟩, rfl⟩
    · rw [← hdata]
      exact readByte_storeBytes _ _ _ _ _
    · simp [State.mc_memWrite, MemCtl.closing, st]
  case fetch =>
    refine ⟨_, hexec, ?_⟩
    rw [State.acceptPiece_fetch (hwrite.trans hw) (by rwa [haddr, hlen]), haddr, hlen, htag]
    exact ⟨rfl, rfl, ⟨_, by simp [st], hjoins⟩, by simp [st]⟩
  case join =>
    refine ⟨_, hexec, ?_⟩
    rw [State.acceptPiece_join (hwrite.trans hw) (by rwa [haddr, hlen]), haddr]
    exact ⟨rfl, rfl, by simp [st], by simp [st]⟩

end Sys2Proof.Proofs
end

section

/-! A tick without a command: the timestamp counter, the controller's timer and bay occupancy. -/

namespace Sys2Proof.Machine

/-- A table mapped entry by entry holds under each key what the key's own entry maps to. -/
theorem tfind_map {α : Type} (g : Nat → α → α) (t : Tab α) (k : Nat) :
    tfind (t.map fun e => (e.1, g e.1 e.2)) k = (tfind t k).map (g k) := by
  induction t with
  | nil => rfl
  | cons e t ih =>
    obtain ⟨key, v⟩ := e
    by_cases h : k = key
    · simp [tfind, h]
    · simp [tfind, h, ih]

end Sys2Proof.Machine

namespace Sys2Proof.Proofs

open Sys2Proof Sys2Proof.Machine Sys2Proof.Claims

/-- Settles O2: `idleTick` writes the two counters and each paddock's occupancy, and nothing else. -/
theorem emptyQueueIsATick : Obligations.EmptyQueueIsATick := by
  intro s hq
  refine ⟨s.idleTick, by simp [step, hq], by simp [State.idleTick], rfl, fun p d hp => ?_, rfl⟩
  have hmap := tfind_map (fun p (d : Pdk) => { d with held := d.held + (s.baysOf p).length }) s.pdks p
  rw [hp] at hmap
  exact hmap

end Sys2Proof.Proofs
end

section
/-! What keeps package memory and the power limit (`State.kept`): every operation of the model but the writers of the next section, in
the model's order. -/

namespace Sys2Proof.Machine.State

@[simp] theorem kept_ite (c : Prop) [Decidable c] (s t : State) : (if c then s else t).kept = if c then s.kept else t.kept := by
  split <;> rfl

theorem ite_kept {x y t : State} {c : Prop} [Decidable c] (hx : x.kept = t.kept) (hy : y.kept = t.kept) :
    (if c then x else y).kept = t.kept := by
  split <;> assumption

@[simp] theorem kept_mk (pending out dev hif sec ldr plat own pdks rings sch bays cores saves semFly hqFly mem memTag mcs yard tmb fab mgt
    ras free) :
    State.kept (State.mk pending out dev hif sec ldr plat own pdks rings sch bays cores saves semFly hqFly mem memTag mcs yard tmb fab mgt
      ras free) = (mem, dev.capWatts) := rfl

@[simp] theorem pair_kept (s : State) : (s.mem, s.dev.capWatts) = s.kept := rfl

variable {s : State}

/-! ### Shared operations -/

@[simp] theorem setPba_kept (fn v : Nat) : (s.setPba fn v).kept = s.kept := by
  simp [setPba]

@[simp] theorem settleBase_kept : s.settleBase.kept = s.kept := by
  simp [settleBase]

@[simp] theorem rampRails_kept : s.rampRails.kept = s.kept := by
  simp [rampRails]

/-! ### Package memory and saves -/

@[simp] theorem newTag_kept : s.newTag.2.kept = s.kept := by
  simp [newTag]

@[simp] theorem saveTraffic_kept (write : Bool) (f : Nat) : (s.saveTraffic write f).kept = s.kept := by
  simp [saveTraffic, foldl_kept]

@[simp] theorem grantSlot_kept (st : Nat) : (s.grantSlot st).kept = s.kept := by
  simp [grantSlot]

/-! ### Paddocks, rings and the scheduler -/

@[simp] theorem updRecord_kept (p : Nat) : (s.updRecord p).kept = s.kept := by
  simp [updRecord]

@[simp] theorem setTdi_kept (p : Nat) (f : Tdi → Tdi) : (s.setTdi p f).kept = s.kept := by
  simp [setTdi]

@[simp] theorem fetchNext_kept (p k : Nat) : (s.fetchNext p k).kept = s.kept := by
  simp [fetchNext]

@[simp] theorem fetchAll_kept (p : Nat) : (s.fetchAll p).kept = s.kept := by
  simp [fetchAll, foldl_kept]

@[simp] theorem ringFault_kept (p k : Nat) : (s.ringFault p k).kept = s.kept := by
  simp [ringFault]

@[simp] theorem pushCpl_kept (p k : Nat) (c : Cpl) : (s.pushCpl p k c).kept = s.kept := by
  simp [pushCpl]

@[simp] theorem writeCpl_kept (p k : Nat) (ok kept : Bool) : (s.writeCpl p k ok kept).kept = s.kept := by
  unfold writeCpl
  dsimp only
  split <;> simp

@[simp] theorem writeCpls_kept (p k m : Nat) : (s.writeCpls p k m).kept = s.kept := by
  induction m generalizing s with
  | zero => rfl
  | succ n ih => rw [writeCpls, ih, writeCpl_kept]

@[simp] theorem releaseFn_kept (fn : Nat) : (s.releaseFn fn).kept = s.kept := by
  simp [releaseFn, foldl_kept]

@[simp] theorem completeEntry_kept (p k status tag : Nat) (irq : Bool) (sqHead : Nat) (dl : Option Nat) :
    (s.completeEntry p k status tag irq sqHead dl).kept = s.kept := by
  simp [completeEntry]

@[simp] theorem takeEntry_kept (p k : Nat) (d : List Byte) : (s.takeEntry p k d).kept = s.kept := by
  unfold takeEntry
  dsimp only
  split <;> simp

@[simp] theorem modJob_kept (p k : Nat) (f : Job → Job) : (s.modJob p k f).kept = s.kept := by
  simp [modJob]

@[simp] theorem startJob_kept (p k : Nat) : (s.startJob p k).kept = s.kept := by
  unfold startJob
  dsimp only
  split
  · split
    · rw [settlePdk_kept, modJob_kept, foldl_kept]
      exact fun t b => foldl_kept _ (fun u n => u.modCore_kept n _) _ _
    · rfl
  · rfl

@[simp] theorem stopBay_kept (b : Nat) (why : StopWhy) : (s.stopBay b why).kept = s.kept := by
  simp only [stopBay]
  (repeat' split) <;> simp [foldl_kept]

@[simp] theorem unreserve_kept (b : Nat) : (s.unreserve b).kept = s.kept := by
  simp [unreserve]

@[simp] theorem turn_kept (p k : Nat) (j : Job) : (s.turn p k j).kept = s.kept := by
  simp [turn]

@[simp] theorem placeOne_kept (p k : Nat) (j : Job) (taken : List Nat) (lim : Option (List Nat)) :
    (s.placeOne p k j taken lim).1.kept = s.kept := by
  unfold placeOne
  dsimp only
  rw [startJob_kept, foldl_kept _ (fun t b => by split <;> simp), foldl_kept _ (fun t e => t.modBay_kept _ _),
    foldl_kept _ (fun t b => unreserve_kept b)]

@[simp] theorem holdFor_kept (p k : Nat) (j : Job) : (s.holdFor p k j).1.kept = s.kept := by
  simp [holdFor]

@[simp] theorem place_kept (m : Nat) (es : List (Nat × Nat)) (taken : List Nat) (lim : Option (List Nat)) :
    (s.place m es taken lim).kept = s.kept := by
  induction m generalizing s es taken lim with
  | zero => rfl
  | succ n ih =>
    unfold place
    dsimp only
    (repeat' split) <;> simp [ih]

@[simp] theorem dropHolds_kept : s.dropHolds.kept = s.kept := by
  refine foldl_kept _ (fun t b => ?_) _ _
  split
  · split <;> simp
  · rfl

@[simp] theorem interim_kept (p k : Nat) (withdrawn : Bool) : (s.interim p k withdrawn).kept = s.kept := by
  unfold interim
  dsimp only
  split <;> simp

@[simp] theorem saveBay_kept (b : Nat) : (s.saveBay b).kept = s.kept := by
  unfold saveBay
  dsimp only
  (repeat' split) <;> simp

@[simp] theorem restoreCores_kept (b : Nat) (r : SaveRec) : (s.restoreCores b r).kept = s.kept := by
  unfold restoreCores
  dsimp only
  rw [modBay_kept, foldl_kept _ (fun t n => t.modCore_kept n _)]

@[simp] theorem finishJob_kept (p k : Nat) (j : Job) : (s.finishJob p k j).kept = s.kept := by
  simp [finishJob]

@[simp] theorem endSaved_kept (p k status : Nat) : (s.endSaved p k status).kept = s.kept := by
  unfold endSaved
  dsimp only
  split <;> simp [foldl_kept]

@[simp] theorem freeBay_kept (b : Nat) : (s.freeBay b).kept = s.kept := by
  unfold freeBay
  dsimp only
  split <;> simp

@[simp] theorem bringIn_kept (b : Nat) : (s.bringIn b).kept = s.kept := by
  unfold bringIn
  split
  · rfl
  · split
    · rfl
    · split
      · simp
      · split
        · rfl
        · split
          · rfl
          · extract_lets old loss s₁ s₂ s₃ s₄ slot r s₅ good
            split
            · simp
            · have h₁ : s₁.kept = s.kept := by simp [s₁]
              have h₂ : s₂.kept = s.kept := h₁
              have h₃ : s₃.kept = s.kept := by
                clear_value s₂ old
                cases old with
                | none => exact h₂
                | some q => simp [s₃, h₂]
              have h₄ : s₄.kept = s.kept := by simp [s₄, h₃]
              have h₅ : s₅.kept = s.kept := by simp [s₅, h₄]
              clear_value s₄ s₅
              split
              · split
                · rw [endSaved_kept]; exact h₅
                · split <;> simp [h₅]
              · simp [h₄]

@[simp] theorem suspendBays_kept (p : Nat) (why : StopWhy) : (s.suspendBays p why).kept = s.kept := by
  simp [suspendBays, foldl_kept]

@[simp] theorem suspendFor_kept (p : Nat) (f : Susp → Susp) (why : StopWhy) : (s.suspendFor p f why).kept = s.kept := by
  unfold suspendFor
  dsimp only
  split <;> simp

@[simp] theorem resumeFor_kept (p : Nat) (f : Susp → Susp) : (s.resumeFor p f).kept = s.kept := by
  simp [resumeFor]

@[simp] theorem ringEnable_kept (p v : Nat) : (s.ringEnable p v).kept = s.kept := by
  unfold ringEnable
  dsimp only
  (repeat' split) <;> simp

@[simp] theorem ringDisable_kept (p v : Nat) : (s.ringDisable p v).kept = s.kept := by
  simp [ringDisable]

@[simp] theorem sqTailWrite_kept (p k v : Nat) : (s.sqTailWrite p k v).kept = s.kept := by
  simp [sqTailWrite]

@[simp] theorem cqHeadWrite_kept (p k v : Nat) : (s.cqHeadWrite p k v).kept = s.kept := by
  simp [cqHeadWrite]

/-! ### Cores -/

@[simp] theorem hqEnter_kept (b q : Nat) (h : BitVec 16) : (s.hqEnter b q h).kept = s.kept := by
  simp [hqEnter]

@[simp] theorem tickCore_kept (n : Nat) : (s.tickCore n).kept = s.kept := by
  simp [tickCore, foldl_kept]

@[simp] theorem tickMany_kept (n fuel : Nat) : (s.tickMany n fuel).kept = s.kept := by
  induction fuel generalizing s with
  | zero => rfl
  | succ m ih => rw [tickMany, ih, tickCore_kept]

@[simp] theorem settleCore_kept (n : Nat) : (s.settleCore n).kept = s.kept := by
  simp [settleCore]

@[simp] theorem coreFault_kept (n status bundle : Nat) : (s.coreFault n status bundle).kept = s.kept := by
  unfold coreFault
  dsimp only
  split <;> simp

@[simp] theorem nextFault_kept (n status : Nat) : (s.nextFault n status).kept = s.kept := by
  simp [nextFault]

@[simp] theorem countBeat_kept (n p : Nat) (cause : Option Nat) : (s.countBeat n p cause).kept = s.kept := by
  simp [countBeat]

/-! ### Streams -/

@[simp] theorem endStream_kept (n st : Nat) : (s.endStream n st).kept = s.kept := by
  simp [endStream]

@[simp] theorem strmgo_kept (n st prick : Nat) (c : Core) (base : Addr) (bundle : Nat) :
    (s.strmgo n st prick c base bundle).kept = s.kept := by
  unfold strmgo
  split
  · rfl
  · split
    · split
      · rfl
      · extract_lets addr ts m m' s₁ ms qs
        have h₁ : s₁.kept = s.kept := rfl
        clear_value s₁ qs
        split
        · exact h₁
        · split
          · dsimp only
            split <;> simp [foldl_kept _ (fun t n => t.modCore_kept n _), h₁]
          · exact h₁
    · rfl

@[simp] theorem strmswap_kept (n st : Nat) : (s.strmswap n st).kept = s.kept := by
  simp [strmswap]

@[simp] theorem landOn_kept (st q : Nat) (f : StrmRow) : (s.landOn st q f).kept = s.kept := by
  simp [landOn]

@[simp] theorem deliver_kept (n st : Nat) : (s.deliver n st).kept = s.kept := by
  unfold deliver
  dsimp only
  (repeat' split) <;> simp [foldl_kept]

@[simp] theorem ackWrite_kept (n st : Nat) : (s.ackWrite n st).kept = s.kept := by
  unfold ackWrite
  dsimp only
  (repeat' split) <;> simp

@[simp] theorem answerOwn_kept (tag addr : Nat) (data : List Byte) (bad : Bool) : (s.answerOwn tag addr data bad).kept = s.kept := by
  simp only [answerOwn]
  (repeat' split) <;> simp

@[simp] theorem answerFetch_kept (f : Fetch) (bad : Bool) : (s.answerFetch f bad).kept = s.kept := by
  simp [answerFetch, foldl_kept]

@[simp] theorem settleTag_kept (tag : Nat) : (s.settleTag tag).kept = s.kept := by
  unfold settleTag
  dsimp only
  split <;> simp [foldl_kept]

@[simp] theorem landAll_kept (n st fuel : Nat) : (s.landAll n st fuel).kept = s.kept := by
  induction fuel generalizing s with
  | zero => rfl
  | succ m ih => rw [landAll, ih, ackWrite_kept, deliver_kept]

/-! ### The tile bundle -/

@[simp] theorem draws_kept (k : Nat) : (s.draws k).2.kept = s.kept := by
  simp [draws]

@[simp] theorem clobberStage_kept (n : Nat) (os : List Operand) : (s.clobberStage n os).kept = s.kept := by
  simp [clobberStage, foldl_kept]

@[simp] theorem claimTake_kept (b k cnt : Nat) : (s.claimTake b k cnt).2.kept = s.kept := by
  unfold claimTake
  dsimp only
  (repeat' split) <;> simp

@[simp] theorem passes_kept (n : Nat) (f : MatFly) (i mt nt kt : Nat) : (s.passes n f i mt nt kt).kept = s.kept := by
  rfl

@[simp] theorem putMat_kept (n bundle : Nat) (f : MatFly) : (s.putMat n bundle f).kept = s.kept := by
  simp [putMat]

@[simp] theorem takeTile_kept (n : Nat) (f : MatFly) : (s.takeTile n f).1.kept = s.kept := by
  unfold takeTile
  dsimp only
  (repeat' split) <;> simp

/-! ### Streams -/

@[simp] theorem modSeq_kept (i : Nat) (f : Seq → Seq) : (s.modSeq i f).kept = s.kept := by
  simp only [modSeq]
  (repeat' split) <;> simp

/-! ### The Yard -/

@[simp] theorem setPte_kept (i pg : Nat) (e : Pte) : (s.setPte i pg e).kept = s.kept := by
  simp [setPte]

@[simp] theorem freeFrame_kept (f : Nat) : (s.freeFrame f).kept = s.kept := by
  simp [freeFrame]

@[simp] theorem freeSlot_kept (sl : Nat) : (s.freeSlot sl).kept = s.kept := by
  simp [freeSlot]

@[simp] theorem touchFrame_kept (f : Nat) : (s.touchFrame f).kept = s.kept := by
  simp [touchFrame]

@[simp] theorem dropRef_kept (e : Pte) : (s.dropRef e).kept = s.kept := by
  simp [dropRef]

@[simp] theorem openPage_kept (p i pg f : Nat) : (s.openPage p i pg f).kept = s.kept := by
  unfold openPage
  dsimp only
  split <;> simp

@[simp] theorem dropPages_kept (p h : Nat) (pgs : Tab Pte) (release : Option Nat) : (s.dropPages p h pgs release).kept = s.kept := by
  unfold dropPages
  dsimp only
  split
  · exact (foldl_kept _ (fun t e => t.modYard_kept _) _ _ :)
  · rw [foldl_kept _ (fun t e => dropRef_kept _), foldl_kept _ (fun t e => t.modYard_kept _)]

@[simp] theorem freeSeq_kept (i : Nat) : (s.freeSeq i).kept = s.kept := by
  simp only [freeSeq]
  (repeat' split) <;> simp [foldl_kept]

@[simp] theorem modOp_kept (id : Nat) (f : YOp → YOp) : (s.modOp id f).kept = s.kept := by
  simp only [modOp]
  (repeat' split) <;> simp

@[simp] theorem endOp_kept (id status result : Nat) : (s.endOp id status result).kept = s.kept := by
  simp only [endOp]
  (repeat' split) <;> simp [foldl_kept]

@[simp] theorem loftRead_kept (p i pg : Nat) (e : Pte) (frame op : Option Nat) (core : Nat) :
    (s.loftRead p i pg e frame op core).kept = s.kept := by
  simp [loftRead]

@[simp] theorem doRelease_kept (id : Nat) (o : YOp) : (s.doRelease id o).kept = s.kept := by
  simp [doRelease]

@[simp] theorem doLookup_kept (id : Nat) (o : YOp) : (s.doLookup id o).kept = s.kept := by
  simp [doLookup, foldl_kept]

@[simp] theorem publishPage_kept (o : YOp) (ns : Nat) (a : State × Option Nat × Nat) (pg : Nat) :
    (publishPage o ns a pg).1.kept = a.1.kept := by
  unfold publishPage
  dsimp only
  split
  · rfl
  · split <;> simp

@[simp] theorem doPin_kept (id : Nat) (o : YOp) (v : Bool) : (s.doPin id o v).kept = s.kept := by
  simp [doPin, foldl_kept]

@[simp] theorem loftForOp_kept (x : LoftFetch) (good : Bool) : (s.loftForOp x good).kept = s.kept := by
  simp only [loftForOp]
  (repeat' split) <;> simp

@[simp] theorem pfxKeyWrite_kept (p : Nat) (second : Bool) (v : Word) : (s.pfxKeyWrite p second v).kept = s.kept := by
  simp [pfxKeyWrite]

@[simp] theorem loftWrite_kept (p g : Nat) (size : Bool) (v : Nat) : (s.loftWrite p g size v).kept = s.kept := by
  simp [loftWrite]

/-! ### Attention -/

@[simp] theorem modAtt_kept (n : Nat) (g : AttFly → AttFly) : (s.modAtt n g).kept = s.kept := by
  simp [modAtt]

@[simp] theorem attAcc_kept (n : Nat) (h : AttHead) (tq : Nat) (rows : List SoftRow) : (s.attAcc n h tq rows).kept = s.kept := by
  simp [attAcc]

@[simp] theorem dropItem_kept (n : Nat) : (s.dropItem n).kept = s.kept := by
  simp [dropItem]

@[simp] theorem deliverSplit_kept (n : Nat) : (s.deliverSplit n).kept = s.kept := by
  unfold deliverSplit
  dsimp only
  (repeat' split) <;> simp

@[simp] theorem cancelFetches_kept (n : Nat) : (s.cancelFetches n).kept = s.kept := by
  unfold cancelFetches
  extract_lets mine s₁
  have h₁ : s₁.kept = s.kept := by
    refine foldl_kept _ (fun t e => ?_) _ _
    split <;> simp
  clear_value s₁
  simp [h₁]

/-! ### The tile engine -/

@[simp] theorem modFly_kept (n : Nat) (f : MacFly → MacFly) : (s.modFly n f).kept = s.kept := by
  simp [modFly]

@[simp] theorem seqAsk_kept (n fuel : Nat) : (s.seqAsk n fuel).kept = s.kept := by
  induction fuel generalizing s with
  | zero => rfl
  | succ m ih =>
    rw [seqAsk]
    split
    · split
      · rw [ih, modFly_kept]
      · rfl
    · rfl

@[simp] theorem landSeq_kept (n : Nat) : (s.landSeq n).kept = s.kept := by
  unfold landSeq
  dsimp only
  split <;> simp

@[simp] theorem landSeqAll_kept (n fuel : Nat) : (s.landSeqAll n fuel).kept = s.kept := by
  induction fuel generalizing s with
  | zero => rfl
  | succ m ih => rw [landSeqAll, ih, landSeq_kept]

@[simp] theorem haltSeq_kept (n : Nat) : (s.haltSeq n).kept = s.kept := by
  simp [haltSeq, foldl_kept]

/-! ### Issue -/

@[simp] theorem claimArm_kept (b k limit : Nat) : (s.claimArm b k limit).2.kept = s.kept := by
  simp [claimArm]

@[simp] theorem firstTest_kept (n : Nat) (op : SlotOp) : (s.firstTest n op).kept = s.kept := by
  unfold firstTest
  dsimp only
  split <;> simp

theorem issueControl_branch (n p k : Nat) (j : Job) (c : Core) (cond : Cond) (rs1 rs2 : XReg) (off : BitVec 14) :
    s.issueControl n p k j c (.branch cond rs1 rs2 off) =
      if taken cond (c.rdX rs1.val) (c.rdX rs2.val) then
        s.modCore n (fun x => { x with xfer := some (2, pcPlus c.pc off.toInt) })
      else s := rfl

@[simp] theorem issueControl_kept (n p k : Nat) (j : Job) (c : Core) (m : SlotOp) : (s.issueControl n p k j c m).kept = s.kept := by
  cases m
  case branch cond rs1 rs2 off =>
    rw [issueControl_branch]
    split <;> rfl
  case rand => exact (modCore_kept _ _ _).trans (draw_kept _)
  all_goals rfl

@[simp] theorem issueRow_kept (n p : Nat) (c : Core) (m : SlotOp) : (s.issueRow n p c m).kept = s.kept := by
  unfold issueRow
  split
  case h_2 sr =>
    cases sr
    · rfl
    · exact (modCore_kept _ _ _).trans (draws_kept _)
  all_goals rfl

@[simp] theorem issueMove_kept (n : Nat) (j : Job) (c : Core) (bundle : Nat) (op : SlotOp) :
    (s.issueMove n j c bundle op).kept = s.kept := by
  unfold issueMove
  dsimp only
  (repeat' split) <;> simp

@[simp] theorem markBundle_kept (p k : Nat) : (s.markBundle p k).kept = s.kept := by
  simp [markBundle]

@[simp] theorem checkEnded_kept (n : Nat) : (s.checkEnded n).kept = s.kept := by
  simp [checkEnded]

@[simp] theorem bubble_kept (n p cause : Nat) : (s.bubble n p cause).kept = s.kept := by
  simp [bubble]

@[simp] theorem lastBeat_kept (n : Nat) (j : Job) : (s.lastBeat n j).kept = s.kept := by
  simp [lastBeat]

@[simp] theorem landSem_kept (f : SemFly) : (s.landSem f).kept = s.kept := by
  simp [landSem]

@[simp] theorem landHq_kept (f : HqFly) : (s.landHq f).kept = s.kept := by
  simp [landHq]

@[simp] theorem settleAll_kept (n : Nat) : (s.settleAll n).kept = s.kept := by
  simp [settleAll, foldl_kept]

@[simp] theorem stopMacs_kept (ns : List Nat) : (s.stopMacs ns).kept = s.kept := by
  simp [stopMacs, foldl_kept]

@[simp] theorem quarFault_kept (b : Nat) : (s.quarFault b).kept = s.kept := by
  simp [quarFault, foldl_kept]

@[simp] theorem entropyTimeout_kept (n : Nat) : (s.entropyTimeout n).kept = s.kept := by
  unfold entropyTimeout
  dsimp only
  (repeat' split) <;> simp

/-! ### Frame graphs -/

@[simp] theorem edgePush_kept (p : Nat) (e : GEdge) (d : List Byte) : (s.edgePush p e d).kept = s.kept := by
  unfold edgePush
  split
  · rfl
  · exact foldl_kept _ (fun t i => t.modCore_kept _ _) _ _

@[simp] theorem modFrame_kept (p g order : Nat) (f : GFrame → GFrame) : (s.modFrame p g order f).kept = s.kept := by
  simp [modFrame]

@[simp] theorem graphArm_kept (p g v : Nat) : (s.graphArm p g v).kept = s.kept := by
  simp [graphArm]

@[simp] theorem graphDisarm_kept (p g : Nat) : (s.graphDisarm p g).kept = s.kept := by
  simp [graphDisarm]

@[simp] theorem frameSubmit_kept (p g rows : Nat) : (s.frameSubmit p g rows).kept = s.kept := by
  unfold frameSubmit
  dsimp only
  split <;> simp

@[simp] theorem edgeSignal_kept (p : Nat) (e : GEdge) : (s.edgeSignal p e).kept = s.kept := by
  unfold edgeSignal
  dsimp only
  split <;> simp

@[simp] theorem deliverSignals_kept (n : Nat) : (s.deliverSignals n).kept = s.kept := by
  unfold deliverSignals
  split
  · rfl
  · exact foldl_kept _ (fun t k => t.modCore_kept _ _) _ _

@[simp] theorem tmbFence_kept (p : Nat) : (s.tmbFence p).kept = s.kept := by
  simp [tmbFence]

/-! ### Scratchpad and package memory health -/

@[simp] theorem spadCorrected_kept (n r words : Nat) : (s.spadCorrected n r words).kept = s.kept := by
  simp [spadCorrected]

@[simp] theorem ueFault_kept (n status : Nat) (m : UeFinder) : (s.ueFault n status m).kept = s.kept := by
  simp only [ueFault]
  (repeat' split) <;> simp

@[simp] theorem eccWriteback_kept (n r : Nat) (found : Option Nat) : (s.eccWriteback n r found).kept = s.kept := by
  simp only [eccWriteback]
  (repeat' split) <;> simp

@[simp] theorem fetchComplete_kept (st tag : Nat) (e : EccResult) (row : Nat) : (s.fetchComplete st tag e row).kept = s.kept := by
  unfold fetchComplete
  dsimp only
  split <;> simp

@[simp] theorem writeComplete_kept (st tag : Nat) : (s.writeComplete st tag).kept = s.kept := by
  unfold writeComplete
  dsimp only
  split <;> simp

@[simp] theorem memPatrol_kept (st : Nat) (e : EccResult) (row : Nat) : (s.memPatrol st e row).kept = s.kept := by
  unfold memPatrol
  dsimp only
  (repeat' split) <;> simp

/-! ### The fabric -/

@[simp] theorem modFlow_kept (p j rank : Nat) (f : Flow → Flow) : (s.modFlow p j rank f).kept = s.kept := by
  simp [modFlow]

@[simp] theorem sendFrame_kept (p j rank ty : Nat) (h : FrameHdr) (payload : List Byte) :
    (s.sendFrame p j rank ty h payload).kept = s.kept := by
  unfold sendFrame
  dsimp only
  split <;> simp

@[simp] theorem sendSeq_kept (p j rank ty : Nat) (h : FrameHdr) (payload : List Byte) :
    (s.sendSeq p j rank ty h payload).kept = s.kept := by
  simp [sendSeq]

@[simp] theorem sendAll_kept (p j rank ty xfer : Nat) (mark : Bool) (d : List Byte) (mk : Nat → List Byte → List Byte) :
    (s.sendAll p j rank ty xfer mark d mk).kept = s.kept := by
  simp [sendAll, foldl_kept]

@[simp] theorem sendAck_kept (p j rank : Nat) : (s.sendAck p j rank).kept = s.kept := sendFrame_kept ..

@[simp] theorem sendNak_kept (p j rank xfer seq status moved : Nat) (notReady : Bool) :
    (s.sendNak p j rank xfer seq status moved notReady).kept = s.kept :=
  sendFrame_kept ..

@[simp] theorem dropFrame_kept (pt : Nat) : (s.dropFrame pt).kept = s.kept := by
  simp [dropFrame]

@[simp] theorem rxCheck_kept (pt ty : Nat) (h : FrameHdr) (payload : List Byte) : (s.rxCheck pt ty h payload).2.kept = s.kept := by
  unfold rxCheck
  dsimp only
  (repeat' split) <;> simp

@[simp] theorem spadWrite_kept (n a : Nat) (d : List Byte) : (s.spadWrite n a d).kept = s.kept :=
  foldl_kept _ (fun t _ => t.modCore_kept _ _) _ _

@[simp] theorem countArrivals_kept (p c n : Nat) : (s.countArrivals p c n).kept = s.kept := by
  unfold countArrivals
  dsimp only
  (repeat' split) <;> simp

@[simp] theorem modPosts_kept (f : Post → Bool) (g : Post → Post) : (s.modPosts f g).kept = s.kept := by
  simp [modPosts]

@[simp] theorem endPosts_kept (f : Post → Bool) (status : Nat) : (s.endPosts f status).kept = s.kept := by
  simp [endPosts]

@[simp] theorem acceptSeq_kept (p j r : Nat) : (s.acceptSeq p j r).kept = s.kept := by
  simp [acceptSeq]

@[simp] theorem ackFlow_kept (p j r seq : Nat) : (s.ackFlow p j r seq).kept = s.kept := by
  simp [ackFlow]

@[simp] theorem ackFrame_kept (pt : Nat) (h : FrameHdr) : (s.ackFrame pt h).kept = s.kept := by
  have hrx := rxCheck_kept (s := s) pt 2 h []
  unfold ackFrame
  split
  · rfl
  · split <;> simp_all

@[simp] theorem nakFrame_kept (pt : Nat) (h : FrameHdr) (status : Nat) : (s.nakFrame pt h status).kept = s.kept := by
  have hrx := rxCheck_kept (s := s) pt 3 h (leBytes 1 status)
  unfold nakFrame
  split <;> simp_all

@[simp] theorem retireJob_kept (p j : Nat) (tell : Bool) : (s.retireJob p j tell).kept = s.kept := by
  unfold retireJob
  extract_lets x own others hdr s₁ s₂ s₃
  have h₁ : s₁.kept = s.kept := by
    refine ite_kept rfl (foldl_kept _ (fun t r => ?_) _ _)
    dsimp only
    split <;> rfl
  clear_value s₁
  split
  · rfl
  · simpa [s₃, s₂] using h₁

@[simp] theorem retireFrame_kept (pt : Nat) (h : FrameHdr) : (s.retireFrame pt h).kept = s.kept := by
  have hrx := rxCheck_kept (s := s) pt 5 h []
  unfold retireFrame
  split <;> simp_all

@[simp] theorem retireAgain_kept (p j : Nat) : (s.retireAgain p j).kept = s.kept := by
  show ((s.fab.closing.filter _).foldl _ s).kept = s.kept
  refine foldl_kept _ (fun t c => ?_) _ _
  split
  · rfl
  · split <;> rfl

@[simp] theorem refuseJob_kept (p j : Nat) : (s.refuseJob p j).kept = s.kept := by
  simp [refuseJob]

@[simp] theorem jobCfgWrite_kept (p v : Nat) : (s.jobCfgWrite p v).kept = s.kept := by
  simp [jobCfgWrite]

@[simp] theorem jobMemberWrite_kept (p v : Nat) : (s.jobMemberWrite p v).kept = s.kept := by
  simp [jobMemberWrite]

@[simp] theorem jobKeyWrite_kept (p k : Nat) (v : Word) : (s.jobKeyWrite p k v).kept = s.kept := by
  simp [jobKeyWrite]

@[simp] theorem eyeClose_kept (p e : Nat) : (s.eyeClose p e).kept = s.kept := by
  simp [eyeClose]

@[simp] theorem eyeCfgWrite_kept (p v : Nat) : (s.eyeCfgWrite p v).kept = s.kept := by
  simp [eyeCfgWrite]

@[simp] theorem eyeBaseWrite_kept (p v : Nat) : (s.eyeBaseWrite p v).kept = s.kept := by
  simp [eyeBaseWrite]

@[simp] theorem eyeAbandon_kept (p e : Nat) : (s.eyeAbandon p e).kept = s.kept := foldl_kept _ (fun _ _ => sendNak_kept ..) _ _

@[simp] theorem postqWrite_kept (p q v : Nat) : (s.postqWrite p q v).kept = s.kept := by
  simp [postqWrite]

@[simp] theorem failFlow_kept (p j r status : Nat) : (s.failFlow p j r status).kept = s.kept := by
  simp [failFlow]

@[simp] theorem resend_kept (p j r : Nat) : (s.resend p j r).kept = s.kept := by
  simp [resend, foldl_kept]

@[simp] theorem deliverArrivals_kept (n : Nat) : (s.deliverArrivals n).kept = s.kept := foldl_kept _ (fun t _ => t.modCore_kept _ _) _ _

@[simp] theorem hello_kept (pt : Nat) (h : Hello) : (s.hello pt h).kept = s.kept := by
  simp [hello]

@[simp] theorem helloTimeout_kept (pt : Nat) : (s.helloTimeout pt).kept = s.kept := by
  simp [helloTimeout]

@[simp] theorem fabFence_kept (p : Nat) : (s.fabFence p).kept = s.kept := by
  simp [fabFence]

@[simp] theorem fabRetireAll_kept (p : Nat) : (s.fabRetireAll p).kept = s.kept := by
  simp [fabRetireAll, foldl_kept]

@[simp] theorem fabClear_kept (p : Nat) : (s.fabClear p).kept = s.kept := by
  simp [fabClear]

/-! ### Resets, teardown and power -/

@[simp] theorem dropStream_kept (k : Nat) : (s.dropStream k).kept = s.kept := by
  simp [dropStream]

@[simp] theorem abandonLoad_kept (fn : Nat) : (s.abandonLoad fn).kept = s.kept := by
  simp [abandonLoad]

@[simp] theorem tdiUnlock_kept (p : Nat) : (s.tdiUnlock p).kept = s.kept := by
  unfold tdiUnlock
  dsimp only
  split <;> simp

@[simp] theorem resetPatrol_kept (b : Nat) : (s.resetPatrol b).kept = s.kept := foldl_kept _ (fun t _ => t.modCore_kept _ _) _ _

@[simp] theorem repairRow_kept (noRes : List Nat) (row : Nat) : (repairRow noRes s row).kept = s.kept := by
  simp [repairRow]

@[simp] theorem fwActivate_kept (bankOk : Nat → Bool) : (s.fwActivate bankOk).kept = s.kept := by
  simp [fwActivate]

@[simp] theorem removalRec_kept (cause : Nat) : (s.removalRec cause).kept = s.kept := by
  simp [removalRec]

@[simp] theorem endConv_kept : s.endConv.kept = s.kept := by
  simp [endConv]

@[simp] theorem busMaster_kept (fn : Nat) (on : Bool) : (s.busMaster fn on).kept = s.kept := by
  simp [busMaster]

/-! ### Rails, pace and STANDBY -/

@[simp] theorem markUnmet_kept (d : Nat) : (s.markUnmet d).kept = s.kept := by
  simp [markUnmet, foldl_kept]

@[simp] theorem railUpdate_kept (cap therm mon : List Nat) (base : Nat) : (s.railUpdate cap therm mon base).kept = s.kept := by
  simp [railUpdate, foldl_kept]

@[simp] theorem settleSubfloor_kept : s.settleSubfloor.kept = s.kept := by
  simp [settleSubfloor]

@[simp] theorem aboveFloor_kept (d tj mv : Nat) : (s.aboveFloor d tj mv).kept = s.kept := by
  simp [aboveFloor, foldl_kept]

@[simp] theorem junctionCool_kept (d tj mon : Nat) : (s.junctionCool d tj mon).kept = s.kept := by
  simp [junctionCool]

@[simp] theorem thermalTrip_kept (d tj : Nat) : (s.thermalTrip d tj).kept = s.kept := by
  simp [thermalTrip, foldl_kept]

@[simp] theorem tripStandby_kept : s.tripStandby.kept = s.kept := by
  simp [tripStandby, foldl_kept]

@[simp] theorem paceWrite_kept (p v : Nat) : (s.paceWrite p v).kept = s.kept := by
  simp [paceWrite]

@[simp] theorem powerUp_kept : s.powerUp.kept = s.kept := by
  unfold powerUp
  dsimp only
  (repeat' split) <;> simp

@[simp] theorem tripDone_kept : s.tripDone.kept = s.kept := by
  simp [tripDone, foldl_kept]

@[simp] theorem bayOff_kept (b : Nat) : (s.bayOff b).kept = s.kept := by
  simp [bayOff]

@[simp] theorem bayPowerDown_kept (mask : Nat) : (s.bayPowerDown mask).kept = s.kept := by
  simp [bayPowerDown, foldl_kept]

@[simp] theorem bayPowerUp_kept (mask : Nat) : (s.bayPowerUp mask).kept = s.kept := foldl_kept _ (fun t _ => t.modBay_kept _ _) _ _

@[simp] theorem bayOffDone_kept (b : Nat) : (s.bayOffDone b).kept = s.kept := by
  simp [bayOffDone]

@[simp] theorem bayOnDone_kept (b : Nat) : (s.bayOnDone b).kept = s.kept := by
  simp [bayOnDone]

@[simp] theorem idleTick_kept : s.idleTick.kept = s.kept := by
  simp [idleTick]

/-! ### The loader -/

@[simp] theorem loadGo_kept (fn : Nat) : (s.loadGo fn).kept = s.kept := by
  simp [loadGo]

@[simp] theorem tenantGo_kept (p : Nat) : (s.tenantGo p).kept = s.kept := by
  simp [tenantGo]

@[simp] theorem ldrFree_kept : s.ldrFree.kept = s.kept := by
  simp [ldrFree]

@[simp] theorem endLoad_kept (fn code check sec off : Nat) : (s.endLoad fn code check sec off).kept = s.kept := by
  simp [endLoad]

@[simp] theorem readOn_kept : s.readOn.kept = s.kept := by
  simp [readOn]

@[simp] theorem openLoad_kept (fn : Nat) : (s.openLoad fn).kept = s.kept := by
  simp [openLoad]

@[simp] theorem loaderTake_kept : s.loaderTake.kept = s.kept := by
  unfold loaderTake
  dsimp only
  (repeat' split) <;> simp

@[simp] theorem platCommit_kept : s.platCommit.kept = s.kept := by
  simp [platCommit, foldl_kept]

@[simp] theorem tenantCommit_kept : s.tenantCommit.kept = s.kept := by
  unfold tenantCommit
  dsimp only
  split <;> simp

/-! ### Sessions, link encryption and interfaces -/

@[simp] theorem entropy_kept (v : Byte) : (s.entropy v).kept = s.kept := by
  unfold entropy
  dsimp only
  (repeat' split) <;> simp

@[simp] theorem reinstantiate_kept : s.reinstantiate.kept = s.kept := by
  simp [reinstantiate]

@[simp] theorem reseed_kept : s.reseed.kept = s.kept := by
  simp [reseed]

@[simp] theorem spdmSay_kept (r : Responder) (code : Nat) (body : List Byte) : (s.spdmSay r code body).kept = s.kept := by
  simp [spdmSay]

@[simp] theorem spdmErr_kept (r : Responder) (e : Nat) : (s.spdmErr r e).kept = s.kept := by
  simp [spdmErr]

@[simp] theorem spdmSigned_kept (r : Responder) (code : Nat) (asked body : List Byte) : (s.spdmSigned r code asked body).kept = s.kept := by
  simp [spdmSigned]

@[simp] theorem setSessions_kept (r : Responder) (l : List Session) : (s.setSessions r l).kept = s.kept := by
  unfold setSessions
  dsimp only
  split <;> simp

@[simp] theorem slotSay_kept {r : Responder} {slot : Nat} {f : State → State} (h : (f s).kept = s.kept) :
    (s.slotSay r slot f).kept = s.kept := by
  unfold slotSay
  split <;> simp [h]

@[simp] theorem getMeasurements_kept (r : Responder) (idx : Nat) (nonce : List Byte) : (s.getMeasurements r idx nonce).kept = s.kept := by
  simp [getMeasurements]

@[simp] theorem keyExchange_kept (r : Responder) (data : List Byte) : (s.keyExchange r data).kept = s.kept := by
  simp [keyExchange]

@[simp] theorem finish_kept (r : Responder) (sid : Nat) (ok : Bool) : (s.finish r sid ok).kept = s.kept := by
  simp only [finish]
  (repeat' split) <;> simp

@[simp] theorem inSession_kept {r : Responder} {sid : Nat} {f : State → State} (h : (f s).kept = s.kept) :
    (s.inSession r sid f).kept = s.kept := by
  unfold inSession
  split <;> simp [h]

@[simp] theorem endSession_kept (r : Responder) (sid : Nat) : (s.endSession r sid).kept = s.kept := by
  simp [endSession]

@[simp] theorem secured_kept {sid : Nat} {f : State → State} (h : (f s).kept = s.kept) : (s.secured sid f).kept = s.kept := by
  unfold secured
  split <;> simp [h]

@[simp] theorem kSetGo_kept (k set_ : Nat) (rx : Bool) (sub : Nat) : (s.kSetGo k set_ rx sub).kept = s.kept := by
  simp [kSetGo]

@[simp] theorem tdispErr_kept (p e : Nat) : (s.tdispErr p e).kept = s.kept := by
  simp [tdispErr]

@[simp] theorem tdiLock_kept (p k : Nat) (p2p : Bool) : (s.tdiLock p k p2p).kept = s.kept := by
  simp [tdiLock]

@[simp] theorem consentWrite_kept (p v : Nat) : (s.consentWrite p v).kept = s.kept := by
  simp [consentWrite]

@[simp] theorem epochAck_kept (e : Nat) : (s.epochAck e).kept = s.kept := by
  simp [epochAck]

/-! ### Host registers -/

@[simp] theorem pfClear_kept (o : Nat) (lo hi : Bool) : (s.pfClear o lo hi).kept = s.kept := by
  simp [pfClear]

@[simp] theorem vfClear_kept (p o : Nat) (lo hi : Bool) : (s.vfClear p o lo hi).kept = s.kept := by
  simp [vfClear]

@[simp] theorem regRead_kept (fn off size : Nat) : (s.regRead fn off size).2.kept = s.kept := by
  unfold regRead
  dsimp only
  (repeat' split) <;> simp

@[simp] theorem loadPut_kept (fn : Nat) (f : LoadRegs → LoadRegs) : (s.loadPut fn f).kept = s.kept := by
  simp [loadPut]

@[simp] theorem mboxPut_kept (v : Nat) : (s.mboxPut v).kept = s.kept := by
  simp [mboxPut]

@[simp] theorem mboxPutBytes_kept (o n v : Nat) : (s.mboxPutBytes o n v).kept = s.kept := by
  simp [mboxPutBytes]

@[simp] theorem ringClear_kept (p v : Nat) : (s.ringClear p v).kept = s.kept := by
  simp [ringClear]

@[simp] theorem graphPut_kept (p g v : Nat) : (s.graphPut p g v).kept = s.kept := by
  simp [graphPut]

@[simp] theorem vfYardPut_kept (p o : Nat) (hi : Bool) (v : Nat) : (s.vfYardPut p o hi v).kept = s.kept := by
  simp [vfYardPut]

@[simp] theorem vfFabPut_kept (p o : Nat) (lo : Bool) (v : Nat) : (s.vfFabPut p o lo v).kept = s.kept := by
  simp [vfFabPut]

@[simp] theorem bellPut_kept (p o : Nat) (lo : Bool) (v : Nat) : (s.bellPut p o lo v).kept = s.kept := by
  simp [bellPut]

@[simp] theorem refusedClear_kept (fn o : Nat) : (s.refusedClear fn o).kept = s.kept := by
  simp [refusedClear]

@[simp] theorem hostRegRead_kept (fn off size : Nat) (ide : Option Nat) : (s.hostRegRead fn off size ide).kept = s.kept := by
  unfold hostRegRead
  dsimp only
  split <;> simp

@[simp] theorem tscRead_kept (fn : Nat) (h : Half) : (s.tscRead fn h).kept = s.kept := by
  simp [tscRead]

/-! ### Management -/

@[simp] theorem mboxAnswer_kept (bs : List Byte) : (s.mboxAnswer bs).kept = s.kept := by
  simp [mboxAnswer]

@[simp] theorem respond_kept (tr : Transport) (status : Nat) (body : List Byte) : (s.respond tr status body).kept = s.kept := by
  simp only [respond]
  (repeat' split) <;> simp

@[simp] theorem otveda_kept {tr : Transport} {f : State → State} (h : (f s).kept = s.kept) : (s.otveda tr f).kept = s.kept := by
  unfold otveda
  split <;> simp [h]

@[simp] theorem mctp_kept {tr : Transport} {f : State → State} (h : (f s).kept = s.kept) : (s.mctp tr f).kept = s.kept := by
  unfold mctp
  split <;> simp [h]

@[simp] theorem unsupported_kept (tr : Transport) (ty : Nat) : (s.unsupported tr ty).kept = s.kept := by
  simp [unsupported]

@[simp] theorem pollEvent_kept (tr : Transport) : (s.pollEvent tr).kept = s.kept := by
  unfold pollEvent
  dsimp only
  split <;> simp

@[simp] theorem spend_kept (v : BitVec 64) : (s.spend v).kept = s.kept := by
  simp [spend]

@[simp] theorem privileged_kept {tr : Transport} {au : Auth} {f : State → State} (h : ∀ t : State, (f t).kept = t.kept) :
    (s.privileged tr au f).kept = s.kept := by
  unfold privileged
  split <;> simp [h]

@[simp] theorem getNonce_kept (tr : Transport) : (s.getNonce tr).kept = s.kept := by
  simp [getNonce]

@[simp] theorem putKey_kept (tr : Transport) (slot : Nat) (d : List Byte) : (s.putKey tr slot d).kept = s.kept := by
  simp [putKey]

@[simp] theorem enrollKey_kept (tr : Transport) (slot : Nat) (d : List Byte) (au : Option Auth) :
    (s.enrollKey tr slot d au).kept = s.kept := by
  unfold enrollKey
  split
  · simp
  · split
    · exact privileged_kept (fun t => putKey_kept ..)
    · split <;> simp

@[simp] theorem revokeKey_kept (tr : Transport) (slot : Nat) (au : Auth) : (s.revokeKey tr slot au).kept = s.kept := by
  simp [revokeKey]

@[simp] theorem logRead_kept (tr : Transport) (seq count : Nat) : (s.logRead tr seq count).kept = s.kept := by
  simp [logRead]

@[simp] theorem logClear_kept (tr : Transport) : (s.logClear tr).kept = s.kept := by
  simp [logClear]

@[simp] theorem repairList_kept (tr : Transport) : (s.repairList tr).kept = s.kept := by
  simp [repairList]

@[simp] theorem sfuProgram_kept (tr : Transport) (f : Nat) : (s.sfuProgram tr f).kept = s.kept := by
  simp [sfuProgram]

@[simp] theorem endRequest_kept (q : TestReq) : (s.endRequest q).kept = s.kept := by
  simp [endRequest]

@[simp] theorem testResult_kept (b st : Nat) : (s.testResult b st).kept = s.kept := by
  simp [testResult, foldl_kept]

@[simp] theorem testBays_kept (tr : Transport) (calib : Bool) (mask : Nat) (force : Bool) :
    (s.testBays tr calib mask force).kept = s.kept := by
  unfold testBays
  dsimp only
  split
  · simp
  · split
    · simp
    · exact foldl_kept _ (fun t b => t.modBay_kept _ _) _ _

@[simp] theorem testStart_kept (b : Nat) : (s.testStart b).kept = s.kept := by
  simp only [testStart]
  (repeat' split) <;> simp

@[simp] theorem freeCore_kept (n : Nat) : (s.freeCore n).kept = s.kept := by
  simp [freeCore]

@[simp] theorem testDone_kept (b : Nat) (pass : Bool) (test : Nat) : (s.testDone b pass test).kept = s.kept := by
  unfold testDone
  dsimp only
  split <;> simp [foldl_kept]

@[simp] theorem releaseTest_kept (b : Nat) : (s.releaseTest b).kept = s.kept := by
  simp [releaseTest]

@[simp] theorem releaseUnit_kept (tr : Transport) (u : UnitId) : (s.releaseUnit tr u).kept = s.kept := by
  simp only [releaseUnit]
  (repeat' split) <;> simp

@[simp] theorem ctrlRestart_kept (watchdog : Bool) : (s.ctrlRestart watchdog).kept = s.kept := by
  simp [ctrlRestart]

@[simp] theorem fwSpoil_kept : s.fwSpoil.kept = s.kept := by
  unfold fwSpoil
  dsimp only
  split <;> simp

@[simp] theorem ctrlBack_kept (queued : List Transport) : (s.ctrlBack queued).kept = s.kept := by
  simp [ctrlBack, foldl_kept]

@[simp] theorem inUpdate_kept {tr : Transport} {agent : Nat} {phs : List FwPh} {f : State → State} (h : (f s).kept = s.kept) :
    (s.inUpdate tr agent phs f).kept = s.kept := by
  unfold inUpdate
  split <;> simp [h]

@[simp] theorem modFw_kept (f : Fw → Fw) : (s.modFw f).kept = s.kept := by
  simp [modFw]

@[simp] theorem fwAsk_kept (tr : Transport) : (s.fwAsk tr).kept = s.kept := by
  simp [fwAsk]

@[simp] theorem requestUpdate_kept (tr : Transport) (agent : Nat) : (s.requestUpdate tr agent).kept = s.kept := by
  simp [requestUpdate]

@[simp] theorem passTable_kept (tr : Transport) (agent comp : Nat) : (s.passTable tr agent comp).kept = s.kept := by
  simp [passTable]

@[simp] theorem updateComponent_kept (tr : Transport) (agent comp size : Nat) : (s.updateComponent tr agent comp size).kept = s.kept := by
  simp [updateComponent]

@[simp] theorem fwReceive_kept (tr : Transport) (off : Nat) (d : List Byte) : (s.fwReceive tr off d).kept = s.kept := by
  simp [fwReceive]

@[simp] theorem fwPhase_kept (tr : Transport) (good : Bool) (ph : FwPh) (f : Fw → Fw) : (s.fwPhase tr good ph f).kept = s.kept := by
  simp [fwPhase]

@[simp] theorem transferComplete_kept (tr : Transport) (ok : Bool) : (s.transferComplete tr ok).kept = s.kept := by
  simp [transferComplete]

@[simp] theorem verifyComplete_kept (tr : Transport) : (s.verifyComplete tr).kept = s.kept := by
  simp [verifyComplete]

@[simp] theorem applyComplete_kept (tr : Transport) (ok : Bool) : (s.applyComplete tr ok).kept = s.kept := by
  simp [applyComplete]

@[simp] theorem activateFw_kept (tr : Transport) (agent : Nat) : (s.activateFw tr agent).kept = s.kept := by
  simp [activateFw]

@[simp] theorem cancelComponent_kept (tr : Transport) (agent : Nat) : (s.cancelComponent tr agent).kept = s.kept := by
  simp [cancelComponent]

@[simp] theorem cancelUpdate_kept (tr : Transport) (agent : Nat) : (s.cancelUpdate tr agent).kept = s.kept := by
  simp [cancelUpdate]

@[simp] theorem sensorRefresh_kept (rs : List (Nat × Nat)) : (s.sensorRefresh rs).kept = s.kept := by
  simp [sensorRefresh]

end Sys2Proof.Machine.State
end

section
/-! What writes package memory or the power limit: each writer keeps the memory canonical and the limit in range (`State.Sound`), and what
lies between the writers keeps both as they are. -/

namespace Sys2Proof.Machine.State

/-- From a package memory and a power limit `a` to `b`: the canonical form and the range are kept. -/
def Sound (a b : List Host.Cell × Nat) : Prop :=
  (Memory.wf a.1 = true → Memory.wf b.1 = true) ∧ (500 ≤ a.2 ∧ a.2 ≤ 900 → 500 ≤ b.2 ∧ b.2 ≤ 900)

theorem Sound.refl (a : List Host.Cell × Nat) : Sound a a := ⟨id, id⟩

variable {s : State} {k₀ : List Host.Cell × Nat}

@[simp] theorem Sound.ite {x y : List Host.Cell × Nat} {c : Prop} [Decidable c] (hx : Sound k₀ x) (hy : Sound k₀ y) :
    Sound k₀ (if c then x else y) := by
  split <;> assumption

/-- A fold of a sound operation is sound. -/
theorem foldl_sound {α : Type} {f : State → α → State} (hf : ∀ t x, Sound k₀ t.kept → Sound k₀ (f t x).kept) {l : List α}
    (hs : Sound k₀ s.kept) : Sound k₀ (l.foldl f s).kept := by
  induction l generalizing s with
  | nil => exact hs
  | cons x l ih => exact ih (hf s x hs)

/-! ### Shared operations -/

@[simp] theorem memWrite_sound (a : Nat) (bs : List Byte) (hs : Sound k₀ s.kept) : Sound k₀ (s.memWrite a bs).kept :=
  ⟨fun hm => storeBytes_wf _ _ _ _ (hs.1 hm), hs.2⟩

@[simp] theorem zeroMem_sound (lo hi : Nat) (hs : Sound k₀ s.kept) : Sound k₀ (s.zeroMem lo hi).kept :=
  ⟨fun hm => zeroRange_wf _ _ _ (hs.1 hm), hs.2⟩

@[simp] theorem zeroFrames_sound (base count : Nat) (hs : Sound k₀ s.kept) : Sound k₀ (s.zeroFrames base count).kept :=
  zeroMem_sound _ _ hs

theorem acceptPiece_read_kept (w : Waiting) (data : List Byte) (hw : w.write = false) : (s.acceptPiece w data).kept = s.kept := by
  unfold acceptPiece
  dsimp only
  split
  · rfl
  · rw [if_neg (by simp [hw])]
    rfl

/-! ### Package memory and saves -/

@[simp] theorem acceptPiece_sound (w : Waiting) (data : List Byte) (hs : Sound k₀ s.kept) : Sound k₀ (s.acceptPiece w data).kept := by
  unfold acceptPiece
  dsimp only
  split
  · exact hs
  · split
    · exact memWrite_sound _ _ hs
    · exact hs

@[simp] theorem traffic_read_kept (a : Nat) (data : List Byte) (len : Nat) : (s.traffic false a data len).kept = s.kept :=
  foldl_kept _ (fun t _ => acceptPiece_read_kept (s := t.newTag.2) _ _ rfl) _ _

@[simp] theorem traffic_sound (write : Bool) (a : Nat) (data : List Byte) (len : Nat) (hs : Sound k₀ s.kept) :
    Sound k₀ (s.traffic write a data len).kept :=
  foldl_sound (fun t _ ht => acceptPiece_sound (s := t.newTag.2) _ _ ht) hs

@[simp] theorem writeFrom_sound (a : Nat) (data : List Byte) (hs : Sound k₀ s.kept) : Sound k₀ (s.writeFrom a data).kept :=
  traffic_sound _ _ _ _ hs

/-! ### Paddocks, rings and the scheduler -/

@[simp] theorem evacuate_kept (b : Nat) : (s.evacuate b).kept = s.kept := by
  simp [evacuate]

/-! ### Streams -/

@[simp] theorem readRow_sound (n st : Nat) (force : Bool) (hs : Sound k₀ s.kept) : Sound k₀ (s.readRow n st force).kept := by
  unfold readRow
  dsimp only
  split
  · exact hs
  · split
    · exact hs
    · split
      · exact acceptPiece_sound _ _ hs
      · exact hs

@[simp] theorem issuePiece_sound (n st : Nat) (p : List StrmRow) (hs : Sound k₀ s.kept) : Sound k₀ (s.issuePiece n st p).kept := by
  unfold issuePiece
  dsimp only
  (repeat' split) <;> simp [hs]

@[simp] theorem readAll_sound (n st fuel : Nat) (hs : Sound k₀ s.kept) : Sound k₀ (s.readAll n st fuel).kept := by
  induction fuel generalizing s with
  | zero => exact hs
  | succ m ih => exact ih (readRow_sound _ _ _ hs)

@[simp] theorem drainStream_sound (n st : Nat) (hs : Sound k₀ s.kept) : Sound k₀ (s.drainStream n st).kept := by
  unfold drainStream
  dsimp only
  rw [landAll_kept, foldl_kept _ (fun t f => settleTag_kept _)]
  exact readAll_sound _ _ _ hs

@[simp] theorem haltStream_sound (n st : Nat) (hs : Sound k₀ s.kept) : Sound k₀ (s.haltStream n st).kept := by
  simp [haltStream, hs]

@[simp] theorem haltStreams_sound (n : Nat) (hs : Sound k₀ s.kept) : Sound k₀ (s.haltStreams n).kept :=
  foldl_sound (fun _ _ ht => haltStream_sound _ _ ht) hs

@[simp] theorem drainJob_sound (p k : Nat) (hs : Sound k₀ s.kept) : Sound k₀ (s.drainJob p k).kept :=
  foldl_sound (fun _ _ ht => foldl_sound (fun _ _ hu => foldl_sound (fun _ _ hv => drainStream_sound _ _ hv) hu) ht) hs

/-! ### The tile bundle -/

@[simp] theorem opWrite_sound (n p loc a : Nat) (d : List Byte) (hs : Sound k₀ s.kept) : Sound k₀ (s.opWrite n p loc a d).kept := by
  simp [opWrite, hs]

@[simp] theorem writeOut_sound (n : Nat) (f : MatFly) (m c0 : Nat) (row : List (BitVec 32)) (ds : Option (List Nat)) (k0 : Nat)
    (hs : Sound k₀ s.kept) : Sound k₀ (s.writeOut n f m c0 row ds k0).kept := by
  unfold writeOut
  dsimp only
  (repeat' split) <;> simp [hs]

@[simp] theorem seqAdvance_kept (n m : Nat) : (s.seqAdvance n m).kept = s.kept := by
  induction m generalizing s with
  | zero => rfl
  | succ fuel ih =>
    unfold seqAdvance
    split
    · split
      · rfl
      · refine ite_kept rfl ?_
        dsimp only
        rw [ih, putMat_kept, passes_kept]
        split <;> simp
    · rfl

@[simp] theorem drainTile_sound (n : Nat) (f : MatFly) (t : FullTile) (ds : Option (List Nat)) (hs : Sound k₀ s.kept) :
    Sound k₀ (s.drainTile n f t ds).kept :=
  foldl_sound (fun _ _ ht => writeOut_sound _ _ _ _ _ _ _ ht) hs

@[simp] theorem tileDrain_sound (n : Nat) (hs : Sound k₀ s.kept) : Sound k₀ (s.tileDrain n).kept := by
  unfold tileDrain
  dsimp only
  (repeat' split) <;> simp [hs]

/-! ### The Yard -/

@[simp] theorem pageRead_kept (e : Pte) : (s.pageRead e).2.kept = s.kept := by
  simp [pageRead]

theorem reclaim_kept {p : Nat} {x : List Nat × State} (h : s.reclaim p = some x) : x.2.kept = s.kept := by
  unfold reclaim at h
  split at h
  · cases h
  · simp only [Option.some.injEq] at h
    rw [← h]
    simp

theorem spillOne_kept {p : Nat} {excl : List (Nat × Nat)} {x : List Nat × State} (h : s.spillOne p excl = some x) : x.2.kept = s.kept := by
  unfold spillOne at h
  dsimp only at h
  split at h
  · split at h
    · cases h
    · simp only [Option.some.injEq] at h
      rw [← h]
      simp
  · cases h

theorem gather_kept {k : Nat} {next : State → Option (List Nat × State)} (hn : ∀ t x, next t = some x → x.2.kept = t.kept) (n : Nat)
    (fs : List Nat) (s : State) : (gather k next n fs s).2.kept = s.kept := by
  induction n generalizing fs s with
  | zero => rfl
  | succ n ih =>
    unfold gather
    split
    · rfl
    · split
      · rfl
      · next heq => rw [ih, hn _ _ heq]

@[simp] theorem drawFrame_sound (p f : Nat) (u : FrameUse) (hs : Sound k₀ s.kept) : Sound k₀ (s.drawFrame p f u).kept := by
  unfold drawFrame
  rw [modYard_kept]
  exact zeroMem_sound _ _ hs

theorem acquire_sound {p k : Nat} {u : FrameUse} {excl : List (Nat × Nat)} {x : List Nat × State} (h : s.acquire p k u excl = some x)
    (hs : Sound k₀ s.kept) : Sound k₀ x.2.kept := by
  unfold acquire at h
  dsimp only at h
  split at h
  · cases h
  · simp only [Option.some.injEq] at h
    rw [← h]
    dsimp only
    rw [foldl_kept _ (fun t f => freeFrame_kept _)]
    refine foldl_sound (fun t f ht => drawFrame_sound _ _ _ ht) ?_
    rw [gather_kept (fun t x hx => spillOne_kept hx), gather_kept (fun t x hx => reclaim_kept hx)]
    exact hs

@[simp] theorem writePage_sound (i pg tok : Nat) (d : List Byte) (hs : Sound k₀ s.kept) : Sound k₀ (s.writePage i pg tok d).kept := by
  unfold writePage
  dsimp only
  split
  · simp [hs]
  · simp [hs]

@[simp] theorem flushPage_sound (i pg : Nat) (hs : Sound k₀ s.kept) : Sound k₀ (s.flushPage i pg).kept := by
  simp [flushPage, hs]

@[simp] theorem doCreate_sound (id : Nat) (o : YOp) (hs : Sound k₀ s.kept) : Sound k₀ (s.doCreate id o).kept := by
  unfold doCreate
  dsimp only
  split
  · simpa using hs
  · simp only [endOp_kept, modOp_kept, modYard_kept]
    exact foldl_sound (fun t f ht => drawFrame_sound _ _ _ ht) (openVal_kept s ▸ hs)

theorem appendPage_sound (o : YOp) (len : Nat) (x : State × List Nat) (pg : Nat) (hs : Sound k₀ x.1.kept) :
    Sound k₀ (appendPage o len x pg).1.kept := by
  unfold appendPage
  dsimp only
  have h₁ : Sound k₀ (if (x.1.pte (o.seq % 65536) pg).st = .absent then x.1.openPage o.pdk (o.seq % 65536) pg (x.2.headD 0)
      else x.1).kept := by
    simp [hs]
  split
  · exact flushPage_sound _ _ (writePage_sound _ _ _ _ h₁)
  · exact writePage_sound _ _ _ _ h₁

/-- A fold that carries more than the state, of a sound operation. -/
theorem foldl_fst_sound {α β : Type} {f : State × β → α → State × β} (hf : ∀ t x, Sound k₀ t.1.kept → Sound k₀ (f t x).1.kept)
    {l : List α} {x : State × β} (hs : Sound k₀ x.1.kept) : Sound k₀ (l.foldl f x).1.kept := by
  induction l generalizing x with
  | nil => exact hs
  | cons y l ih => exact ih (hf x y hs)

@[simp] theorem doAppend_sound (id : Nat) (o : YOp) (hs : Sound k₀ s.kept) : Sound k₀ (s.doAppend id o).kept := by
  unfold doAppend
  dsimp only
  simp only [endOp_kept, modOp_kept, modSeq_kept]
  exact foldl_fst_sound (fun x pg hx => appendPage_sound o _ x pg hx) hs

@[simp] theorem copyTokens_sound (p i pg f k : Nat) (src : Pte) (hs : Sound k₀ s.kept) : Sound k₀ (s.copyTokens p i pg f k src).kept := by
  simp [copyTokens, hs]

@[simp] theorem doTrim_sound (id : Nat) (o : YOp) (hs : Sound k₀ s.kept) : Sound k₀ (s.doTrim id o).kept := by
  unfold doTrim
  dsimp only
  (repeat' split) <;> simp [hs]

@[simp] theorem doFork_sound (id : Nat) (o : YOp) (hs : Sound k₀ s.kept) : Sound k₀ (s.doFork id o).kept := by
  unfold doFork
  dsimp only
  split
  · simpa using hs
  · simp only [endOp_kept, modOp_kept, modSeq_kept]
    have h₁ := foldl_kept (fun (t : State) g => t.setPte (o.seq % 65536) g { t.pte (o.a0 % 65536) g with pin := false })
      (fun t g => setPte_kept ..) (List.range (o.n / 16)) s
    split
    · rwa [h₁]
    · exact copyTokens_sound _ _ _ _ _ _ (h₁ ▸ hs)

@[simp] theorem doPublish_sound (id : Nat) (o : YOp) (hs : Sound k₀ s.kept) : Sound k₀ (s.doPublish id o).kept := by
  unfold doPublish
  dsimp only
  simp only [endOp_kept, modOp_kept]
  refine foldl_sound (fun t f ht => drawFrame_sound _ _ _ ht) ?_
  rw [modYard_kept]
  exact foldl_fst_sound (fun x pg hx => (publishPage_kept o _ x pg).symm ▸ hx) hs

@[simp] theorem doOp_sound (id : Nat) (o : YOp) (hs : Sound k₀ s.kept) : Sound k₀ (s.doOp id o).kept := by
  unfold doOp
  dsimp only
  (repeat' split) <;> simp [hs]

@[simp] theorem stepOp_sound (id : Nat) (hs : Sound k₀ s.kept) : Sound k₀ (s.stepOp id).kept := by
  unfold stepOp
  split
  · exact hs
  · split
    · exact doOp_sound _ _ hs
    · dsimp only
      split
      · simpa using hs
      · split
        · split
          · next heq => simpa using acquire_sound heq (by simpa using hs)
          · simpa using hs
        · simpa using hs

@[simp] theorem startOp_sound (id : Nat) (hs : Sound k₀ s.kept) : Sound k₀ (s.startOp id).kept := by
  unfold startOp
  split
  · exact hs
  · dsimp only
    split
    · exact hs
    · split
      · simpa using hs
      · split
        · simpa using hs
        · split
          · simpa using hs
          · next heq => exact stepOp_sound _ (by simpa using acquire_sound heq hs)

@[simp] theorem pumpYard_sound (hs : Sound k₀ s.kept) : Sound k₀ s.pumpYard.kept := by
  refine foldl_sound (fun t id ht => ?_) hs
  split
  · split
    · exact stepOp_sound _ ht
    · exact startOp_sound _ ht
  · exact ht

@[simp] theorem yardAccept_sound (o : YOp) (hs : Sound k₀ s.kept) : Sound k₀ (s.yardAccept o).kept := startOp_sound _ hs

@[simp] theorem loftLand_sound (x : LoftFetch) (ok : Bool) (d : List Byte) (hs : Sound k₀ s.kept) :
    Sound k₀ (s.loftLand x ok d).2.kept := by
  unfold loftLand
  dsimp only
  (repeat' split) <;> simp [hs]

@[simp] theorem zeroDone_sound (slot : Bool) (i : Nat) (hs : Sound k₀ s.kept) : Sound k₀ (s.zeroDone slot i).kept := by
  unfold zeroDone
  split
  · split
    · split <;> simpa using hs
    · exact hs
  · split
    · split <;> simp [hs]
    · exact hs

@[simp] theorem deferredDone_sound (hs : Sound k₀ s.kept) : Sound k₀ s.deferredDone.kept := by
  refine pumpYard_sound (foldl_sound (fun t d ht => ?_) hs)
  dsimp only
  have h₁ := foldl_kept (fun (u : State) (e : Nat × Pte) => u.dropRef e.2) (fun u e => dropRef_kept _) d.ptes t
  split
  · simpa [h₁] using ht
  · rwa [h₁]

@[simp] theorem yardTeardown_sound (p : Nat) (hs : Sound k₀ s.kept) : Sound k₀ (s.yardTeardown p).kept := by
  unfold yardTeardown
  rw [modYard_kept]
  exact foldl_sound (fun t e ht => zeroMem_sound _ _ ht) hs

/-! ### Attention -/

@[simp] theorem writeRow_sound (n : Nat) (f : AttFly) (e : AttEntry) (r : Nat × Nat) (w : SoftRow) (hs : Sound k₀ s.kept) :
    Sound k₀ (s.writeRow n f e r w).kept := by
  unfold writeRow
  dsimp only
  (repeat' split) <;> simp [hs]

@[simp] theorem writeTile_sound (n : Nat) (f : AttFly) (sp : Split) (hs : Sound k₀ s.kept) : Sound k₀ (s.writeTile n f sp).kept := by
  unfold writeTile
  split
  · exact hs
  · split
    · simpa using hs
    · dsimp only
      rw [modAtt_kept]
      exact foldl_sound (fun t x ht => writeRow_sound _ _ _ _ _ ht) hs

@[simp] theorem endItem_sound (n : Nat) (f : AttFly) (it : Nat × Nat × Nat × Nat) (failed : Nat) (hs : Sound k₀ s.kept) :
    Sound k₀ (s.endItem n f it failed).kept := by
  unfold endItem
  dsimp only
  (repeat' split) <;> simp [hs]

@[simp] theorem bringBack_sound (n : Nat) (f : AttFly) (it : Nat × Nat × Nat × Nat) (g : Nat × Nat) (hs : Sound k₀ s.kept) :
    Sound k₀ (s.bringBack n f it g).kept := by
  unfold bringBack
  split
  · exact hs
  · split
    · split
      · next heq => simpa using acquire_sound heq hs
      · exact endItem_sound _ _ _ _ hs
    · split
      · simpa using hs
      · exact hs

@[simp] theorem runItem_sound (n : Nat) (f : AttFly) (it : Nat × Nat × Nat × Nat) (m : Nat) (hs : Sound k₀ s.kept) :
    Sound k₀ (s.runItem n f it m).kept := by
  induction m generalizing s f with
  | zero => exact hs
  | succ fuel ih =>
    have h₁ (g : AttFly → AttFly) : Sound k₀ (s.modAtt n g).kept := by simpa using hs
    unfold runItem
    dsimp only
    split
    · exact endItem_sound _ _ _ _ (h₁ _)
    · split
      · exact ih _ ((foldl_kept _ (fun t g => touchFrame_kept _) _ _).symm ▸ h₁ _)
      · split
        · split
          · exact bringBack_sound _ _ _ _ (h₁ _)
          · exact ih _ (h₁ _)
        · exact h₁ _

@[simp] theorem attStep_sound (n : Nat) (hs : Sound k₀ s.kept) : Sound k₀ (s.attStep n).kept := by
  unfold attStep
  dsimp only
  (repeat' split) <;> simp [hs]

@[simp] theorem foldSplit_sound (b : Nat) (hs : Sound k₀ s.kept) : Sound k₀ (s.foldSplit b).kept := by
  unfold foldSplit
  split
  · exact hs
  · split
    · exact hs
    · extract_lets failed src part y others n s₁ s₂
      have h₁ : Sound k₀ s₁.kept := by
        clear_value failed n part
        simp only [s₁]
        split
        · simp [hs]
        · exact hs
      have h₂ : Sound k₀ s₂.kept := h₁
      clear_value s₁ s₂
      split
      · exact h₁
      · split
        · exact writeTile_sound _ _ _ h₂
        · exact h₂

@[simp] theorem loftReturn_sound (tag : Nat) (ok : Bool) (d : List Byte) (hs : Sound k₀ s.kept) :
    Sound k₀ (s.loftReturn tag ok d).kept := by
  unfold loftReturn
  extract_lets src s₀ s₁
  have h₀ : Sound k₀ s₀.kept := hs
  clear_value s₀
  split
  · exact h₀
  · next x _ =>
    have h₁ : Sound k₀ s₁.kept := h₀
    clear_value s₁
    rcases hland : s₁.loftLand x ok d with ⟨good, s₂⟩
    have h₂ : Sound k₀ s₂.kept := by simpa [hland] using loftLand_sound x ok d h₁
    have h₃ : Sound k₀ (s₂.loftForOp x good).kept := by simpa using h₂
    refine foldl_sound (fun t n ht => ?_) (pumpYard_sound ?_)
    · split
      · split
        · exact ht
        · exact attStep_sound _ ht
      · exact ht
    · generalize s₂.loftForOp x good = s₃ at h₃ ⊢
      split
      · split
        · split
          · split
            · exact endItem_sound _ _ _ _ h₃
            · exact h₃
          · exact h₃
        · exact h₃
      · exact h₃

theorem seqReq_write (n tag : Nat) (p : List StrmRow) : (s.seqReq n tag p).write = false := by
  unfold seqReq
  dsimp only
  split <;> rfl

/-! ### The tile engine -/

@[simp] theorem issueSeq_kept (n : Nat) (p : List StrmRow) : (s.issueSeq n p).kept = s.kept := by
  unfold issueSeq
  dsimp only
  split
  · simp
  · rw [modBay_kept, modFly_kept, acceptPiece_read_kept _ _ (seqReq_write ..), newTag_kept, modFly_kept]

@[simp] theorem seqGo_sound (n : Nat) (hs : Sound k₀ s.kept) : Sound k₀ (s.seqGo n).kept := by
  unfold seqGo
  split
  · split <;> simpa using hs
  · exact attStep_sound _ hs
  · exact hs

@[simp] theorem engineBeat_sound (b : Nat) (hs : Sound k₀ s.kept) : Sound k₀ (s.engineBeat b).kept := by
  unfold engineBeat
  extract_lets s₁ s₂
  have h₂ : Sound k₀ s₂.kept := by
    rw [foldl_kept _ (fun t n => seqAsk_kept ..)]
    exact foldl_sound (fun t n ht => foldl_sound (fun u st hu => readRow_sound _ _ _ hu) ht) hs
  clear_value s₂
  split
  · exact h₂
  · dsimp only
    split
    · simpa using h₂
    · exact issuePiece_sound _ _ _ h₂

/-! ### Issue -/

@[simp] theorem issueMacro_sound (n p : Nat) (c : Core) (bundle : Nat) (m : MacroOp) (adr : AReg) (off : BitVec 12) (xs : XReg)
    (hs : Sound k₀ s.kept) : Sound k₀ (s.issueMacro n p c bundle m adr off xs).kept := by
  unfold issueMacro
  split
  · exact hs
  · split
    · exact hs
    · exact hs
    · dsimp only
      split
      · exact yardAccept_sound _ hs
      · rw [clobberStage_kept, putMat_kept, takeTile_kept]
        exact hs
      · refine attStep_sound _ ?_
        rw [clobberStage_kept]
        exact hs

@[simp] theorem issueSlot_sound (n p k : Nat) (j : Job) (c : Core) (bundle : Nat) (op : SlotOp) (hs : Sound k₀ s.kept) :
    Sound k₀ (s.issueSlot n p k j c bundle op).kept := by
  unfold issueSlot
  split
  · exact issueMacro_sound _ _ _ _ _ _ _ _ hs
  · split
    · simpa using hs
    · split <;> simpa using hs

@[simp] theorem issueBundle_sound (n p k : Nat) (j : Job) (b : List SlotOp) (hs : Sound k₀ s.kept) :
    Sound k₀ (s.issueBundle n p k j b).kept := by
  unfold issueBundle
  dsimp only
  rw [checkEnded_kept, countBeat_kept]
  exact foldl_sound (fun t op ht => issueSlot_sound _ _ _ _ _ _ _ ht) (by simpa using hs)

theorem coreBeat_sound {n p k : Nat} {j : Job} {t : State} (ht : s.coreBeat n p k j = .next t) (hs : Sound k₀ s.kept) :
    Sound k₀ t.kept := by
  unfold coreBeat at ht
  dsimp only at ht
  split at ht
  · split at ht <;> cases ht
    · simpa using hs
    · exact hs
  · split at ht
    · cases ht
      simpa using hs
    · split at ht
      · cases ht
        exact hs
      · split at ht
        · cases ht
        · split at ht
          · cases ht
            simpa using hs
          · split at ht
            · cases ht
              simpa using hs
            · split at ht
              · cases ht
                simpa using hs
              · have h₁ (l : List SlotOp) : Sound k₀ (l.foldl (fun t op => t.firstTest n op) (s.tickCore n)).kept := by
                  rw [foldl_kept _ (fun t op => firstTest_kept _ _), tickCore_kept]
                  exact hs
                split at ht <;> cases ht
                · rw [bubble_kept]
                  exact h₁ _
                · exact issueBundle_sound _ _ _ _ _ (h₁ _)

theorem slotCmd_sound {n : Nat} {more : Bool} {op : SlotOp} {t : State} (ht : s.slotCmd n more op = .next t) (hs : Sound k₀ s.kept) :
    Sound k₀ t.kept := by
  unfold slotCmd at ht
  dsimp only at ht
  split at ht
  · cases ht
  · split at ht
    · cases ht
      exact hs
    · split at ht
      · cases ht
        exact hs
      · split at ht
        · cases ht
        · split at ht
          · cases ht
            exact hs
          · exact coreBeat_sound ht (by simpa using hs)

theorem bubbleBeat_sound {n : Nat} {t : State} (ht : s.bubbleBeat n = .next t) (hs : Sound k₀ s.kept) : Sound k₀ t.kept := by
  unfold bubbleBeat at ht
  dsimp only at ht
  split at ht
  · cases ht
    exact hs
  · split at ht
    · cases ht
      simpa using hs
    · split at ht
      · split at ht <;> cases ht <;> simpa using hs
      · exact coreBeat_sound ht (by simpa using hs)

@[simp] theorem macroComplete_sound (n : Nat) (hs : Sound k₀ s.kept) : Sound k₀ (s.macroComplete n).kept := by
  unfold macroComplete
  dsimp only
  split
  · exact hs
  · split
    · exact hs
    · split
      · simpa using hs
      · exact hs
    · split
      · split
        · simpa using attStep_sound _ hs
        · exact attStep_sound _ hs
      · exact attStep_sound _ hs
    · split
      · exact hs
      · split
        · exact hs
        · split
          · simpa using opWrite_sound _ _ _ _ _ (by simpa using hs)
          · simpa using hs

/-- What a core that stops does: its streams run dry, its tile bundle and fetches end. -/
theorem coreHalted_sound (n : Nat) (g : Core → Core) (hs : Sound k₀ s.kept) :
    Sound k₀ (((((s.settleAll n).haltStreams n).haltSeq n).cancelFetches n).modCore n g).kept := by
  rw [modCore_kept, cancelFetches_kept, haltSeq_kept]
  exact haltStreams_sound n (by rwa [settleAll_kept])

@[simp] theorem coresStopped_sound (b : Nat) (hs : Sound k₀ s.kept) : Sound k₀ (s.coresStopped b).kept := by
  unfold coresStopped
  extract_lets x s₁ s₂ s₃
  have h₁ : Sound k₀ s₁.kept := by
    clear_value x
    simp only [s₁]
    split
    · exact drainJob_sound _ _ hs
    · exact hs
  have h₂ : Sound k₀ s₂.kept := by
    refine foldl_sound ?_ h₁
    exact fun t n ht => coreHalted_sound n _ ht
  clear_value s₂
  have h₃ : Sound k₀ s₃.kept := h₂
  clear_value s₃
  split
  · exact hs
  · split
    · exact h₃
    · exact h₃

@[simp] theorem closeJob_sound (p k : Nat) (bays : List Nat) (j : Job) (hs : Sound k₀ s.kept) : Sound k₀ (s.closeJob p k bays j).kept := by
  unfold closeJob
  extract_lets s₁ s₂
  have h₂ : Sound k₀ s₂.kept := foldl_sound (fun t b ht => foldl_sound (fun u n hu => coreHalted_sound n _ hu) ht) (drainJob_sound _ _ hs)
  clear_value s₂
  dsimp only
  rw [finishJob_kept, foldl_kept _ (fun t b => t.modBay_kept _ _)]
  exact h₂

@[simp] theorem jobEnd_sound (p k : Nat) (hs : Sound k₀ s.kept) : Sound k₀ (s.jobEnd p k).kept := by
  unfold jobEnd
  split
  · exact hs
  · extract_lets bays quar cores allEnded s₁ s₂
    have h₂ : s₂.kept = s.kept := by
      rw [stopMacs_kept]
      exact ite_kept (foldl_kept _ (fun t b => quarFault_kept _) _ _) rfl
    rw [← h₂] at hs
    clear_value s₂
    split
    · exact h₂ ▸ hs
    · split
      · exact closeJob_sound _ _ _ _ (h₂ ▸ hs)
      · split
        · split
          · exact hs
          · exact closeJob_sound _ _ _ _ hs
        · exact hs

/-! ### Frame graphs -/

@[simp] theorem edgeWrite_sound (p : Nat) (gr : Graph) (e : GEdge) (f off : Nat) (d : List Byte) (hs : Sound k₀ s.kept) :
    Sound k₀ (s.edgeWrite p gr e f off d).kept := by
  simp [edgeWrite, hs]

@[simp] theorem emit_sound (p : Nat) (gr : Graph) (f i port off : Nat) (d : List Byte) (hs : Sound k₀ s.kept) :
    Sound k₀ (s.emit p gr f i port off d).kept := by
  refine foldl_sound (fun t e ht => ?_) hs
  split
  · simpa using ht
  · exact edgeWrite_sound _ _ _ _ _ _ ht

@[simp] theorem undefRange_sound (a n : Nat) (hs : Sound k₀ s.kept) : Sound k₀ (s.undefRange a n).kept := writeFrom_sound _ _ hs

@[simp] theorem endFrame_sound (p g : Nat) (gr : Graph) (f : GFrame) (status : Nat) (hs : Sound k₀ s.kept) :
    Sound k₀ (s.endFrame p g gr f status).kept := by
  unfold endFrame
  dsimp only
  rw [modGraph_kept, modFrame_kept]
  exact foldl_sound (fun t e ht => undefRange_sound _ _ ht) hs

@[simp] theorem tmbQuarantine_sound (e : Nat) (hs : Sound k₀ s.kept) : Sound k₀ (s.tmbQuarantine e).kept := by
  refine foldl_sound (fun t x ht => ?_) hs
  dsimp only
  split
  · exact ht
  · refine foldl_sound (fun u f hu => ?_) ht
    split
    · exact endFrame_sound _ _ _ _ _ hu
    · exact hu

@[simp] theorem imageRead_kept (im : TImage) (lo hi : Nat) : (s.imageRead im lo hi).kept = s.kept := by
  simp [imageRead, foldl_kept]

@[simp] theorem geomBand_sound (p g : Nat) (gr : Graph) (f : GFrame) (i : Nat) (nd : GNode) (b : Nat) (hs : Sound k₀ s.kept) :
    Sound k₀ (s.geomBand p g gr f i nd b).kept := by
  unfold geomBand
  split
  · exact hs
  · dsimp only
    split
    · exact endFrame_sound _ _ _ _ _ hs
    · exact foldl_sound (fun t y ht => foldl_sound (fun u cr hu => emit_sound _ _ _ _ _ _ _ hu) ht) (by simpa using hs)

@[simp] theorem motionBlock_sound (im : TImage) (pad ref thresh range : Nat) (all : Bool) (x y : Nat) (hs : Sound k₀ s.kept) :
    Sound k₀ (motionBlock im pad ref thresh range all x y s).1.kept := by
  unfold motionBlock
  generalize (if range = 0 then (sad im s.mem pad ref x y 0 0, 0, 0) else bestMove im s.mem pad ref x y range) = best
  obtain ⟨best, dx, dy⟩ := best
  extract_lets s0 changed
  clear_value changed
  dsimp only
  split
  · dsimp only
    refine foldl_sound ?_ hs
    exact fun t j ht => writeFrom_sound _ _ ht
  · exact hs

@[simp] theorem motionBand_sound (p g : Nat) (gr : Graph) (f : GFrame) (i : Nat) (nd : GNode) (b : Nat) (hs : Sound k₀ s.kept) :
    Sound k₀ (s.motionBand p g gr f i nd b).kept := by
  unfold motionBand
  split
  · exact hs
  · next im _ =>
    extract_lets x key ref refIm reach bad s₁ s₂ n
    clear_value bad x key
    have h₂ : Sound k₀ s₂.kept := by simpa [s₂, s₁] using hs
    clear_value s₂
    split
    · exact endFrame_sound _ _ _ _ _ hs
    · split
      next s₃ recs hfold =>
        have h₃ : Sound k₀ s₃.kept := by
          change Sound k₀ (s₃, recs).1.kept
          rw [← hfold]
          refine foldl_fst_sound ?_ h₂
          exact fun t bx ht => motionBlock_sound _ _ _ _ _ _ _ _ ht
        have h₄ := emit_sound p gr f.f i 0 (b * n * 8) recs h₃
        dsimp only
        split <;> split <;> simpa using h₄

@[simp] theorem packBand_sound (p g : Nat) (gr : Graph) (f : GFrame) (i : Nat) (nd : GNode) (b : Nat) (hs : Sound k₀ s.kept) :
    Sound k₀ (s.packBand p g gr f i nd b).kept := by
  unfold packBand
  split
  · exact hs
  · dsimp only
    split
    · exact endFrame_sound _ _ _ _ _ hs
    · refine foldl_sound (fun t k ht => ?_) (by simpa using hs)
      split
      · rw [modGraph_kept, modFrame_kept]
        exact emit_sound _ _ _ _ _ _ _ (emit_sound _ _ _ _ _ _ _ ht)
      · exact emit_sound _ _ _ _ _ _ _ ht

@[simp] theorem bandTake_sound (e : Nat) (hs : Sound k₀ s.kept) : Sound k₀ (s.bandTake e).kept := by
  unfold bandTake
  dsimp only
  (repeat' split) <;> simp [hs]

@[simp] theorem frameRecord_sound (p g : Nat) (hs : Sound k₀ s.kept) : Sound k₀ (s.frameRecord p g).kept := by
  unfold frameRecord
  split
  · next gr f t _ _ =>
    split
    · exact hs
    · split
      next ts s₁ hts =>
        have h₁ : Sound k₀ s₁.kept := by
          change Sound k₀ (ts, s₁).2.kept
          rw [← hts]
          split <;> simpa using hs
        extract_lets s₂ s₃ s₄
        have h₂ : Sound k₀ s₂.kept := writeFrom_sound _ _ h₁
        clear_value s₂
        have h₃ : Sound k₀ s₃.kept := (modGraph_kept ..).symm ▸ h₂
        clear_value s₃
        have h₄ : Sound k₀ s₄.kept := by
          simp only [s₄]
          split <;> simpa using h₃
        clear_value s₄
        split
        · exact h₃
        · rw [foldl_kept _ (fun t e => edgeSignal_kept ..)]
          exact h₄
  · exact hs

/-! ### Scratchpad and package memory health -/

@[simp] theorem bayOut_kept (b : Nat) : (s.bayOut b).kept = s.kept := by
  simp [bayOut]

@[simp] theorem quarantine_sound (u : UnitId) (cause : Nat) (hs : Sound k₀ s.kept) : Sound k₀ (s.quarantine u cause).kept := by
  unfold quarantine
  dsimp only
  (repeat' split) <;> simp [hs]

@[simp] theorem spadUncorrectable_sound (n r : Nat) (f : UeFinder) (hs : Sound k₀ s.kept) : Sound k₀ (s.spadUncorrectable n r f).kept := by
  unfold spadUncorrectable
  extract_lets b s₁ v faults s₂ p s₃ s₄ lose
  have h₁ : Sound k₀ s₁.kept := hs
  have hf (t : State) (e : Nat) (ht : Sound k₀ t.kept) : Sound k₀ (faults t e).kept := by
    simp only [faults]
    split
    · simpa using ht
    · exact ht
  have h₂ : Sound k₀ s₂.kept := (modCore_kept ..).symm ▸ (retireRow_kept ..).symm ▸ h₁
  clear_value s₂ p
  have h₃ : Sound k₀ s₃.kept := (logRec_kept ..).symm ▸ h₂
  clear_value s₃
  have h₄ : Sound k₀ s₄.kept := by
    simp only [s₄]
    split
    · exact (logRec_kept ..).symm ▸ h₃
    · exact h₃
  have hl : Sound k₀ (lose s₄).kept := by simpa [lose] using h₄
  clear_value s₁ s₄ lose faults
  split
  · split
    · simpa using h₁
    · exact h₁
  · split
    · exact quarantine_sound _ _ (hf _ _ h₁)
    · split
      · exact hl
      · split
        · exact hl
        · exact hf _ _ h₄
      · exact hf _ _ h₄

@[simp] theorem spadPatrol_sound (n k : Nat) (e : EccResult) (hs : Sound k₀ s.kept) : Sound k₀ (s.spadPatrol n k e).kept := by
  unfold spadPatrol
  split
  · exact hs
  · dsimp only
    split
    · exact hs
    · split <;> simpa using hs
    · split <;> exact spadUncorrectable_sound _ _ _ hs

@[simp] theorem pkgAccess_sound (rq : MemReq) (hs : Sound k₀ s.kept) : Sound k₀ (s.pkgAccess rq).kept := by
  unfold pkgAccess
  split
  · exact hs
  · split
    · exact hs
    · dsimp only
      split
      · exact hs
      · exact hs
      · exact foldl_sound (fun t e ht => acceptPiece_sound _ _ ht) hs

/-! ### The fabric -/

@[simp] theorem putBytes_sound (p c raddr len off : Nat) (d : List Byte) (hs : Sound k₀ s.kept) :
    Sound k₀ (s.putBytes p c raddr len off d).2.kept := by
  unfold putBytes
  dsimp only
  (repeat' split) <;> simp [hs]

theorem getBytes_kept {p c raddr len : Nat} {x : List Byte × State} (h : s.getBytes p c raddr len = some x) : x.2.kept = s.kept := by
  unfold getBytes at h
  split at h
  · obtain ⟨q, -, rfl⟩ := Option.map_eq_some_iff.mp h
    rfl
  · cases h
    simp

theorem putLocal_sound {x : Post} {off : Nat} {d : List Byte} {t : State} (ht : s.putLocal x off d = some t) (hs : Sound k₀ s.kept) :
    Sound k₀ t.kept := by
  unfold putLocal at ht
  split at ht
  · cases ht
    exact writeFrom_sound _ _ hs
  · split at ht
    · cases ht
      exact hs
    · obtain ⟨n, -, rfl⟩ := Option.map_eq_some_iff.mp ht
      simpa using hs

@[simp] theorem selfTransfer_sound (x : Post) (d : List Byte) (hs : Sound k₀ s.kept) : Sound k₀ (s.selfTransfer x d).kept := by
  unfold selfTransfer
  extract_lets p wait ok
  have hw (t : State) (ht : Sound k₀ t.kept) : Sound k₀ (wait t).kept := by simpa [wait] using ht
  have ho (t : State) (ht : Sound k₀ t.kept) : Sound k₀ (ok t).kept := by simpa [ok] using ht
  clear_value wait ok
  split
  · simpa using hs
  · next e _ =>
    extract_lets c
    have hput := putBytes_sound p c x.raddr x.len 0 d hs
    split
    · split
      · next heq =>
        rw [heq] at hput
        exact ho _ hput
      · exact hw _ hs
    · split
      · exact hw _ hs
      · next heq =>
        have hg := (getBytes_kept heq).symm ▸ hs
        split
        · next heq' => exact ho _ (putLocal_sound heq' hg)
        · exact hw _ hg

@[simp] theorem localBytes_kept (x : Post) (n : Nat) : (s.localBytes x n).2.kept = s.kept := by
  unfold localBytes
  dsimp only
  (repeat' split) <;> simp

@[simp] theorem collFold_sound (p j : Nat) (hs : Sound k₀ s.kept) : Sound k₀ (s.collFold p j).kept := by
  unfold collFold
  extract_lets x
  split
  · exact hs
  · extract_lets s₁ mine others d s₂
    have h₁ : Sound k₀ s₁.kept := hs
    clear_value s₁
    have h₂ : Sound k₀ s₂.kept := (foldl_kept _ (fun t r => sendAll_kept ..) _ _).symm ▸ h₁
    clear_value s₂
    split
    · rw [endPosts_kept, foldl_kept _ (fun t r => sendNak_kept ..)]
      exact h₁
    · split
      · exact h₂
      · split
        · next heq => simpa using putLocal_sound heq h₂
        · simpa using h₂

@[simp] theorem startPost_sound (x : Post) (n : Nat) (hs : Sound k₀ s.kept) : Sound k₀ (s.startPost x n).kept := by
  unfold startPost
  dsimp only
  (repeat' split) <;> simp [hs]

@[simp] theorem popPost_sound (p q want : Nat) (hs : Sound k₀ s.kept) : Sound k₀ (s.popPost p q want).kept := by
  unfold popPost
  dsimp only
  split
  · exact hs
  · split
    · exact hs
    · split
      · exact hs
      · split
        · exact hs
        · split
          · simpa using hs
          · exact startPost_sound _ _ hs

@[simp] theorem postCompletion_sound (p q : Nat) (hs : Sound k₀ s.kept) : Sound k₀ (s.postCompletion p q).kept := by
  unfold postCompletion
  split
  · exact hs
  · split
    next s₁ x hx =>
      have h₁ : Sound k₀ s₁.kept := by
        change Sound k₀ (s₁, x).1.kept
        rw [← hx]
        split
        · split
          · exact hs
          · split
            · next heq => simpa using putLocal_sound heq hs
            · exact hs
        · exact hs
      split
      · exact h₁
      · extract_lets src done
        have hd : Sound k₀ done.kept := h₁
        clear_value done
        split
        · exact hd
        · split
          · exact h₁
          · split
            · simpa using hd
            · exact h₁

@[simp] theorem firstFrame_sound (p j r : Nat) (h : FrameHdr) (t : TargetBlk) (d : List Byte) (hs : Sound k₀ s.kept) :
    Sound k₀ (s.firstFrame p j r h t d).kept := by
  unfold firstFrame
  split
  · simpa using hs
  · dsimp only
    split
    · split
      · simpa using hs
      · next heq =>
        rw [sendAll_kept, acceptSeq_kept, getBytes_kept heq]
        exact hs
    · have hput := putBytes_sound p (s.eyelet p ‹Nat›).cfg t.raddr t.len 0 d hs
      split
      · simpa using hs
      · next heq =>
        rw [heq] at hput
        split <;> simpa using hput

@[simp] theorem laterFrame_sound (p j r : Nat) (h : FrameHdr) (d : List Byte) (hs : Sound k₀ s.kept) :
    Sound k₀ (s.laterFrame p j r h d).kept := by
  unfold laterFrame
  extract_lets mine
  split
  · split
    · simpa using hs
    · next heq =>
      have h₁ := putLocal_sound heq hs
      dsimp only
      split <;> simpa using h₁
  · split
    · simpa using hs
    · next x _ =>
      have hput := putBytes_sound p x.cfg x.raddr x.len x.got d hs
      split
      · simpa using hs
      · next heq =>
        rw [heq] at hput
        simpa using hput

@[simp] theorem dataFrame_sound (pt : Nat) (h : FrameHdr) (t : Option TargetBlk) (d : List Byte) (hs : Sound k₀ s.kept) :
    Sound k₀ (s.dataFrame pt h t d).kept := by
  have hrx := rxCheck_kept (s := s) pt 1 h (t.elim [] targetBytes ++ d)
  unfold dataFrame
  split
  next heq =>
    rw [heq] at hrx
    exact hrx.symm ▸ hs
  next heq =>
    rw [heq] at hrx
    have hs' := hrx.symm ▸ hs
    split
    · simpa using hs'
    · split
      · exact firstFrame_sound _ _ _ _ _ _ hs'
      · exact laterFrame_sound _ _ _ _ _ hs'

@[simp] theorem collFrame_sound (pt : Nat) (h : FrameHdr) (kind len : Nat) (d : List Byte) (hs : Sound k₀ s.kept) :
    Sound k₀ (s.collFrame pt h kind len d).kept := by
  have hrx := rxCheck_kept (s := s) pt 6 h (collBytes kind len d)
  unfold collFrame
  split
  next heq =>
    rw [heq] at hrx
    exact hrx.symm ▸ hs
  next heq =>
    rw [heq] at hrx
    have hs' := hrx.symm ▸ hs
    split
    · simpa using hs'
    · split
      · simpa using hs'
      · extract_lets mine
        split
        · simpa using hs'
        · split
          · simpa using hs'
          · next heq' =>
            have h₁ := putLocal_sound heq' hs'
            dsimp only
            split <;> simpa using h₁

@[simp] theorem retryNotReady_sound (p j r : Nat) (hs : Sound k₀ s.kept) : Sound k₀ (s.retryNotReady p j r).kept := by
  unfold retryNotReady
  split
  · exact hs
  · dsimp only
    split
    · exact foldl_sound (fun t x ht => selfTransfer_sound _ _ ht) hs
    · split
      · simpa using hs
      · simpa using hs

/-! ### Resets, teardown and power -/

@[simp] theorem beginTeardown_kept (p : Nat) (flr : Bool) : (s.beginTeardown p flr).kept = s.kept := by
  unfold beginTeardown
  split
  · rfl
  · split <;> simp
  · extract_lets s₁ s₂ s₃ s₄ s₅
    have h₂ : s₂.kept = s.kept := by simp [s₂, s₁]
    clear_value s₂
    have h₃ : s₃.kept = s.kept := (foldl_kept _ (fun t k => t.modRing_kept ..) _ _).trans h₂
    clear_value s₃
    have h₄ : s₄.kept = s.kept := by
      refine (foldl_kept _ (fun t b => ?_) _ _).trans h₃
      extract_lets x t₁
      have h₁ : t₁.kept = t.kept := by
        clear_value x
        simp only [t₁]
        split
        · split <;> simp
        · rfl
      clear_value t₁
      split
      · rw [modBay_kept, foldl_kept _ (fun u n => u.modCore_kept ..)]
        exact h₁
      · exact h₁
    clear_value s₄
    split <;> simp [s₅, h₄]

@[simp] theorem dropBay_kept (b : Nat) : (s.dropBay b).kept = s.kept := by
  simp [dropBay]

@[simp] theorem teardownDrained_kept (p : Nat) : (s.teardownDrained p).kept = s.kept := by
  unfold teardownDrained
  dsimp only
  (repeat' split) <;> simp [foldl_kept]

@[simp] theorem teardownComplete_sound (p : Nat) (hs : Sound k₀ s.kept) : Sound k₀ (s.teardownComplete p).kept := by
  unfold teardownComplete
  dsimp only
  (repeat' split) <;> simp [hs]

@[simp] theorem tdiError_kept (p : Nat) : (s.tdiError p).kept = s.kept := by
  simp [tdiError]

@[simp] theorem initMemory_sound (noRes : List Nat) (hs : Sound k₀ s.kept) : Sound k₀ (s.initMemory noRes).kept := by
  unfold initMemory
  extract_lets s₁ src s₂
  have h₁ : s₁.kept = s.kept := foldl_kept _ (fun t r => repairRow_kept ..) _ _
  have h₂ : Sound k₀ s₂.kept := ⟨fun _ => rfl, fun hc => (congrArg Prod.snd h₁).symm ▸ hs.2 hc⟩
  clear_value s₂
  rw [foldl_kept _ (fun t b => resetPatrol_kept _), scrubAll_kept]
  exact h₂

@[simp] theorem startConv_kept (k : ConvKind) (link : LinkSt) : (s.startConv k link).kept = s.kept := by
  simp [startConv]

@[simp] theorem coldReset_sound (_ : Sound k₀ s.kept) : Sound k₀ s.coldReset.kept := by
  refine ⟨fun _ => rfl, fun _ => ?_⟩
  change 500 ≤ 900 ∧ 900 ≤ 900
  omega

@[simp] theorem loseMain_kept (mv : Nat) : (s.loseMain mv).kept = s.kept := by
  simp [loseMain]

@[simp] theorem loseAux_sound (mv : Nat) (hs : Sound k₀ s.kept) : Sound k₀ (s.loseAux mv).kept := by
  simp [loseAux, hs]

@[simp] theorem surprise_kept (cause : Nat) : (s.surprise cause).kept = s.kept := by
  simp [surprise]

@[simp] theorem vfFlr_sound (p : Nat) (hs : Sound k₀ s.kept) : Sound k₀ (s.vfFlr p).kept := by
  simp [vfFlr, hs]

@[simp] theorem pf0Flr_sound (hs : Sound k₀ s.kept) : Sound k₀ s.pf0Flr.kept := by
  unfold pf0Flr
  split
  · exact hs
  · extract_lets s₁ s₂ sel s₃
    have h₁ : Sound k₀ s₁.kept := by simpa [s₁] using hs
    clear_value s₁
    have h₂ : Sound k₀ s₂.kept := foldl_sound (fun t p ht => vfFlr_sound _ ht) h₁
    clear_value s₂
    have h₃ : Sound k₀ s₃.kept := (foldl_kept _ (fun t k => dropStream_kept _) _ _).symm ▸ h₂
    clear_value s₃
    exact h₃

@[simp] theorem pf0FlrDone_sound (hs : Sound k₀ s.kept) : Sound k₀ s.pf0FlrDone.kept := by
  unfold pf0FlrDone
  split
  · exact hs
  · extract_lets asked src₁ src₂ src₃ s₁ s₂ src₄
    have h₁ : Sound k₀ s₁.kept := ⟨fun _ => rfl, hs.2⟩
    clear_value s₁
    have h₂ : Sound k₀ s₂.kept := initMemory_sound [] h₁
    clear_value s₂
    split
    · rw [rampRails_kept]
      exact h₂
    · exact h₁

@[simp] theorem streamControl_kept (k : Nat) (v : BitVec 32) : (s.streamControl k v).kept = s.kept := by
  unfold streamControl
  dsimp only
  (repeat' split) <;> simp

@[simp] theorem cfgWrite_kept (fn : Nat) (w : CfgWrite) : (s.cfgWrite fn w).kept = s.kept := by
  unfold cfgWrite
  dsimp only
  (repeat' split) <;> simp [foldl_kept]

@[simp] theorem bar2_sound (p : Nat) (write : Bool) (off len : Nat) (data : List Byte) (ide : Option Nat) (hs : Sound k₀ s.kept) :
    Sound k₀ (s.bar2 p write off len data ide).kept := by
  unfold bar2
  dsimp only
  (repeat' split) <;> simp [hs]

theorem capOf_range (w : Nat) : 500 ≤ (capOf w).1 ∧ (capOf w).1 ≤ 900 := by
  simp only [capOf]
  omega

/-! ### Rails, pace and STANDBY -/

@[simp] theorem pwrCapWrite_sound (v : Nat) (hs : Sound k₀ s.kept) : Sound k₀ (s.pwrCapWrite v).kept := ⟨hs.1, fun _ => capOf_range _⟩

@[simp] theorem standbyRequest_kept (force : Bool) : (s.standbyRequest force).kept = s.kept := by
  simp [standbyRequest, foldl_kept]

@[simp] theorem dropSessions_kept : s.dropSessions.kept = s.kept := by
  simp [dropSessions, foldl_kept]

@[simp] theorem standbyDone_kept : s.standbyDone.kept = s.kept := by
  simp [standbyDone]

/-! ### The loader -/

@[simp] theorem stageImage_kept (fn : Nat) : (s.stageImage fn).kept = s.kept := by
  simp [stageImage]

@[simp] theorem checksDone_kept : s.checksDone.kept = s.kept := by
  unfold checksDone
  dsimp only
  (repeat' split) <;> simp

/-! ### Sessions, link encryption and interfaces -/

@[simp] theorem streamChanged_kept (k : Nat) : (s.streamChanged k).kept = s.kept := by
  simp only [streamChanged]
  (repeat' split) <;> simp

@[simp] theorem keyProg_kept (k set_ : Nat) (rx : Bool) (sub : Nat) : (s.keyProg k set_ rx sub).kept = s.kept := by
  simp [keyProg]

@[simp] theorem kSetStop_kept (k set_ : Nat) (rx : Bool) (sub : Nat) : (s.kSetStop k set_ rx sub).kept = s.kept := by
  simp [kSetStop]

@[simp] theorem tdiStart_kept (p : Nat) : (s.tdiStart p).kept = s.kept := by
  simp only [tdiStart]
  (repeat' split) <;> simp

@[simp] theorem tdiStop_kept (p : Nat) : (s.tdiStop p).kept = s.kept := by
  unfold tdiStop
  dsimp only
  (repeat' split) <;> simp

/-! ### Host registers -/

@[simp] theorem msixPut_kept (fn i v : Nat) : (s.msixPut fn i v).kept = s.kept := by
  simp [msixPut]

@[simp] theorem msixPuts_kept (fn o : Nat) (lo hi : Bool) (v : Nat) : (s.msixPuts fn o lo hi v).kept = s.kept := by
  simp [msixPuts]

@[simp] theorem schPut_kept (p v : Nat) : (s.schPut p v).kept = s.kept := by
  simp [schPut]

@[simp] theorem pwrPut_kept (v : Nat) : (s.pwrPut v).kept = s.kept := by
  simp [pwrPut]

@[simp] theorem pfPut_sound (o : Nat) (lo hi : Bool) (v : Nat) (hs : Sound k₀ s.kept) : Sound k₀ (s.pfPut o lo hi v).kept := by
  unfold pfPut
  dsimp only
  (repeat' split) <;> simp [hs]

@[simp] theorem vfCtlPut_kept (p o : Nat) (lo hi : Bool) (v : Nat) : (s.vfCtlPut p o lo hi v).kept = s.kept := by
  simp [vfCtlPut]

@[simp] theorem vfPut_kept (p o : Nat) (lo hi : Bool) (v : Nat) : (s.vfPut p o lo hi v).kept = s.kept := by
  simp [vfPut]

@[simp] theorem regWrite_sound (fn off size val : Nat) (hs : Sound k₀ s.kept) : Sound k₀ (s.regWrite fn off size val).kept := by
  unfold regWrite
  dsimp only
  (repeat' split) <;> simp [hs]

@[simp] theorem hostRegWrite_sound (fn off size val : Nat) (ide : Option Nat) (hs : Sound k₀ s.kept) :
    Sound k₀ (s.hostRegWrite fn off size val ide).kept := by
  unfold hostRegWrite
  split
  · exact regWrite_sound _ _ _ _ hs
  all_goals simpa using hs

@[simp] theorem hostCompletion_sound (tag : Nat) (ok : Bool) (data : List Byte) (hs : Sound k₀ s.kept) :
    Sound k₀ (s.hostCompletion tag ok data).kept := by
  unfold hostCompletion
  dsimp only
  (repeat' split) <;> simp [hs]

/-! ### Management -/

@[simp] theorem compareUnit_sound (u : UnitId) (hs : Sound k₀ s.kept) : Sound k₀ (s.compareUnit u).kept := by
  unfold compareUnit
  dsimp only
  split
  · exact hs
  · split
    · exact hs
    · split
      · exact quarantine_sound _ _ hs
      · exact hs

@[simp] theorem viewCompare_sound (seen : List (Nat × Nat)) (hs : Sound k₀ s.kept) : Sound k₀ (s.viewCompare seen).kept := by
  unfold viewCompare
  split
  · exact hs
  · exact foldl_sound (fun t u ht => compareUnit_sound _ ht) hs

end Sys2Proof.Machine.State
end

section
/-! Every command, and with it every step, keeps package memory canonical and the power limit in range. -/

namespace Sys2Proof.Machine.State

variable {s : State} {k₀ : List Host.Cell × Nat}

/-- Every outcome of a command is sound. -/
def Keeps (k₀ : List Host.Cell × Nat) (r : Res) : Prop := ∀ t, r = .next t → Sound k₀ t.kept

theorem keeps_next {t : State} (h : Sound k₀ t.kept) : Keeps k₀ (.next t) := by
  rintro _ ⟨⟩
  exact h

theorem keeps_of_kept {t : State} (h : t.kept = s.kept) (hs : Sound k₀ s.kept) : Keeps k₀ (.next t) := keeps_next (h ▸ hs)

theorem keeps_vfWrite {p off : Nat} {ide : Option Nat} {f : State → State} (h : (f s).kept = s.kept) (hs : Sound k₀ s.kept) :
    Keeps k₀ (.next (s.vfWrite p off ide f)) := keeps_of_kept (s.vfWrite_kept _ _ _ _ h) hs

theorem keeps_slotCmd {n : Nat} {more : Bool} {op : SlotOp} (hs : Sound k₀ s.kept) : Keeps k₀ (s.slotCmd n more op) :=
  fun _ ht => slotCmd_sound ht hs

theorem otveda_sound {tr : Transport} {f : State → State} (hf : Sound k₀ (f s).kept) (hs : Sound k₀ s.kept) :
    Sound k₀ (s.otveda tr f).kept := by
  unfold otveda
  split
  · exact hf
  · exact hs

theorem privileged_sound {tr : Transport} {au : Auth} {f : State → State} (hf : ∀ t : State, Sound k₀ t.kept → Sound k₀ (f t).kept)
    (hs : Sound k₀ s.kept) : Sound k₀ (s.privileged tr au f).kept := by
  unfold privileged
  split
  · exact hf _ (by simpa using hs)
  · simpa using hs

/-- Every command keeps package memory canonical and the limit in range. -/
theorem exec_keeps (i : Instr) (hs : Sound k₀ s.kept) : Keeps k₀ (exec i s) := by
  cases i with
  -- one operation of a bundle: the beat that issues it
  | nop | add | sub | and | or | xor | sll | srl | sra | slt | sltu | min | max | mul | addi | andi | ori | xori | slli | srli | srai |
    slti | li | lis | beq | bne | blt | bge | bltu | bgeu | jal | jr | amov | aaddi | xmova | getsv | rand | jobStop | vnop | vadd |
    vsub | vmul | vfma | vmax | vmin | vand | vor | vxor | vcmplt | vsel | vcvt | vbcast | vred | vsfu | mnop | ldr | str | lda | sta |
    fill | copy | semsig | semwait | hqpush | hqpop | claimTake | claimArm | strmgo | strmswap | strmwait | hoopPush | hoopConfig |
    hoopPop | hoopPeek | hoopDrop | hoopCount | arrwait | arrwaitSub | arrivalReset | mwait | matmul | attend | create | yardRelease |
    append | trim | fork | lookup | publish | pin | unpin | prefetch | query | ptread =>
    unfold exec
    exact keeps_slotCmd hs
  -- writes of a VF register that reach neither the memory nor the limit
  | pdkPaceWrite | pdkLoadGo | ringEnable | ringDisable | sqTailDoorbell | cqHeadDoorbell | pdkConsentWrite | yrdPfxKeyWrite |
    yrdLoftWrite | graphArm | graphDisarm | frameSubmit | activate | retire | fabJobMemberWrite | fabJobKeyWrite | eyeletOpen |
    eyeletClose | fabPostqWrite =>
    exact keeps_vfWrite (by simp) hs
  -- commands that reach neither
  | rcRead | tscRead | rowSlotGrant | pkgMemFetchComplete | pkgMemWriteComplete | memPatrol | railUpdate | junctionAboveFloor |
    junctionRecovered | thermalTrip | tripEnterStandby | auxPowerOn | mainPowerOn | perstDeassert | linkTrainingStart | perstAssert |
    hotReset | linkDisable | linkDisableCleared | conventionalResetDone | p54vLoss | p54vLowTimeout | refclkStop | linkDown |
    standbyRequest | standbyTransitionDone | powerUp | vfD3hot | vfBmeClear | vfBmeSet | configWrite | msixRelease | unsupportedTlp |
    ldrGo | loaderTake | loadChecksComplete | platformCommit | tenantCommit | suspend | resume | teardown | teardownDrained |
    scheduleDecision | sliceExpiry | baySwitch | completionWrite | entropySample | drbgReinstantiate | drbgReseed | entropyWaitTimeout |
    getVersion | getCapabilities | negotiateAlgorithms | getDigests | getCertificate | challenge | getMeasurements | keyExchange |
    finish | heartbeat | keyUpdate | endSession | chunkGet | spdmUnsupportedRequest | heartbeatTimeout | keyProg | kSetGo | kSetStop |
    lockInterfaceRequest | getDeviceInterfaceReport | startInterfaceRequest | stopInterfaceRequest | tdispUnsupportedRequest | epochAck
    | bayPowerDown | bayScrubConfirmed | bayPowerUp | splitDelivery | streamWriteAck | eccWriteback | deferredSignalDelivery | helloSend
    | hello | helloTimeout | pauseFrame | ackFrame | nakFrame | retireFrame | eyeletAbandon | resendTimeout | retireResend |
    deferredArrival | setEndpointId | getEndpointId | getEndpointUuid | getMctpVersionSupport | getMessageTypeSupport | getTid |
    getPldmVersion | getPldmTypes | getPldmCommands | setEventReceiver | getPdrRepositoryInfo | getPdr | getSensorReading |
    pollForPlatformEventMessage | mctpUnsupportedCommand | queryDeviceIdentifiers | getFirmwareParameters | requestUpdate |
    passComponentTable | updateComponent | requestFirmwareDataResponse | transferComplete | verifyComplete | applyComplete |
    activateFirmware | getStatus | cancelUpdateComponent | cancelUpdate | getNonce | enrollKey | revokeKey | logRead | logClear |
    selftest | selftestBayStart | selftestBayDone | calibrate | release | testAccess | ctrlRestart | watchdogExpiry | ctrlRestartDone |
    repairList | getSfuProgram | otvedaUndefinedCommand | sensorRefresh | refclkStart | configurationReady | fabricLinkUp |
    fabricLinkDown | powerUpAfterTripDone | bayPowerUpComplete | doeDiscovery | otherEthertypeFrame =>
    exact keeps_of_kept (s := s) (by simp) hs
  -- commands that reach a writer
  | registerWrite | pkgMemAccess | pwrCapWrite | auxLoss | pf0Flr | vfFlr | bar2Tlp | hostCompletion | completionTimeout |
    teardownComplete | coresStopped | jobEnd | tileDrain | macroComplete | splitFold | loftPageReturn | frameZeroed | deferredRelease |
    streamRequestIssue | streamRowDelivered | spadPatrol | spadUncorrectable | bandTake | frameRecord | dataFrame | collFrame | put |
    get | statSum | sumF32 | maxF32 | collectiveFold | postCompletion | notReadyRetry | viewCompare | pf0FlrComplete =>
    refine keeps_next ?_
    simp [hs]
  | pdkWinWrite => exact keeps_vfWrite (modPdk_kept ..) hs
  | bubbleBeat => exact fun _ ht => bubbleBeat_sound ht hs
  | rampComplete =>
    refine keeps_next ?_
    split <;> simp [hs]
  | vfEnableClear =>
    refine keeps_next ?_
    have h : Sound k₀ (execVfEnableClear.allPdksVfFlr s).kept := foldl_sound (fun t p ht => vfFlr_sound _ ht) hs
    generalize execVfEnableClear.allPdksVfFlr s = t at h ⊢
    split
    · exact h
    · exact hs
  | pf0D3hot | vfD0 => exact keeps_of_kept (s := s) (by simp [foldl_kept]) hs
  | ideKmQuery | getTdispVersion | getTdispCapabilities | getDeviceInterfaceState =>
    exact keeps_of_kept (secured_kept (send_kept ..)) hs
  | getStateSensorReadings =>
    refine keeps_of_kept (mctp_kept ?_) hs
    split <;> simp
  | quarantine =>
    refine keeps_next (otveda_sound (privileged_sound (fun t ht => ?_) hs) hs)
    rw [respond_kept]
    exact quarantine_sound _ _ ht
  | sqEntry | remoteSemsigArrival | remoteHqpushArrival =>
    refine keeps_of_kept (s := s) ?_ hs
    split <;> simp

end Sys2Proof.Machine.State

namespace Sys2Proof.Proofs

open Sys2Proof Sys2Proof.Machine Sys2Proof.Claims

/-- Settles O60: a tick writes neither, and every command keeps the memory canonical and the limit between 500 and 900 W. -/
theorem stepKeepsMemoryAndLimit : Obligations.StepKeepsMemoryAndLimit := by
  intro s t ht
  suffices h : State.Sound s.kept t.kept from h
  unfold step at ht
  split at ht
  · cases ht
    rw [State.idleTick_kept]
    exact State.Sound.refl _
  · next c rest _ => exact State.exec_keeps (s := { s with pending := rest }) c (State.Sound.refl _) t ht

end Sys2Proof.Proofs
end

section
/-! Rails, the power limit and the pace (02 R50-R64, R473): what the operations of the power chapter write, and that they leave everything
else alone. -/

namespace Sys2Proof.Machine

/-! ### Tables of the four compute dies -/

theorem tget_dies (f : Nat → Nat) {d : Nat} (h : d < 4) : tget 0 ((List.range 4).map fun d => (d, f d)) d = f d := by
  interval_cases d <;> rfl

theorem foldl_min_le {α : Type} (g : α → Nat) (l : List α) (a : Nat) :
    l.foldl (fun m x => min m (g x)) a ≤ a ∧ ∀ x ∈ l, l.foldl (fun m x => min m (g x)) a ≤ g x := by
  induction l generalizing a with
  | nil => exact ⟨Nat.le_refl a, fun x hx => absurd hx List.not_mem_nil⟩
  | cons y l ih =>
    obtain ⟨ha, hl⟩ := ih (min a (g y))
    refine ⟨ha.trans (Nat.min_le_left ..), fun x hx => ?_⟩
    rcases List.mem_cons.mp hx with rfl | hx
    · exact ha.trans (Nat.min_le_right ..)
    · exact hl x hx

theorem foldl_min_attained {α : Type} (g : α → Nat) (l : List α) (a : Nat) :
    l.foldl (fun m x => min m (g x)) a = a ∨ ∃ x ∈ l, l.foldl (fun m x => min m (g x)) a = g x := by
  induction l generalizing a with
  | nil => exact .inl rfl
  | cons y l ih =>
    rw [List.foldl_cons]
    rcases ih (min a (g y)) with h | ⟨x, hx, h⟩
    · rcases Nat.le_total a (g y) with hle | hle
      · exact .inl (h.trans (Nat.min_eq_left hle))
      · exact .inr ⟨y, List.mem_cons_self, h.trans (Nat.min_eq_right hle)⟩
    · exact .inr ⟨x, List.mem_cons_of_mem y hx, h⟩

namespace State

variable {s : State}

/-! ### One rail's next value -/

/-- From the floor up a rail moves by at most 10 mV, stays between 0.72 V and 0.84 V, and steps down where the beat monitor says so. -/
theorem railNext_fromFloor (old want beat : Nat) (hlo : 720 ≤ old) (hhi : old ≤ 840) :
    720 ≤ railNext old want beat false ∧ railNext old want beat false ≤ 840 ∧ railNext old want beat false ≤ old + 10 ∧
      old ≤ railNext old want beat false + 10 ∧ (2560 < beat → railNext old want beat false = max 720 (old - 10)) := by
  have hfloor : ¬old < 720 := by omega
  simp only [railNext, Bool.false_eq_true, if_false, if_neg hfloor]
  split <;> split <;> omega

/-- Below the floor a rail goes down by at most 10 mV, and not below 0.66 V. -/
theorem railNext_belowFloor (old want beat : Nat) (hlo : 660 ≤ old) (hhi : old < 720) :
    railNext old want beat false ≤ old ∧ old ≤ railNext old want beat false + 10 ∧ 660 ≤ railNext old want beat false := by
  simp only [railNext, Bool.false_eq_true, if_false, if_pos hhi]
  omega

theorem railNext_held (old want beat : Nat) : railNext old want beat true = 720 := rfl

/-! ### RAIL_UPDATE -/

/-- The rails that an update of powered dies leaves (02 R57-R59, R61, R62). -/
def railsAfter (s : State) (cap therm : List Nat) : Tab Nat :=
  (List.range 4).map fun d =>
    (d, railNext (s.rail d) (min (cap.getD d 840) (therm.getD d 840)) (tget 0 s.dev.beatMon d) s.dev.tripSeal)

/-- The lowest rail of a table, and at most 0.84 V. -/
def lowestRail (rails : Tab Nat) : Nat := rails.foldl (fun m e => min m e.2) 840

/-- All but messages, events and the paddocks' records. -/
def hardware (s : State) : State := { s.calm with pdks := [] }

theorem hardware_of_calm {t : State} (h : t.calm = s.calm) : t.hardware = s.hardware := by
  rw [hardware, h, hardware]

@[simp] theorem hardware_modPdk (p : Nat) (f : Pdk → Pdk) : (s.modPdk p f).hardware = s.hardware := rfl

theorem hardware_foldl {α : Type} {f : State → α → State} (hf : ∀ t x, (f t x).hardware = t.hardware) (l : List α) :
    (l.foldl f s).hardware = s.hardware := by
  induction l generalizing s with
  | nil => rfl
  | cons x l ih => rw [List.foldl_cons, ih, hf]

theorem hardware_markUnmet (d : Nat) : (s.markUnmet d).hardware = s.hardware := by
  unfold markUnmet
  split
  · rfl
  · refine hardware_foldl (fun t p => ?_) _
    split <;> rfl

/-- An update of powered rails writes the rails, the readings of the beat monitor and whether the cap limits; the rest is events. -/
theorem railUpdate_hardware (hb : s.dev.baseOn = true) (hr : s.mgt.restart = false) (hc : s.dev.computeRails = true)
    (cap therm mon : List Nat) (base : Nat) :
    (s.railUpdate cap therm mon base).hardware =
      { s.hardware with dev := { s.hardware.dev with
          railMv := s.railsAfter cap therm
          beatMon := (List.range 4).map fun d => (d, mon.getD d 0)
          baseRailMv := if 2560 < s.dev.beatBase then max 720 (min (lowestRail (s.railsAfter cap therm)) (s.dev.baseRailMv - 10))
            else lowestRail (s.railsAfter cap therm)
          beatBase := base
          capLimiting := (List.range 4).any fun d => cap.getD d 840 < therm.getD d 840 } } := by
  rw [railUpdate, if_neg (by simp [hb, hr]), if_neg (by simp [hc]), hardware_foldl (fun t d => hardware_markUnmet d)]
  split
  · rw [hardware_of_calm (pwrEv_calm _ _)]
    rfl
  · rfl

theorem lowestRail_le (f : Nat → Nat) {e : Nat} (h : e < 4) : lowestRail ((List.range 4).map fun d => (d, f d)) ≤ f e :=
  (foldl_min_le Prod.snd _ 840).2 (e, f e) (List.mem_map_of_mem (List.mem_range.mpr h))

theorem lowestRail_attained (f : Nat → Nat) :
    lowestRail ((List.range 4).map fun d => (d, f d)) = 840 ∨ ∃ e < 4, lowestRail ((List.range 4).map fun d => (d, f d)) = f e := by
  refine (foldl_min_attained Prod.snd _ 840).imp_right ?_
  rintro ⟨x, hx, h⟩
  obtain ⟨e, he, rfl⟩ := List.mem_map.mp hx
  exact ⟨e, List.mem_range.mp he, h⟩

section
variable (hb : s.dev.baseOn = true) (hr : s.mgt.restart = false) (hc : s.dev.computeRails = true)
  (cap therm mon : List Nat) (base : Nat)
include hb hr hc

theorem rail_railUpdate {d : Nat} (h : d < 4) : (s.railUpdate cap therm mon base).rail d =
    railNext (s.rail d) (min (cap.getD d 840) (therm.getD d 840)) (tget 0 s.dev.beatMon d) s.dev.tripSeal :=
  (congrArg (fun u : State => u.rail d) (railUpdate_hardware hb hr hc cap therm mon base) :).trans (tget_dies _ h)

/-- Where its own reading was not above the ceiling, the base die follows the lowest rail of the others. -/
theorem baseRail_railUpdate (hbeat : s.dev.beatBase ≤ 2560) :
    (s.railUpdate cap therm mon base).dev.baseRailMv = lowestRail (s.railsAfter cap therm) :=
  (congrArg (fun u : State => u.dev.baseRailMv) (railUpdate_hardware hb hr hc cap therm mon base) :).trans
    (if_neg (Nat.not_lt.mpr hbeat))

end

theorem railUpdate_unpowered (hb : s.dev.baseOn = true) (hr : s.mgt.restart = false) (hc : s.dev.computeRails = false)
    (cap therm mon : List Nat) (base : Nat) : s.railUpdate cap therm mon base =
      { s with dev := { s.dev with railMv := [], beatMon := [], baseRailMv := 720, beatBase := base } } := by
  rw [railUpdate, if_neg (by simp [hb, hr]), if_pos (by simp [hc])]

theorem railUpdate_restart (hr : s.mgt.restart = true) (cap therm mon : List Nat) (base : Nat) :
    s.railUpdate cap therm mon base = s := if_pos (by simp [hr])

/-! ### The power limit and the pace -/

theorem capOf_eq (w : Nat) : capOf w = (if w < 500 then 500 else if 900 < w then 900 else w, decide (w < 500 ∨ 900 < w)) := by
  refine Prod.ext ?_ rfl
  simp only [capOf]
  split
  · omega
  · split <;> omega

theorem vfWrite_heeded {p off : Nat} {ide : Option Nat} (h : Claims.Heeds s (p + 1) ide) (f : State → State) :
    s.vfWrite p off ide f = f s := by
  simp [vfWrite, h.1, h.2]

theorem vfWrite_wrongStream {p off : Nat} {ide : Option Nat} (hk : s.keyGone ide = false) (hi : s.ideBad (p + 1) ide = true)
    (f : State → State) : s.vfWrite p off ide f = (s.refuse (p + 1) Status.accessDenied 0 off).errMsg (p + 1) true true := by
  simp [vfWrite, hk, hi, ideRefuse]

theorem vfWrite_retired {p off : Nat} {ide : Option Nat} (hk : s.keyGone ide = true) (f : State → State) :
    s.vfWrite p off ide f = s.countRetired := by
  simp [vfWrite, hk]

/-- Whether the image of a paddock allows a pace (02 R52). -/
def paceable (s : State) (p : Nat) : Prop := ∃ img, (s.pdk p).img = some img ∧ bitAt img.features 3 = true

theorem paceWrite_taken {p v : Nat} (h : bitAt v 0 = false ∨ (1 ≤ bits v 14 8 ∧ bits v 14 8 ≤ 108 ∧ s.paceable p)) :
    s.paceWrite p v = s.modPdk p (fun d =>
      { d with paceEn := bitAt v 0, paceN := bits v 14 8, paceReject := false, paceUnmet := d.paceUnmet && !bitAt v 17 }) := by
  refine if_neg ?_
  rcases h with h | ⟨hlo, hhi, img, himg, hcan⟩
  · simp [h]
  · have hn : ¬(bits v 14 8 = 0 ∨ 108 < bits v 14 8) := by omega
    simp [himg, hcan, hn]

theorem paceWrite_refused {p v : Nat} (hon : bitAt v 0 = true) (h : bits v 14 8 = 0 ∨ 108 < bits v 14 8 ∨ ¬s.paceable p) :
    s.paceWrite p v = s.modPdk p (fun d => { d with paceReject := true }) := by
  refine if_pos ?_
  rcases h with h | h | h
  · simp [hon, h]
  · simp [hon, h]
  · cases himg : (s.pdk p).img with
    | none => simp [hon]
    | some img =>
      have hcan : bitAt img.features 3 = false := Bool.eq_false_of_not_eq_true fun hf => h ⟨img, himg, hf⟩
      simp [hon, hcan]

theorem pwrCapWrite_eq (v : Nat) : s.pwrCapWrite v = { s with dev := { s.dev with
    capWatts := if bits v 9 0 < 500 then 500 else if 900 < bits v 9 0 then 900 else bits v 9 0
    clamped := decide (bits v 9 0 < 500 ∨ 900 < bits v 9 0) } } := by
  rw [pwrCapWrite, capOf_eq]

end State

end Sys2Proof.Machine

namespace Sys2Proof.Proofs

open Sys2Proof Sys2Proof.Machine Sys2Proof.Claims

/-- Settles O31, from the next value of one rail (`railNext`) and the rest of an update, which is events and paddock records. -/
theorem railsPowerCapAndPace : Obligations.RailsPowerCapAndPace := by
  refine ⟨fun s cap therm mon base d hd => ⟨fun hb hr hc => ?powered, fun hb hr hc => ?unpowered, fun hr => ?restart⟩,
    fun s v p ide => ?limits⟩
  case powered =>
    have hrail {e : Nat} (he : e < 4) := State.rail_railUpdate hb hr hc cap therm mon base he
    have hrest := State.railUpdate_hardware hb hr hc cap therm mon base
    refine ⟨_, rfl, fun hlo hhi hseal => ?steps, fun hseal => ?held, fun hbeat => ⟨fun e he => ?lowest, ?attained⟩,
      (congrArg (fun u : State => u.dev.beatBase) hrest :),
      (congrArg (fun u : State => tget 0 u.dev.beatMon d) hrest :).trans (tget_dies _ hd),
      (congrArg State.mem hrest :), (congrArg (fun u : State => u.dev.phase) hrest :), (congrArg (fun u : State => u.dev.capWatts) hrest :),
      fun n => (congrArg (fun u : State => u.core n) hrest :)⟩
    case steps =>
      rw [hrail hd, hseal]
      exact State.railNext_fromFloor _ _ _ hlo hhi
    case held => rw [hrail hd, hseal, State.railNext_held]
    case lowest =>
      rw [State.baseRail_railUpdate hb hr hc cap therm mon base hbeat, hrail he]
      exact State.lowestRail_le _ he
    case attained =>
      rw [State.baseRail_railUpdate hb hr hc cap therm mon base hbeat]
      refine (State.lowestRail_attained _).imp_right ?_
      rintro ⟨e, he, h⟩
      exact ⟨e, he, h.trans (hrail he).symm⟩
  case unpowered => exact ⟨_, congrArg Host.Outcome.next (State.railUpdate_unpowered hb hr hc ..), rfl, rfl, rfl⟩
  case restart => exact congrArg Host.Outcome.next (State.railUpdate_restart hr ..)
  case limits =>
    refine ⟨?cap, fun hh => ⟨fun h => ?taken, fun hon h => ?refused⟩, fun hk hi => ?wrongStream, fun hk => ?retired⟩
    case cap => exact congrArg Host.Outcome.next (State.pwrCapWrite_eq _)
    case taken => exact congrArg Host.Outcome.next ((State.vfWrite_heeded hh _).trans (State.paceWrite_taken h))
    case refused => exact congrArg Host.Outcome.next ((State.vfWrite_heeded hh _).trans (State.paceWrite_refused hon h))
    case wrongStream => exact congrArg Host.Outcome.next (State.vfWrite_wrongStream hk hi _)
    case retired => exact congrArg Host.Outcome.next (State.vfWrite_retired hk _)

end Sys2Proof.Proofs
end

section
/-! Thermal control (02 R54, R58, R62-R64). `board` is the power and reset state of the device without its event bits, with the platform
image: what messages, events, log records, scrubs and the paddocks' states leave alone. -/

namespace Sys2Proof.Machine

/-! ### Event bits -/

theorem bitAt_eq_testBit (v i : Nat) : bitAt v i = v.testBit i := (Nat.testBit_eq_decide_div_mod_eq).symm

theorem bitAt_setBit (x : BitVec 64) {b : Nat} (h : b < 64) : bitAt (x ||| BitVec.ofNat 64 (2 ^ b)).toNat b = true := by
  have hlt : 2 ^ b < 2 ^ 64 := Nat.pow_lt_pow_right (by omega) h
  rw [bitAt_eq_testBit, BitVec.toNat_or, BitVec.toNat_ofNat, Nat.mod_eq_of_lt hlt, Nat.testBit_or, Nat.testBit_two_pow_self, Bool.or_true]

theorem bitAt_or_of_bitAt {x : BitVec 64} (y : BitVec 64) {b : Nat} (h : bitAt x.toNat b = true) : bitAt (x ||| y).toNat b = true := by
  simp [bitAt_eq_testBit] at h ⊢
  exact .inl h

/-! ### Folds that reach a goal -/

/-- A fold over a list with `a` in it reaches `P`, where the step for `a` reaches it from `Q`, the steps for others keep `Q`, and every
step keeps `P`. -/
theorem foldl_reaches {σ α : Type} {P Q : σ → Prop} {f : σ → α → σ} {a : α} (hQ : ∀ t x, x ≠ a → Q t → Q (f t x))
    (hP : ∀ t x, P t → P (f t x)) (hQP : ∀ t, Q t → P (f t a)) {l : List α} (ha : a ∈ l) {s : σ} (h : Q s) : P (l.foldl f s) := by
  have keep (l : List α) {t : σ} (ht : P t) : P (l.foldl f t) := by
    induction l generalizing t with
    | nil => exact ht
    | cons x l ih => exact ih (hP t x ht)
  induction l generalizing s with
  | nil => exact absurd ha List.not_mem_nil
  | cons x l ih =>
    by_cases hx : x = a
    · subst hx
      exact keep l (hQP s h)
    · exact ih ((List.mem_cons.mp ha).resolve_left (Ne.symm hx)) (hQ s x hx h)

/-- A fold over a list with `a` in it reaches what the step for `a` establishes and every step keeps. -/
theorem foldl_establishes {σ α : Type} {P : σ → Prop} {f : σ → α → σ} {a : α} (hP : ∀ t x, P t → P (f t x)) (ha : ∀ t, P (f t a))
    {l : List α} (hl : a ∈ l) (s : σ) : P (l.foldl f s) :=
  foldl_reaches (Q := fun _ => True) (fun _ _ _ _ => trivial) hP (fun t _ => ha t) hl trivial

namespace State

variable {s : State}

theorem foldl_proj {α β : Type} (g : State → β) {f : State → α → State} (hf : ∀ t x, g (f t x) = g t) (l : List α) :
    g (l.foldl f s) = g s := by
  induction l generalizing s with
  | nil => rfl
  | cons x l ih => rw [List.foldl_cons, ih, hf]

/-! ### The board -/

/-- The device's power and reset state without its event bits, and the platform image. -/
def board (s : State) : Dev × Option Platform := ({ s.dev with pwrEvent := 0 }, s.plat)

theorem board_of_calm {t : State} (h : t.calm = s.calm) : t.board = s.board :=
  (congrArg (fun u : State => (u.dev, u.plat)) h :)

@[simp] theorem pwrEv_board (b : Nat) : (s.pwrEv b).board = s.board := board_of_calm (pwrEv_calm ..)
@[simp] theorem schEv_board (b p : Nat) : (s.schEv b p).board = s.board := board_of_calm (schEv_calm ..)
@[simp] theorem logRec_board (kind index status severity event paddock : Nat) (detail : List Nat) :
    (s.logRec kind index status severity event paddock detail).board = s.board := board_of_calm (logRec_calm ..)
@[simp] theorem modPdk_board (p : Nat) (f : Pdk → Pdk) : (s.modPdk p f).board = s.board := rfl
@[simp] theorem modBay_board (b : Nat) (f : Bay → Bay) : (s.modBay b f).board = s.board := rfl
@[simp] theorem modCore_board (n : Nat) (f : Core → Core) : (s.modCore n f).board = s.board := rfl

@[simp] theorem pdkEv_board (p b : Nat) : (s.pdkEv p b).board = s.board := by
  rcases s.pdkEv_calm p b with h | h
  · exact board_of_calm h
  · exact (board_of_calm h).trans (modPdk_board ..)

@[simp] theorem setPdkSt_board (p : Nat) (st : PdkSt) : (s.setPdkSt p st).board = s.board := by
  simp only [setPdkSt]
  repeat' split
  all_goals simp

@[simp] theorem settlePdk_board (p : Nat) : (s.settlePdk p).board = s.board := by
  unfold settlePdk
  split <;> simp

@[simp] theorem freeBay_board (b : Nat) : (s.freeBay b).board = s.board := by
  unfold freeBay
  dsimp only
  split <;> simp

@[simp] theorem stopBay_board (b : Nat) (why : StopWhy) : (s.stopBay b why).board = s.board := by
  unfold stopBay
  split
  · rfl
  · refine foldl_proj board (fun t c => ?_) _
    split <;> rfl

@[simp] theorem suspendBays_board (p : Nat) (why : StopWhy) : (s.suspendBays p why).board = s.board := by
  rw [suspendBays, foldl_proj board (fun t b => stopBay_board b why), foldl_proj board]
  intro t b
  split <;> rfl

@[simp] theorem suspendFor_board (p : Nat) (f : Susp → Susp) (why : StopWhy) : (s.suspendFor p f why).board = s.board := by
  unfold suspendFor
  dsimp only
  split
  · simp
  · simp
  · split <;> simp
  · rfl

@[simp] theorem markUnmet_board (d : Nat) : (s.markUnmet d).board = s.board := by
  unfold markUnmet
  split
  · rfl
  · refine foldl_proj board (fun t p => ?_) _
    split <;> rfl

@[simp] theorem retireRow_board (n r : Nat) : (s.retireRow n r).board = s.board := by
  unfold retireRow
  dsimp only
  split <;> rfl

@[simp] theorem mapOut_board (n : Nat) : (s.mapOut n).board = s.board := by
  refine foldl_proj board (fun t r => ?_) _
  dsimp only
  repeat' split
  all_goals simp

@[simp] theorem scrubCore_board (n : Nat) : (s.scrubCore n).board = s.board := by
  simp [scrubCore]

@[simp] theorem scrubBay_board (b : Nat) : (s.scrubBay b).board = s.board := by
  unfold scrubBay
  extract_lets s₁ s₂
  have h₁ : s₁.board = s.board := foldl_proj board (fun t n => scrubCore_board n) _
  clear_value s₁
  exact h₁

@[simp] theorem scrubAll_board : s.scrubAll.board = s.board := foldl_proj board (fun _ b => scrubBay_board b) _

/-! ### Event bits of the device and of a paddock -/

@[simp] theorem msix_dev (fn v : Nat) : (s.msix fn v).dev = s.dev := by
  unfold msix
  split <;> rfl

@[simp] theorem logRec_dev (kind index status severity event paddock : Nat) (detail : List Nat) :
    (s.logRec kind index status severity event paddock detail).dev = s.dev := by
  simp only [logRec, rasEv, platformEvent]
  repeat' split
  all_goals simp

@[simp] theorem pdkEv_dev (p b : Nat) : (s.pdkEv p b).dev = s.dev := by
  unfold pdkEv
  split <;> simp

theorem bitAt_pwrEv {b : Nat} (h : b < 64) : bitAt (s.pwrEv b).dev.pwrEvent.toNat b = true := by
  unfold pwrEv
  split
  · assumption
  · rw [msix_dev]
    exact bitAt_setBit _ h

@[simp] theorem msix_pdk (fn v p : Nat) : (s.msix fn v).pdk p = s.pdk p := by
  unfold msix
  split <;> rfl

theorem pdkEv_pdk_ne {p q : Nat} (b : Nat) (h : q ≠ p) : (s.pdkEv p b).pdk q = s.pdk q := by
  unfold pdkEv
  split
  · rfl
  · rw [msix_pdk, pdk_modPdk_ne _ _ _ _ h]

theorem pdkEv_pdk_same (p b : Nat) : ∃ e, (s.pdkEv p b).pdk p = { s.pdk p with event := (s.pdk p).event ||| e } := by
  unfold pdkEv
  split
  · exact ⟨0, by simp⟩
  · exact ⟨_, by rw [msix_pdk, pdk_modPdk_same]⟩

theorem bitAt_pdkEv {b : Nat} (p : Nat) (h : b < 64) : bitAt ((s.pdkEv p b).pdk p).event.toNat b = true := by
  unfold pdkEv
  split
  · assumption
  · rw [msix_pdk, pdk_modPdk_same]
    exact bitAt_setBit _ h

/-- An event bit that is set stays set at another event. -/
theorem bitAt_pdkEv_of_bitAt {p b : Nat} (q c : Nat) (h : bitAt (s.pdk p).event.toNat b = true) :
    bitAt ((s.pdkEv q c).pdk p).event.toNat b = true := by
  by_cases hq : p = q
  · subst hq
    obtain ⟨e, he⟩ := pdkEv_pdk_same (s := s) p c
    rw [he]
    exact bitAt_or_of_bitAt e h
  · rw [pdkEv_pdk_ne c hq]
    exact h

@[simp] theorem pdkEv_baysOf (p b q : Nat) : (s.pdkEv p b).baysOf q = s.baysOf q := by
  rcases s.pdkEv_calm p b with h | h <;> exact (congrArg (fun u : State => u.baysOf q) h :)

/-! ### JUNCTION_ABOVE_FLOOR and JUNCTION_RECOVERED -/

/-- The rail of one die at a value, with the die's reading, and what follows for the base die's rail and SUBFLOOR. -/
def withRail (s : State) (d tj v : Nat) (mon : Tab Nat) : State :=
  ({ s with dev := { s.dev with tj := tset s.dev.tj d tj, railMv := tset s.dev.railMv d v, beatMon := mon } } :
    State).settleBase.settleSubfloor

theorem rail_of_board {t : State} (h : t.board = s.board) (d : Nat) : t.rail d = s.rail d :=
  (congrArg (fun u : Dev × Option Platform => tget 0 u.1.railMv d) h :)

section
variable (d tj v : Nat) (mon : Tab Nat)

theorem withRail_rail_same : (s.withRail d tj v mon).rail d = v := tget_tset_same ..

theorem withRail_rail_ne {e : Nat} (h : e ≠ d) : (s.withRail d tj v mon).rail e = s.rail e := tget_tset_ne _ _ _ _ _ h

theorem withRail_tj : tget 0 (s.withRail d tj v mon).dev.tj d = tj := tget_tset_same ..

theorem withRail_subfloor : (s.withRail d tj v mon).dev.subfloor = true ↔
    ∃ e < 4, 0 < (s.withRail d tj v mon).rail e ∧ (s.withRail d tj v mon).rail e < 720 := by
  change (List.range 4).any (fun e => 0 < (s.withRail d tj v mon).rail e && (s.withRail d tj v mon).rail e < 720) = true ↔ _
  simp

theorem withRail_baseRail_le (hb : s.dev.baseOn = true) (hc : s.dev.computeRails = true) {e : Nat} (he : e < 4) :
    (s.withRail d tj v mon).dev.baseRailMv ≤ (s.withRail d tj v mon).rail e := by
  have hbase : (s.withRail d tj v mon).dev.baseRailMv =
      (List.range 4).foldl (fun m e => min m ((s.withRail d tj v mon).rail e)) ((s.withRail d tj v mon).rail 0) :=
    (if_neg (by simp [hb])).trans (if_neg (by simp [hc]))
  rw [hbase]
  exact (foldl_min_le _ _ _).2 e (List.mem_range.mpr he)

end

/-- The rail that a die above 95 °C goes to (02 R62 step 1). -/
def loweredRail (old mv : Nat) : Nat := max 660 (max (old - 10) (min mv old))

/-- What the first step below floor tells (02 R62): the operator, the log and every paddock that holds a bay. -/
def tellSubfloor (s : State) (tj : Nat) : State :=
  allPdks.foldl (fun t p => if (t.baysOf p).isEmpty then t else t.pdkEv p 1) ((s.pwrEv 0).logRec 6 0 0 1 0x0002 0 [tj])

theorem tellSubfloor_board (tj : Nat) : (s.tellSubfloor tj).board = s.board := by
  rw [tellSubfloor, foldl_proj board, logRec_board, pwrEv_board]
  intro t p
  split <;> simp

theorem tellSubfloor_pwrEvent (tj : Nat) : bitAt (s.tellSubfloor tj).dev.pwrEvent.toNat 0 = true := by
  rw [tellSubfloor, foldl_proj State.dev, logRec_dev]
  · exact bitAt_pwrEv (by omega)
  · intro t p
    split <;> simp

theorem tellSubfloor_event (tj : Nat) {p : Nat} (hp : p < 64) (hb : s.baysOf p ≠ []) :
    bitAt ((s.tellSubfloor tj).pdk p).event.toNat 1 = true := by
  refine foldl_reaches (P := fun t : State => bitAt (t.pdk p).event.toNat 1 = true) (Q := fun t : State => t.baysOf p ≠ [])
    (fun t q hq h => ?_) (fun t q h => ?_) (fun t h => ?_) (List.mem_range.mpr hp) ?_
  · split
    · exact h
    · rwa [pdkEv_baysOf]
  · split
    · exact h
    · exact bitAt_pdkEv_of_bitAt q 1 h
  · rw [if_neg (by simpa using h)]
    exact bitAt_pdkEv p (by omega)
  · have hcalm : ((s.pwrEv 0).logRec 6 0 0 1 0x0002 0 [tj]).calm = s.calm := (logRec_calm ..).trans (pwrEv_calm ..)
    rwa [show ((s.pwrEv 0).logRec 6 0 0 1 0x0002 0 [tj]).baysOf p = s.baysOf p from (congrArg (fun u : State => u.baysOf p) hcalm :)]

theorem markUnmet_baysOf (d p : Nat) : (s.markUnmet d).baysOf p = s.baysOf p := by
  unfold markUnmet
  split
  · rfl
  · refine foldl_proj (baysOf · p) (fun t q => ?_) _
    split <;> rfl

theorem aboveFloor_eq {d tj mv : Nat} (hc : s.dev.computeRails = true) (hr : s.mgt.restart = false) (hs : s.dev.tripSeal = false)
    (htj : 95 < tj) (hhi : s.rail d ≤ 720) (hlo : 660 ≤ s.rail d) :
    s.aboveFloor d tj mv =
      if s.dev.subfloor || !((s.withRail d tj (loweredRail (s.rail d) mv) s.dev.beatMon).markUnmet d).dev.subfloor
      then (s.withRail d tj (loweredRail (s.rail d) mv) s.dev.beatMon).markUnmet d
      else ((s.withRail d tj (loweredRail (s.rail d) mv) s.dev.beatMon).markUnmet d).tellSubfloor tj := by
  refine if_neg ?_
  change ¬(!s.dev.computeRails || s.mgt.restart || s.dev.tripSeal || tj ≤ 95 || 720 < s.rail d || s.rail d = 0) = true
  simp only [hc, hr, hs, Bool.or_eq_true, decide_eq_true_eq, Bool.not_true, Bool.false_eq_true, false_or]
  omega

section
variable {d tj mv : Nat} (hc : s.dev.computeRails = true) (hr : s.mgt.restart = false) (hs : s.dev.tripSeal = false) (htj : 95 < tj)
  (hhi : s.rail d ≤ 720) (hlo : 660 ≤ s.rail d)
include hc hr hs htj hhi hlo

theorem aboveFloor_board :
    (s.aboveFloor d tj mv).board = (s.withRail d tj (loweredRail (s.rail d) mv) s.dev.beatMon).board := by
  rw [aboveFloor_eq hc hr hs htj hhi hlo]
  split
  · exact markUnmet_board d
  · rw [tellSubfloor_board, markUnmet_board]

/-- The first step below floor is told. -/
theorem aboveFloor_tells (hwas : s.dev.subfloor = false)
    (hsub : (s.withRail d tj (loweredRail (s.rail d) mv) s.dev.beatMon).dev.subfloor = true) :
    s.aboveFloor d tj mv = ((s.withRail d tj (loweredRail (s.rail d) mv) s.dev.beatMon).markUnmet d).tellSubfloor tj := by
  have hmark : ((s.withRail d tj (loweredRail (s.rail d) mv) s.dev.beatMon).markUnmet d).dev.subfloor = true :=
    (congrArg (fun u : Dev × Option Platform => u.1.subfloor) (markUnmet_board d) :).trans hsub
  rw [aboveFloor_eq hc hr hs htj hhi hlo, if_neg (by simp [hwas, hmark])]

end

theorem aboveFloor_tripped {d tj mv : Nat} (hs : s.dev.tripSeal = true) :
    s.aboveFloor d tj mv = { s with dev := { s.dev with tj := tset s.dev.tj d tj } } := if_pos (by simp [hs])

theorem junctionCool_eq {d tj mon : Nat} (hc : s.dev.computeRails = true) (hr : s.mgt.restart = false) (htj : tj ≤ 93)
    (hhi : s.rail d < 720) (hlo : s.rail d ≠ 0) :
    s.junctionCool d tj mon =
      if s.dev.subfloor && !(s.withRail d tj 720 (tset s.dev.beatMon d mon)).dev.subfloor
      then (s.withRail d tj 720 (tset s.dev.beatMon d mon)).pwrEv 1
      else s.withRail d tj 720 (tset s.dev.beatMon d mon) := by
  refine if_neg ?_
  change ¬(!s.dev.computeRails || s.mgt.restart || 93 < tj || 720 ≤ s.rail d || s.rail d = 0) = true
  simp only [hc, hr, Bool.or_eq_true, decide_eq_true_eq, Bool.not_true, Bool.false_eq_true, false_or]
  omega

theorem junctionCool_calm {d tj mon : Nat} (hc : s.dev.computeRails = true) (hr : s.mgt.restart = false) (htj : tj ≤ 93)
    (hhi : s.rail d < 720) (hlo : s.rail d ≠ 0) :
    (s.junctionCool d tj mon).calm = (s.withRail d tj 720 (tset s.dev.beatMon d mon)).calm := by
  rw [junctionCool_eq hc hr htj hhi hlo]
  split
  · exact pwrEv_calm ..
  · rfl

theorem junctionCool_hot {d tj mon : Nat} (htj : 93 < tj) :
    s.junctionCool d tj mon = { s with dev := { s.dev with tj := tset s.dev.tj d tj } } := if_pos (by simp [htj])

/-! ### THERMAL_TRIP -/

@[simp] theorem schEv_pdk (b p q : Nat) : (s.schEv b p).pdk q = s.pdk q :=
  (congrArg (fun u : State => u.pdk q) (schEv_calm s b p) :)

theorem setPdkSt_pdk_ne {p q : Nat} (st : PdkSt) (h : q ≠ p) : (s.setPdkSt p st).pdk q = s.pdk q := by
  simp only [setPdkSt]
  repeat' split
  all_goals simp [pdkEv_pdk_ne _ h, pdk_modPdk_ne _ _ _ _ h]

theorem setPdkSt_pdk_same (p : Nat) (st : PdkSt) :
    ((s.setPdkSt p st).pdk p).st = st ∧ ((s.setPdkSt p st).pdk p).susp = (s.pdk p).susp := by
  simp only [setPdkSt]
  split
  · next h => exact ⟨h, rfl⟩
  · generalize hu : (s.modPdk p _).schEv 0 p = u
    have hp : (u.pdk p).st = st ∧ (u.pdk p).susp = (s.pdk p).susp := by simp [← hu]
    have hev (b : Nat) : ((u.pdkEv p b).pdk p).st = st ∧ ((u.pdkEv p b).pdk p).susp = (s.pdk p).susp := by
      obtain ⟨e, he⟩ := pdkEv_pdk_same (s := u) p b
      rw [he]
      exact hp
    split
    · exact hev 2
    · split
      · exact hev 3
      · exact hp

@[simp] theorem stopBay_pdk (b : Nat) (why : StopWhy) (p : Nat) : (s.stopBay b why).pdk p = s.pdk p := by
  unfold stopBay
  split
  · rfl
  · refine foldl_proj (pdk · p) (fun t c => ?_) _
    split <;> rfl

@[simp] theorem suspendBays_pdk (p : Nat) (why : StopWhy) (q : Nat) : (s.suspendBays p why).pdk q = s.pdk q := by
  rw [suspendBays, foldl_proj (pdk · q) (fun t b => stopBay_pdk b why q), foldl_proj (pdk · q)]
  intro t b
  split <;> rfl

theorem suspendFor_pdk_ne {p q : Nat} (f : Susp → Susp) (why : StopWhy) (h : q ≠ p) : (s.suspendFor p f why).pdk q = s.pdk q := by
  unfold suspendFor
  dsimp only
  split
  · rw [setPdkSt_pdk_ne _ h, suspendBays_pdk, pdk_modPdk_ne _ _ _ _ h]
  · rw [setPdkSt_pdk_ne _ h, suspendBays_pdk, pdk_modPdk_ne _ _ _ _ h]
  · split <;> simp [pdk_modPdk_ne _ _ _ _ h]
  · rfl

theorem suspendFor_pdk_same (p : Nat) (f : Susp → Susp) (why : StopWhy)
    (h : (s.pdk p).st = .runnable ∨ (s.pdk p).st = .running ∨ (s.pdk p).st = .suspended) :
    ((s.suspendFor p f why).pdk p).st = .suspended ∧ ((s.suspendFor p f why).pdk p).susp = f (s.pdk p).susp := by
  have hrun := setPdkSt_pdk_same (s := (s.modPdk p (fun d => { d with susp := f d.susp })).suspendBays p why) p .suspended
  rw [suspendBays_pdk, pdk_modPdk_same] at hrun
  unfold suspendFor
  rcases h with h | h | h
  · rw [h]
    exact hrun
  · rw [h]
    exact hrun
  · rw [h]
    dsimp only
    split <;> simp [h]

/-- Every rail of the compute dies at 0.72 V (02 R62 step 3). -/
def floorRails (s : State) : State :=
  ({ s with dev := { s.dev with railMv := (List.range 4).map (fun d => (d, 720)), subfloor := false } } : State).settleBase

/-- The device with a trip's reading of one die, logged. -/
def tripRead (s : State) (d tj : Nat) : State :=
  ({ s with dev := { s.dev with tj := tset s.dev.tj d tj } } : State).logRec 6 0 0 3 0x0002 0 [tj]

/-- A trip's hold on the rails (02 R62 step 3), with its log record and event. -/
def tripHold (s : State) (d tj : Nat) : State :=
  if (s.tripRead d tj).dev.subfloor then (s.tripRead d tj).floorRails.pwrEv 1 else (s.tripRead d tj).floorRails

theorem thermalTrip_eq {d tj : Nat} (hc : s.dev.computeRails = true) (htj : 105 < tj) (hs : s.dev.tripSeal = false) :
    s.thermalTrip d tj =
      if (s.tripHold d tj).dev.trans = .toStandby then s.tripHold d tj
      else allPdks.foldl (fun t p => t.suspendFor p (fun u => { u with trip := true }) .trip)
        { s.tripHold d tj with dev := { (s.tripHold d tj).dev with tripSeal := true, trans := .trip } } :=
  if_neg (by simp [hc, htj, hs])

theorem calm_withDev {t : State} (h : t.calm = s.calm) (d : Dev) : ({ t with dev := d } : State).calm = ({ s with dev := d } : State).calm :=
  congrArg (fun u : State => { u with dev := { d with pwrEvent := 0 } }) h

theorem floorRails_calm {t : State} (hd : t.dev = s.dev) (h : t.calm = s.calm) : t.floorRails.calm = s.floorRails.calm := by
  unfold floorRails
  rw [hd]
  exact calm_withDev h _

theorem tripHold_calm (d tj : Nat) :
    (s.tripHold d tj).calm = ({ s with dev := { s.dev with tj := tset s.dev.tj d tj } } : State).floorRails.calm := by
  have h : (s.tripRead d tj).floorRails.calm = ({ s with dev := { s.dev with tj := tset s.dev.tj d tj } } : State).floorRails.calm :=
    floorRails_calm (logRec_dev ..) (logRec_calm ..)
  unfold tripHold
  split
  · exact (pwrEv_calm ..).trans h
  · exact h

theorem floorRails_rail {e : Nat} (h : e < 4) : s.floorRails.rail e = 720 := by
  have hrails : s.floorRails.dev.railMv = (List.range 4).map (fun d => (d, 720)) := rfl
  rw [rail, hrails]
  exact tget_dies (fun _ => 720) h

theorem tripHold_trans (d tj : Nat) : (s.tripHold d tj).dev.trans = s.dev.trans :=
  (congrArg (fun u : State => u.dev.trans) (tripHold_calm d tj) :)

theorem tripHold_rail (d tj : Nat) {e : Nat} (he : e < 4) : (s.tripHold d tj).rail e = 720 :=
  (congrArg (fun u : State => u.rail e) (tripHold_calm d tj) :).trans
    (floorRails_rail (s := { s with dev := { s.dev with tj := tset s.dev.tj d tj } }) he)

/-- A trip's hold, with the sealing of the jobs under way (02 R62 step 4). -/
def tripSealing (s : State) (d tj : Nat) : State :=
  { s.tripHold d tj with dev := { (s.tripHold d tj).dev with tripSeal := true, trans := .trip } }

section
variable {d tj : Nat} (hc : s.dev.computeRails = true) (htj : 105 < tj) (hs : s.dev.tripSeal = false)
include hc htj hs

theorem thermalTrip_entering (ht : s.dev.trans = .toStandby) : s.thermalTrip d tj = s.tripHold d tj := by
  rw [thermalTrip_eq hc htj hs, if_pos ((tripHold_trans d tj).trans ht)]

theorem thermalTrip_suspends (ht : s.dev.trans ≠ .toStandby) :
    s.thermalTrip d tj = allPdks.foldl (fun t p => t.suspendFor p (fun u => { u with trip := true }) .trip)
      (s.tripSealing d tj) := by
  rw [thermalTrip_eq hc htj hs, if_neg ((tripHold_trans d tj).trans_ne ht)]
  rfl

theorem thermalTrip_board (ht : s.dev.trans ≠ .toStandby) :
    (s.thermalTrip d tj).board = (s.tripSealing d tj).board := by
  rw [thermalTrip_suspends hc htj hs ht]
  exact foldl_proj board (fun t p => suspendFor_board p _ _) _

/-- A trip suspends every paddock that a cause can suspend. -/
theorem thermalTrip_pdk (ht : s.dev.trans ≠ .toStandby) {p : Nat} (hp : p < 64)
    (hst : (s.pdk p).st = .runnable ∨ (s.pdk p).st = .running ∨ (s.pdk p).st = .suspended) :
    ((s.thermalTrip d tj).pdk p).st = .suspended ∧ ((s.thermalTrip d tj).pdk p).susp.trip = true := by
  have stays {t : State} (h : (t.pdk p).st = .runnable ∨ (t.pdk p).st = .running ∨ (t.pdk p).st = .suspended) :
      ((t.suspendFor p (fun u => { u with trip := true }) .trip).pdk p).st = .suspended ∧
        ((t.suspendFor p (fun u => { u with trip := true }) .trip).pdk p).susp.trip = true := by
    obtain ⟨h₁, h₂⟩ := suspendFor_pdk_same p (fun u => { u with trip := true }) .trip h
    exact ⟨h₁, by rw [h₂]⟩
  have hpdk : (s.tripSealing d tj).pdk p = s.pdk p := (congrArg (fun u : State => u.pdk p) (tripHold_calm d tj) :)
  rw [thermalTrip_suspends hc htj hs ht]
  generalize s.tripSealing d tj = u at hpdk ⊢
  rw [← hpdk] at hst
  refine foldl_reaches (P := fun t : State => (t.pdk p).st = .suspended ∧ (t.pdk p).susp.trip = true)
    (Q := fun t : State => (t.pdk p).st = .runnable ∨ (t.pdk p).st = .running ∨ (t.pdk p).st = .suspended)
    (f := fun t q => t.suspendFor q (fun u => { u with trip := true }) .trip) (l := allPdks)
    (fun t q hq h => ?_) (fun t q h => ?_) (fun t h => stays h) (List.mem_range.mpr hp) hst
  · rwa [suspendFor_pdk_ne _ _ (Ne.symm hq)]
  · by_cases hq : p = q
    · subst hq
      exact stays (.inr (.inr h.1))
    · rwa [suspendFor_pdk_ne _ _ hq]

end

/-! ### TRIP_ENTER_STANDBY -/

/-- Every bay released and every core scrubbed (02 R62 step 5). -/
def bareBays (s : State) : State :=
  ((List.range 16).foldl (fun t b => if (t.bay b).holder.isSome then t.freeBay b else t) s).scrubAll

theorem bareBays_board : s.bareBays.board = s.board := by
  rw [bareBays, scrubAll_board, foldl_proj board]
  intro t b
  split <;> simp

theorem mem_of_kept {t : State} (h : t.kept = s.kept) : t.mem = s.mem := congrArg Prod.fst h

theorem bareBays_mem : s.bareBays.mem = s.mem := by
  have h : s.bareBays.kept = s.kept := by
    rw [bareBays, scrubAll_kept, foldl_proj kept]
    intro t b
    split <;> simp
  exact mem_of_kept h

@[simp] theorem schEv_bay (b p c : Nat) : (s.schEv b p).bay c = s.bay c := (congrArg (fun u : State => u.bay c) (schEv_calm s b p) :)

@[simp] theorem pdkEv_bay (p b c : Nat) : (s.pdkEv p b).bay c = s.bay c := by
  rcases s.pdkEv_calm p b with h | h <;> exact (congrArg (fun u : State => u.bay c) h :)

@[simp] theorem setPdkSt_bay (p : Nat) (st : PdkSt) (c : Nat) : (s.setPdkSt p st).bay c = s.bay c := by
  simp only [setPdkSt]
  repeat' split
  all_goals simp

@[simp] theorem settlePdk_bay (p c : Nat) : (s.settlePdk p).bay c = s.bay c := by
  unfold settlePdk
  split <;> simp

theorem freeBay_holder_same (b : Nat) : ((s.freeBay b).bay b).holder = none := by
  unfold freeBay
  dsimp only
  split <;> simp

theorem freeBay_bay_ne {b c : Nat} (h : c ≠ b) : (s.freeBay b).bay c = s.bay c := by
  unfold freeBay
  dsimp only
  split <;> simp [bay_modBay_ne _ _ _ _ h]

@[simp] theorem logRec_bay (kind index status severity event paddock : Nat) (detail : List Nat) (c : Nat) :
    (s.logRec kind index status severity event paddock detail).bay c = s.bay c :=
  (congrArg (fun u : State => u.bay c) (logRec_calm s kind index status severity event paddock detail) :)

@[simp] theorem retireRow_bay (n r c : Nat) : (s.retireRow n r).bay c = s.bay c := by
  unfold retireRow
  dsimp only
  split <;> rfl

@[simp] theorem scrubCore_bay (n c : Nat) : (s.scrubCore n).bay c = s.bay c := by
  rw [scrubCore, bay_modCore, mapOut, foldl_proj (bay · c)]
  intro t r
  dsimp only
  repeat' split
  all_goals simp

theorem scrubBay_holder (b c : Nat) : ((s.scrubBay b).bay c).holder = (s.bay c).holder := by
  unfold scrubBay
  extract_lets s₁ s₂
  have h₁ : s₁.bay c = s.bay c := foldl_proj (bay · c) (fun t n => scrubCore_bay n c) _
  clear_value s₁
  change (s₂.bay c).holder = _
  by_cases h : c = b
  · subst h
    simp [s₂, h₁, Bay.scrubbedUnits]
  · simp [s₂, bay_modBay_ne _ _ _ _ h, h₁]

theorem bareBays_holder {b : Nat} (h : b < 16) : (s.bareBays.bay b).holder = none := by
  rw [bareBays, scrubAll, foldl_proj (fun t : State => (t.bay b).holder) (fun t c => scrubBay_holder c b)]
  refine foldl_establishes (P := fun t : State => (t.bay b).holder = none) (fun t c h => ?_) (fun t => ?_) (List.mem_range.mpr h) s
  · split
    · by_cases hc : b = c
      · subst hc
        exact freeBay_holder_same b
      · rw [freeBay_bay_ne hc]
        exact h
    · exact h
  · split
    · exact freeBay_holder_same b
    · next h => exact Option.not_isSome_iff_eq_none.mp h

theorem tripStandby_eq (hs : s.dev.tripSeal = true) (hj : ∀ b, b < 16 → (s.bay b).job = none) :
    s.tripStandby = ({ s.bareBays with dev := { s.bareBays.dev with
      phase := .standby, standbyKind := .tripped, computeRails := false, railMv := [], beatMon := [], baseRailMv := 720
      capLimiting := false, tripped := true, tripSeal := false, trans := .none } } : State).pwrEv 2 := by
  refine if_neg ?_
  simp only [hs, Bool.not_true, Bool.false_or, List.any_eq_true, List.mem_range, not_exists, not_and]
  intro b hb
  simp [hj b hb]

theorem tripStandby_calm (hs : s.dev.tripSeal = true) (hj : ∀ b, b < 16 → (s.bay b).job = none) :
    s.tripStandby.calm = ({ s.bareBays with dev := { s.bareBays.dev with
      phase := .standby, standbyKind := .tripped, computeRails := false, railMv := [], beatMon := [], baseRailMv := 720
      capLimiting := false, tripped := true, tripSeal := false, trans := .none } } : State).calm := by
  rw [tripStandby_eq hs hj]
  exact pwrEv_calm ..

theorem tripStandby_busy {b : Nat} (hb : b < 16) (hj : (s.bay b).job ≠ none) : s.tripStandby = s := by
  refine if_pos ?_
  rw [Bool.or_eq_true, List.any_eq_true]
  exact .inr ⟨b, List.mem_range.mpr hb, Option.isSome_iff_ne_none.mpr hj⟩

end State

end Sys2Proof.Machine

namespace Sys2Proof.Proofs



open Sys2Proof Sys2Proof.Machine Sys2Proof.Claims

/-- Settles O32, from what each of the four operations leaves of the board (`aboveFloor_board`, `thermalTrip_board`, `bareBays_board`). -/
theorem thermalSteps : Obligations.ThermalSteps := by
  refine fun s d tj mv mon hc => ⟨fun hr hs htj hhi hlo => ?above, fun hs => congrArg Host.Outcome.next (State.aboveFloor_tripped hs),
    fun hr htj hhi hlo => ?recovered, fun hb hr hs hhi hlo cap therm mon base => ?update,
    fun htj => congrArg Host.Outcome.next (State.junctionCool_hot htj), fun htj hs => ?trip, fun hs hj => ?standby,
    fun ⟨b, hb, hj⟩ => congrArg Host.Outcome.next (State.tripStandby_busy hb hj)⟩
  case above =>
    have hboard := State.aboveFloor_board (mv := mv) hc hr hs htj hhi hlo
    have hrail (e : Nat) := State.rail_of_board hboard e
    have hd : (s.aboveFloor d tj mv).rail d = State.loweredRail (s.rail d) mv := (hrail d).trans (State.withRail_rail_same ..)
    have hfloor : 660 ≤ State.loweredRail (s.rail d) mv := Nat.le_max_left ..
    have hsub (hlow : (s.aboveFloor d tj mv).rail d < 720) :
        (s.withRail d tj (State.loweredRail (s.rail d) mv) s.dev.beatMon).dev.subfloor = true := by
      refine (State.withRail_subfloor ..).mpr ⟨d, d.isLt, ?_⟩
      rw [State.withRail_rail_same]
      omega
    refine ⟨_, rfl, hd, (congrArg (fun u : Dev × Option Platform => tget 0 u.1.tj d) hboard :).trans (tget_tset_same ..),
      fun e he => (hrail e).trans (State.withRail_rail_ne _ _ _ _ he),
      fun hlow => (congrArg (fun u : Dev × Option Platform => u.1.subfloor) hboard :).trans (hsub hlow),
      fun hwas hlow => ?told, fun hb e he => ?base, (congrArg (fun u : Dev × Option Platform => u.1.phase) hboard :),
      State.mem_of_kept (State.aboveFloor_kept ..)⟩
    case told =>
      rw [State.aboveFloor_tells hc hr hs htj hhi hlo hwas (hsub hlow)]
      refine ⟨State.tellSubfloor_pwrEvent tj, fun p hp hbays => State.tellSubfloor_event tj hp ?_⟩
      rw [State.markUnmet_baysOf]
      exact hbays
    case base =>
      rw [hrail e]
      exact (congrArg (fun u : Dev × Option Platform => u.1.baseRailMv) hboard :).trans_le (State.withRail_baseRail_le _ _ _ _ hb hc he)
  case recovered =>
    have hcalm := State.junctionCool_calm (mon := mon) hc hr htj hhi hlo
    have hrail (e : Nat) : (s.junctionCool d tj mon).rail e = (s.withRail d tj 720 (tset s.dev.beatMon d mon)).rail e :=
      (congrArg (fun u : State => u.rail e) hcalm :)
    refine ⟨_, rfl, (hrail d).trans (State.withRail_rail_same ..),
      (congrArg (fun u : State => tget 0 u.dev.beatMon d) hcalm :).trans (tget_tset_same ..),
      (congrArg (fun u : State => tget 0 u.dev.tj d) hcalm :).trans (tget_tset_same ..),
      fun e he => (hrail e).trans (State.withRail_rail_ne _ _ _ _ he), fun hothers => ?_, (congrArg State.mem hcalm :)⟩
    refine (congrArg (fun u : State => u.dev.subfloor) hcalm :).trans (Bool.eq_false_of_not_eq_true fun hsub => ?_)
    obtain ⟨e, he, hpos, hlow⟩ := (State.withRail_subfloor ..).mp hsub
    by_cases hed : e = d
    · rw [hed, State.withRail_rail_same] at hlow
      omega
    · rw [State.withRail_rail_ne _ _ _ _ hed] at hpos hlow
      have := hothers e he hed
      omega
  case update =>
    have hrail := State.rail_railUpdate hb hr hc cap therm mon base d.isLt
    rw [hs] at hrail
    refine ⟨_, rfl, ?_⟩
    dsimp only
    rw [hrail]
    exact State.railNext_belowFloor _ _ _ hlo hhi
  case trip =>
    have hhold := State.tripHold_calm (s := s) d tj
    have hrail (e : Nat) (he : e < 4) : (s.tripHold d tj).rail e = 720 := State.tripHold_rail (d : Nat) tj he
    have htj' : tget 0 (s.tripHold d tj).dev.tj d = tj := (congrArg (fun u : State => tget 0 u.dev.tj d) hhold :).trans (tget_tset_same ..)
    have hmem : (s.thermalTrip d tj).mem = s.mem := State.mem_of_kept (State.thermalTrip_kept ..)
    by_cases ht : s.dev.trans = .toStandby
    · have heq := State.thermalTrip_entering (d := d) hc htj hs ht
      refine ⟨_, congrArg Host.Outcome.next heq, hrail, (congrArg (fun u : State => u.dev.subfloor) hhold :), htj', heq ▸ hmem,
        fun h => absurd ht h, fun _ => ⟨(State.tripHold_trans (d : Nat) tj).trans ht, ?_⟩⟩
      exact (congrArg (fun u : State => u.dev.tripSeal) hhold :).trans hs
    · have hboard := State.thermalTrip_board (d := d) hc htj hs ht
      exact ⟨_, rfl, fun e he => (State.rail_of_board hboard e).trans (hrail e he),
        (congrArg (fun u : Dev × Option Platform => u.1.subfloor) hboard :).trans (congrArg (fun u : State => u.dev.subfloor) hhold :),
        (congrArg (fun u : Dev × Option Platform => tget 0 u.1.tj d) hboard :).trans htj', hmem,
        fun _ => ⟨(congrArg (fun u : Dev × Option Platform => u.1.tripSeal) hboard :),
          (congrArg (fun u : Dev × Option Platform => u.1.trans) hboard :), fun p hp hst => State.thermalTrip_pdk hc htj hs ht hp hst⟩,
        fun h => absurd h ht⟩
  case standby =>
    have hcalm := State.tripStandby_calm hs hj
    have hboard := State.bareBays_board (s := s)
    have hmem := State.bareBays_mem (s := s)
    have hholder (b : Nat) (hb : b < 16) := State.bareBays_holder (s := s) hb
    generalize s.bareBays = u at hcalm hboard hmem hholder
    exact ⟨_, rfl, (congrArg (fun u : State => u.dev.phase) hcalm :), (congrArg (fun u : State => u.dev.standbyKind) hcalm :),
      (congrArg (fun u : State => u.dev.computeRails) hcalm :),
      (congrArg (fun u : State => u.dev.memRails) hcalm :).trans (congrArg (fun u : Dev × Option Platform => u.1.memRails) hboard :),
      fun e => (congrArg (fun u : State => u.rail e) hcalm :), (congrArg (fun u : State => u.dev.baseRailMv) hcalm :),
      (congrArg (fun u : State => u.dev.tripped) hcalm :), (congrArg (fun u : State => u.dev.tripSeal) hcalm :),
      fun b hb => (congrArg (fun u : State => (u.bay b).holder) hcalm :).trans (hholder b hb),
      (congrArg State.mem hcalm :).trans hmem, (congrArg State.plat hcalm :).trans (congrArg Prod.snd hboard :)⟩

end Sys2Proof.Proofs
end

section
/-! Power on (02 R44, R48, R473; 03 R70, R72, R77): what activated firmware, a ramp's repair of memory and its scrub leave. -/

namespace Sys2Proof.Machine

namespace State

variable {s : State}

/-! ### Auxiliary power -/

/-- Activated firmware changes the firmware's records and the log, and clears a mark of the matrix. -/
theorem fwActivate_rest (bankOk : Nat → Bool) :
    ({ (s.fwActivate bankOk).dev with compatBad := false }, (s.fwActivate bankOk).mgt.boot, (s.fwActivate bankOk).mem) =
      ({ s.dev with compatBad := false }, s.mgt.boot, s.mem) := by
  refine foldl_proj (fun t : State => ({ t.dev with compatBad := false }, t.mgt.boot, t.mem)) (fun t c => ?_) _
  have hlog (u : State) (kind index status severity event paddock : Nat) (detail : List Nat) :
      ((u.logRec kind index status severity event paddock detail).mgt.boot, (u.logRec kind index status severity event paddock detail).mem) =
        (u.mgt.boot, u.mem) := (congrArg (fun v : State => (v.mgt.boot, v.mem)) (u.logRec_calm ..) :)
  dsimp only
  split
  · rfl
  · split
    · rw [logRec_dev, hlog]
    · rw [logRec_dev, hlog]

/-- The device as auxiliary power boots its controller (03 R70 step 1). -/
def controllerUp (s : State) : State :=
  { s with dev := { s.dev with aux := true, booted := true }, mgt := { s.mgt with boot := s.mgt.boot + 1, osc := !s.dev.refclk } }

theorem exec_auxPowerOn (fw uc : Bool) (ha : s.dev.aux = false) : exec (.auxPowerOn fw uc) s =
    .next { s.controllerUp.fwActivate (fun c => if c = 1 then fw else uc) with
      dev := { (s.controllerUp.fwActivate (fun c => if c = 1 then fw else uc)).dev with
        compatBad := (s.controllerUp.fwActivate (fun c => if c = 1 then fw else uc)).untested }
      sec := { (s.controllerUp.fwActivate (fun c => if c = 1 then fw else uc)).sec with aliasKey := true } } :=
  congrArg Host.Outcome.next (if_neg (ne_true_of_eq_false ha))

/-! ### A ramp -/

@[simp] theorem logRec_core (kind index status severity event paddock : Nat) (detail : List Nat) (n : Nat) :
    (s.logRec kind index status severity event paddock detail).core n = s.core n :=
  (congrArg (fun u : State => u.core n) (logRec_calm s kind index status severity event paddock detail) :)

theorem retireRow_core_ne {n q : Nat} (r : Nat) (h : q ≠ n) : (s.retireRow n r).core q = s.core q := by
  unfold retireRow
  dsimp only
  split <;> exact core_modCore_ne _ _ _ _ h

theorem mapOut_core_ne {n q : Nat} (h : q ≠ n) : (s.mapOut n).core q = s.core q := by
  refine foldl_proj (core · q) (fun t r => ?_) _
  dsimp only
  repeat' split
  all_goals simp [retireRow_core_ne _ h]

theorem scrubCore_core_ne {n q : Nat} (h : q ≠ n) : (s.scrubCore n).core q = s.core q := by
  rw [scrubCore, core_modCore_ne _ _ _ _ h, mapOut_core_ne h]

theorem scrubCore_spad (n : Nat) : ((s.scrubCore n).core n).spad = [] := by
  rw [scrubCore, core_modCore_same]
  rfl

theorem scrubCore_keeps_spad {n : Nat} (m : Nat) (h : (s.core n).spad = []) : ((s.scrubCore m).core n).spad = [] := by
  by_cases hm : n = m
  · rw [hm]
    exact scrubCore_spad m
  · rwa [scrubCore_core_ne hm]

theorem mem_coresOf (n : Nat) : n ∈ coresOf (n / 16) :=
  List.mem_map.mpr ⟨n % 16, List.mem_range.mpr (Nat.mod_lt _ (by omega)), by omega⟩

theorem scrubBay_core (b n : Nat) : (s.scrubBay b).core n = ((coresOf b).foldl scrubCore s).core n := by
  unfold scrubBay
  generalize (coresOf b).foldl scrubCore s = u
  rfl

theorem scrubBay_keeps_spad {n : Nat} (b : Nat) (h : (s.core n).spad = []) : ((s.scrubBay b).core n).spad = [] := by
  rw [scrubBay_core]
  exact List.foldlRecOn (motive := fun t : State => (t.core n).spad = []) _ _ h fun t ht m _ => scrubCore_keeps_spad m ht

theorem scrubBay_spad (n : Nat) : ((s.scrubBay (n / 16)).core n).spad = [] := by
  rw [scrubBay_core]
  exact foldl_establishes (P := fun t : State => (t.core n).spad = []) (fun _ m h => scrubCore_keeps_spad m h)
    (fun _ => scrubCore_spad n) (mem_coresOf n) s

theorem scrubAll_spad {n : Nat} (h : n < 256) : (s.scrubAll.core n).spad = [] :=
  foldl_establishes (P := fun t : State => (t.core n).spad = []) (fun _ b h => scrubBay_keeps_spad b h)
    (fun _ => scrubBay_spad n) (List.mem_range.mpr (by omega)) s

/-- Package memory, the Manger's tables and the lists of poisoned and pending rows: what a scrub leaves alone. -/
def stores (s : State) : List Host.Cell × Yard × List Nat × List Nat := (s.mem, s.yard, s.ras.poison, s.ras.pending)

@[simp] theorem modCore_stores (n : Nat) (f : Core → Core) : (s.modCore n f).stores = s.stores := rfl

@[simp] theorem logRec_stores (kind index status severity event paddock : Nat) (detail : List Nat) :
    (s.logRec kind index status severity event paddock detail).stores = s.stores :=
  (congrArg stores (logRec_calm s kind index status severity event paddock detail) :)

@[simp] theorem retireRow_stores (n r : Nat) : (s.retireRow n r).stores = s.stores := by
  unfold retireRow
  dsimp only
  split <;> rfl

theorem scrubCore_stores (n : Nat) : (s.scrubCore n).stores = s.stores := by
  refine foldl_proj (s := s) stores (fun t r => ?_) _
  dsimp only
  repeat' split
  all_goals simp

theorem scrubBay_stores (b : Nat) : (s.scrubBay b).stores = s.stores := by
  have h : ((coresOf b).foldl scrubCore s).stores = s.stores := foldl_proj stores (fun t n => scrubCore_stores n) _
  unfold scrubBay
  generalize (coresOf b).foldl scrubCore s = u at h ⊢
  exact h

theorem scrubAll_stores : s.scrubAll.stores = s.stores := foldl_proj stores (fun _ b => scrubBay_stores b) _

/-- A step that forgets where a patrol stands. -/
theorem resetPatrol_patrol (n : Nat) : ((s.resetPatrol (n / 16)).core n).patrol = [] := by
  refine foldl_establishes (P := fun t : State => (t.core n).patrol = []) (fun t m h => ?_)
    (fun t => by rw [core_modCore_same]) (mem_coresOf n) s
  by_cases hm : n = m
  · rw [hm, core_modCore_same]
  · rwa [core_modCore_ne _ _ _ _ hm]

theorem resetPatrol_keeps_patrol {n : Nat} (b : Nat) (h : (s.core n).patrol = []) : ((s.resetPatrol b).core n).patrol = [] := by
  refine List.foldlRecOn (motive := fun t : State => (t.core n).patrol = []) _ _ h fun t ht m _ => ?_
  by_cases hm : n = m
  · rw [hm, core_modCore_same]
  · rwa [core_modCore_ne _ _ _ _ hm]

theorem resetPatrol_spad (b n : Nat) : ((s.resetPatrol b).core n).spad = (s.core n).spad := by
  refine foldl_proj (fun t : State => (t.core n).spad) (fun t m => ?_) _
  by_cases hm : n = m
  · rw [hm, core_modCore_same]
  · rw [core_modCore_ne _ _ _ _ hm]

theorem resetPatrol_stores (b : Nat) : (s.resetPatrol b).stores = s.stores := foldl_proj stores (fun _ n => modCore_stores n _) _

theorem initMemory_stores (noRes : List Nat) : (s.initMemory noRes).stores = ([], {}, [], []) := by
  unfold initMemory
  rw [foldl_proj stores (fun t b => resetPatrol_stores b), scrubAll_stores]
  rfl

theorem initMemory_core (noRes : List Nat) {n : Nat} (h : n < 256) :
    ((s.initMemory noRes).core n).spad = [] ∧ ((s.initMemory noRes).core n).patrol = [] := by
  have hbay : n / 16 ∈ List.range 16 := List.mem_range.mpr (by omega)
  unfold initMemory
  extract_lets s₁ src s₂
  have hspad := scrubAll_spad (s := s₂) h
  generalize s₂.scrubAll = u at hspad ⊢
  constructor
  · rwa [foldl_proj (fun t : State => (t.core n).spad) (fun t b => resetPatrol_spad b n)]
  · exact foldl_establishes (P := fun t : State => (t.core n).patrol = []) (f := resetPatrol) (fun _ b h => resetPatrol_keeps_patrol b h)
      (fun _ => resetPatrol_patrol n) hbay u

theorem rampRails_rail {d : Nat} (h : d < 4) : 720 ≤ s.rampRails.rail d ∧ s.rampRails.rail d ≤ 840 := by
  have hrail : s.rampRails.rail d = 720 + (Config.freeValue (s.free + d)).toNat % 121 :=
    tget_dies (fun d => 720 + (Config.freeValue (s.free + d)).toNat % 121) h
  omega

/-- The device as a ramp to INIT leaves it, from the state whose memory is initialized (03 R70 step 7). -/
def rampedUp (s : State) : State :=
  ({ s with dev := { s.dev with phase := .init, computeRails := true, memRails := true, ramp := false, trans := .none } } : State).rampRails

theorem rampedUp_rail {d : Nat} (h : d < 4) : 720 ≤ s.rampedUp.rail d ∧ s.rampedUp.rail d ≤ 840 := rampRails_rail h

section
variable {noRes : List Nat} (hph : s.dev.phase = .standby) (hc : s.dev.conv = none) (hk : s.dev.standbyKind = .reset)
  (hl : s.dev.link = .up ∨ s.dev.link = .training)
include hph hc hk hl

theorem mayRamp : ¬(s.dev.phase ≠ .standby || s.dev.conv.isSome ||
    !(s.dev.ramp || (s.dev.standbyKind = .reset && (s.dev.link = .up || s.dev.link = .training)))) = true := by
  rcases hl with h | h <;> simp [hph, hc, hk, h]

theorem exec_rampComplete_init (hm : s.dev.compatBad = false) : exec (.rampComplete noRes) s =
    .next (if s.dev.ramp then (s.initMemory noRes).rampedUp.pwrEv 5 else (s.initMemory noRes).rampedUp) :=
  congrArg Host.Outcome.next ((if_neg (mayRamp hph hc hk hl)).trans (if_neg (ne_true_of_eq_false hm)))

theorem exec_rampComplete_restricted (hm : s.dev.compatBad = true) : exec (.rampComplete noRes) s =
    .next { s with dev := { s.dev with phase := .restricted, compatFail := true, ramp := false, trans := .none } } :=
  congrArg Host.Outcome.next ((if_neg (mayRamp hph hc hk hl)).trans (if_pos hm))

end

end State

end Sys2Proof.Machine

namespace Sys2Proof.Proofs

open Sys2Proof Sys2Proof.Machine Sys2Proof.Claims

/-- Settles O33: what each command of the sequence writes, and what a ramp's scrub and repair leave. -/
theorem powerOnSequence : Obligations.PowerOnSequence := by
  refine fun s fw uc bad => ⟨fun ha => ?aux, fun ha => congrArg Host.Outcome.next (if_pos ha), fun hb ha hbt => ?main, rfl, rfl,
    fun hb hp hc hl hn hr hph => ?training, fun hn => ?needPerst, fun hl => congrArg Host.Outcome.next (if_pos hl),
    fun hph hc hk hl => ⟨fun hm => ?init, fun hm => ?restricted⟩, fun hph => congrArg Host.Outcome.next (if_pos (by simp [hph]))⟩
  case aux =>
    have hrest := State.fwActivate_rest (s := s.controllerUp) (fun c => if c = 1 then fw else uc)
    have hexec := State.exec_auxPowerOn fw uc ha
    generalize s.controllerUp.fwActivate (fun c => if c = 1 then fw else uc) = u at hrest hexec
    have hlisted : u.untested = true ↔ Config.matrixLists (u.runVersion 1) (u.runVersion 2) = false := by
      rw [State.untested, Bool.not_eq_true']
    refine ⟨_, hexec, (congrArg (fun x : Dev × Nat × List Host.Cell => x.1.aux) hrest :),
      (congrArg (fun x : Dev × Nat × List Host.Cell => x.1.booted) hrest :), hlisted,
      (congrArg (fun x : Dev × Nat × List Host.Cell => x.2.1) hrest :), rfl,
      (congrArg (fun x : Dev × Nat × List Host.Cell => x.1.phase) hrest :),
      (congrArg (fun x : Dev × Nat × List Host.Cell => x.2.2) hrest :)⟩
  case main => exact congrArg Host.Outcome.next ((if_neg (ne_true_of_eq_false hb)).trans (if_pos (by simp [ha, hbt])))
  case training => exact congrArg Host.Outcome.next (if_pos (by simp [hb, hp, hc, hl, hn, hr, hph]))
  case needPerst => exact congrArg Host.Outcome.next (if_neg (by simp [hn]))
  case init =>
    have hstores := State.initMemory_stores (s := s) bad
    have hcore (n : Nat) (hn : n < 256) := State.initMemory_core (s := s) bad hn
    have hexec := State.exec_rampComplete_init (noRes := bad) hph hc hk hl hm
    generalize s.initMemory bad = u at hstores hcore hexec
    have hrail (d : Nat) (hd : d < 4) := State.rampedUp_rail (s := u) hd
    have hcalm : (if s.dev.ramp then u.rampedUp.pwrEv 5 else u.rampedUp).calm = u.rampedUp.calm := by
      split
      · exact State.pwrEv_calm ..
      · rfl
    generalize (if s.dev.ramp then u.rampedUp.pwrEv 5 else u.rampedUp) = t at hexec hcalm
    obtain ⟨hmem, hyard, hpoison, hpending⟩ : u.mem = [] ∧ u.yard = {} ∧ u.ras.poison = [] ∧ u.ras.pending = [] := by
      simpa [State.stores] using hstores
    have hrails (d : Nat) : t.rail d = u.rampedUp.rail d := (congrArg (fun v : State => v.rail d) hcalm :)
    have hcores (n : Nat) : t.core n = u.core n := (congrArg (fun v : State => v.core n) hcalm :)
    exact ⟨t, hexec, (congrArg (fun v : State => v.dev.phase) hcalm :), (congrArg (fun v : State => v.dev.computeRails) hcalm :),
      (congrArg (fun v : State => v.dev.memRails) hcalm :), (congrArg (fun v : State => v.dev.ramp) hcalm :),
      (congrArg State.mem hcalm :).trans hmem, (congrArg State.yard hcalm :).trans hyard,
      (congrArg (fun v : State => v.ras.poison) hcalm :).trans hpoison, (congrArg (fun v : State => v.ras.pending) hcalm :).trans hpending,
      fun d hd => hrails d ▸ hrail d hd, fun n hn => hcores n ▸ hcore n hn⟩
  case restricted => exact ⟨_, State.exec_rampComplete_restricted hph hc hk hl hm, rfl, rfl, rfl, rfl⟩

end Sys2Proof.Proofs
end

section
/-! Proofs for the statement on the timestamp counter's reads and the host's completions (02 R47; 03 R96, R474): what a read of the counter
takes from and leaves in the latch, and what a completion that fails does. -/

namespace Sys2Proof.Machine

/-- A table without an entry finds none there. -/
@[simp] theorem tfind_tdel_same {α : Type} (t : Tab α) (k : Nat) : tfind (tdel t k) k = none := by
  induction t with
  | nil => rfl
  | cons e t ih =>
    obtain ⟨k', v⟩ := e
    unfold tdel at ih ⊢
    by_cases hk : k' = k
    · simp [hk, ih]
    · simp [hk, tfind, ih, Ne.symm hk]

namespace State

variable {s : State} {fn : Nat}

/-! ### The timestamp counter's register (02 R47) -/

/-- The latches of the registers whose halves are latched, changed. -/
def modLatch (s : State) (f : Tab (BitVec 32) → Tab (BitVec 32)) : State := { s with hif := { s.hif with latch := f s.hif.latch } }

/-- Every function reads the counter at 0x40. -/
theorem reg_tsc : s.reg fn 0x40 = s.dev.tsc.toNat := by
  unfold reg
  split
  · simp [pfReg, hifReg]
  · simp [vfReg, vfCtlReg]

theorem latchKey_tsc : latchKey fn 0x40 = some (2 * fn + 1) := rfl

/-- A read of the counter clears no field. -/
theorem clear_tsc (lo hi : Bool) : (if fn = 0 then s.pfClear 0x40 lo hi else s.vfClear (fn - 1) 0x40 lo hi) = s := by
  split
  · simp [pfClear]
  · simp [vfClear]

theorem regRead_tsc_full : s.regRead fn 0x40 8 = (s.dev.tsc.toNat, s.modLatch (fun t => tdel t (2 * fn + 1))) := by
  simp [regRead, reg_tsc, latchKey_tsc, clear_tsc, modLatch]

theorem regRead_tsc_low : s.regRead fn 0x40 4 =
    (s.dev.tsc.toNat % 2 ^ 32, s.modLatch (fun t => tset t (2 * fn + 1) (BitVec.ofNat 32 (s.dev.tsc.toNat / 2 ^ 32)))) := by
  simp [regRead, reg_tsc, latchKey_tsc, clear_tsc, modLatch]

theorem regRead_tsc_high_latched {h : BitVec 32} (hl : tfind s.hif.latch (2 * fn + 1) = some h) :
    s.regRead fn 0x44 4 = (h.toNat, s.modLatch (fun t => tdel t (2 * fn + 1))) := by
  simp [regRead, latchKey_tsc, hl, modLatch]

theorem regRead_tsc_high_unlatched (hl : tfind s.hif.latch (2 * fn + 1) = none) :
    s.regRead fn 0x44 4 = (s.dev.tsc.toNat / 2 ^ 32, s) := by
  simp [regRead, reg_tsc, latchKey_tsc, hl]

/-! ### The check that a read of the counter meets -/

/-- The function answers for its counter: the link is configured, the function is awake and, if virtual, there, under keys that stand and
not bound to a stream. -/
structure TscOpen (s : State) (fn : Nat) : Prop where
  linked : s.dev.cfgReady = true
  awake  : (s.fnCfg fn).d3 = false
  there  : fn = 0 ∨ (s.vfOn (fn - 1) = true ∧ (s.tdi (fn - 1)).st ≠ .run ∧ s.keyGone (s.tdi (fn - 1)).stream = false)

/-- The stream on which a function's counter is read. -/
def tscStream (s : State) (fn : Nat) : Option Nat := if fn = 0 then none else (s.tdi (fn - 1)).stream

theorem TscOpen.heeds (h : s.TscOpen fn) : Claims.Heeds s fn (s.tscStream fn) := by
  rcases h.there with rfl | ⟨-, hrun, hkey⟩
  · exact ⟨rfl, ideBad_pf0⟩
  · refine ⟨?_, by simp [ideBad, hrun]⟩
    unfold tscStream
    split
    · rfl
    · exact hkey

/-- A read inside the counter's eight bytes passes. -/
theorem TscOpen.access_ok (h : s.TscOpen fn) (half : Half) :
    s.access fn (tscSpan half).1 (tscSpan half).2 false (s.tscStream fn) = .ok := by
  have hin : (tscSpan half).1 + (tscSpan half).2 ≤ 0x48 := by cases half <;> decide
  have hwhole : ¬(((tscSpan half).2 ≠ 4 ∧ (tscSpan half).2 ≠ 8) ∨ (tscSpan half).1 % (tscSpan half).2 ≠ 0) := by cases half <;> decide
  have hbar : 0x48 ≤ barSize fn := by unfold barSize; split <;> decide
  have hr : s.Reaches fn (tscSpan half).1 (tscSpan half).2 := ⟨h.linked, h.awake, hin.trans hbar, h.there.imp id And.left⟩
  exact hr.access_ok h.heeds hwhole (fun _ => windowShut_outside (.inl (by omega)))

/-- A read of the counter that passes completes with the register's value. -/
theorem TscOpen.tscRead_eq (h : s.TscOpen fn) (half : Half) {v : Nat} {t : State}
    (hread : s.regRead fn (tscSpan half).1 (tscSpan half).2 = (v, t)) :
    s.tscRead fn half = t.send (.cpl fn .success (leBytes (tscSpan half).2 v)) := by
  have hok := hostRegRead_of_ok (h.access_ok half)
  rw [hread] at hok
  exact hok

/-! ### Completions of host reads (03 R474) -/

variable {tag p k : Nat} {ok : Bool} {data : List Byte}

/-- A host read with its tag no longer waited for. -/
def dropRead (s : State) (tag : Nat) : State := { s with hif := { s.hif with reads := tdel s.hif.reads tag } }

theorem hostCompletion_unawaited (h : tfind s.hif.reads tag = none) : s.hostCompletion tag ok data = s := by
  simp [hostCompletion, h]

theorem hostCompletion_sqe_failed (h : tfind s.hif.reads tag = some (.sqe p k)) (hf : (s.ring p k).fetch = some tag) :
    s.hostCompletion tag false data = (s.dropRead tag).ringFault p k := by
  have hf' : ¬((s.dropRead tag).ring p k).fetch ≠ some tag := not_not_intro hf
  simp only [hostCompletion, h]
  exact (if_neg hf').trans (if_neg Bool.false_ne_true)

theorem hostCompletion_image_failed (h : tfind s.hif.reads tag = some .image) :
    s.hostCompletion tag false data =
      { s.dropRead tag with ldr := { s.ldr with readErr := true, readOut := 0 } } := by
  simp [hostCompletion, h, dropRead]

/-! ### A ring fault -/

@[simp] theorem msix_reads (fn v : Nat) : (s.msix fn v).hif.reads = s.hif.reads := by
  unfold msix
  split <;> rfl

@[simp] theorem pdkEv_reads (p b : Nat) : (s.pdkEv p b).hif.reads = s.hif.reads := by
  unfold pdkEv
  split
  · rfl
  · rw [msix_reads]
    rfl

@[simp] theorem pdkEv_ring (p b q k : Nat) : (s.pdkEv p b).ring q k = s.ring q k := by
  rcases s.pdkEv_calm p b with h | h <;> exact (congrArg (fun u : State => u.ring q k) h :)

@[simp] theorem ringFault_reads (p k : Nat) : (s.ringFault p k).hif.reads = s.hif.reads := by
  simp [ringFault]

/-- A ring whose host read or write failed is disabled with FAULT set, and neither fetches nor keeps a completion (05 R142, R144). -/
theorem ringFault_ring (p k : Nat) : ((s.ringFault p k).ring p k).en = false ∧ ((s.ringFault p k).ring p k).fault = true ∧
    ((s.ringFault p k).ring p k).fetch = none ∧ ((s.ringFault p k).ring p k).cpls = [] := by
  unfold ringFault
  rw [pdkEv_ring]
  simp only [ring, modRing_rings, tget_tmod_same, and_self]

end State

end Sys2Proof.Machine

namespace Sys2Proof.Proofs

open Sys2Proof Sys2Proof.Machine Sys2Proof.Claims

/-- Settles O41: each read of the counter passes its check and then does what the latch says, and each completion ends at its tag's case. -/
theorem timestampWindowAndHostReads : Obligations.TimestampWindowAndHostReads := by
  intro s fn p v ide h tag q k ok data now answer failed
  refine ⟨fun hl hd hth => ?counter, fun hh => ?window, fun hk hi => ?wrongStream, fun hk => ?retired, fun hn => ?ignored,
    fun hs hf => ?ring, fun hi _ => ?image⟩
  case counter =>
    have hopen : s.TscOpen fn := ⟨hl, hd, hth.imp Fin.val_eq_zero_iff.mpr id⟩
    refine ⟨⟨_, rfl, ?full⟩, ⟨_, rfl, ?low⟩, fun hlat => ⟨_, rfl, ?latched⟩, fun hlat => ⟨_, rfl, ?unlatched⟩⟩
    case full =>
      rw [hopen.tscRead_eq .full State.regRead_tsc_full]
      exact ⟨State.send_out _ _, tfind_tdel_same _ _⟩
    case low =>
      rw [hopen.tscRead_eq .low State.regRead_tsc_low]
      exact ⟨State.send_out _ _, tfind_tset_same _ _ _⟩
    case latched =>
      rw [hopen.tscRead_eq .high (State.regRead_tsc_high_latched hlat)]
      exact ⟨State.send_out _ _, tfind_tdel_same _ _⟩
    case unlatched =>
      rw [hopen.tscRead_eq .high (State.regRead_tsc_high_unlatched hlat)]
      exact State.send_out _ _
  case window =>
    have hwin : bits v.toNat 15 0 = v.toNat % 65536 := by simp [bits]
    exact hwin ▸ congrArg Host.Outcome.next (State.vfWrite_heeded hh _)
  case wrongStream =>
    exact congrArg Host.Outcome.next (State.vfWrite_wrongStream hk hi _)
  case retired =>
    exact congrArg Host.Outcome.next (State.vfWrite_retired hk _)
  case ignored =>
    exact ⟨congrArg Host.Outcome.next (State.hostCompletion_unawaited hn), congrArg Host.Outcome.next (State.hostCompletion_unawaited hn)⟩
  case ring =>
    have hfailed : failed ((s.dropRead tag).ringFault q k) := by
      obtain ⟨hen, hfault, hfetch, hcpls⟩ := (s.dropRead tag).ringFault_ring q k
      refine ⟨hen, hfault, hfetch, hcpls, ?_, State.mem_of_kept (s := s.dropRead tag) (State.ringFault_kept q k)⟩
      rw [State.ringFault_reads]
      exact tfind_tdel_same _ _
    exact ⟨⟨_, congrArg Host.Outcome.next (State.hostCompletion_sqe_failed hs hf), hfailed⟩,
      ⟨_, congrArg Host.Outcome.next (State.hostCompletion_sqe_failed hs hf), hfailed⟩⟩
  case image =>
    exact ⟨_, congrArg Host.Outcome.next (State.hostCompletion_image_failed hi), rfl, rfl, rfl, tfind_tdel_same _ _⟩

end Sys2Proof.Proofs
end

section
/-! Accesses to BAR2 (03 R86, R94, R95; 06 R189, R203): which check each ends at, and the bytes that the pieces of an extent write. -/

namespace Sys2Proof.Machine

namespace State

variable {s : State}

/-! ### Bytes that an engine moves -/

/-- One piece of an extent that an engine moves, sent to its controller. -/
def sendPiece (write : Bool) (a : Nat) (data : List Byte) (s : State) (e : Nat × Nat) : State :=
  s.newTag.2.acceptPiece { Waiting.plain with tag := s.newTag.1, write := write, addr := e.1, len := e.2 } ((data.drop (e.1 - a)).take e.2)

theorem traffic_eq (write : Bool) (a : Nat) (data : List Byte) (len : Nat) :
    s.traffic write a data len = (piecesOf a len).foldl (sendPiece write a data) s := rfl

/-- What no piece writes: the messages sent, the paddocks, and the granules of unrepairable rows. -/
def unmoved (s : State) : List Out × Tab Pdk × List Nat := (s.out, s.pdks, s.ras.dead)

theorem sendPiece_unmoved (write : Bool) (a : Nat) (data : List Byte) (e : Nat × Nat) : (sendPiece write a data s e).unmoved = s.unmoved :=
  (congrArg unmoved (s.newTag.2.acceptPiece_spec _ _).1 :)

theorem traffic_unmoved (write : Bool) (a : Nat) (data : List Byte) (len : Nat) : (s.traffic write a data len).unmoved = s.unmoved :=
  foldl_proj unmoved (fun _ e => sendPiece_unmoved write a data e) _

theorem traffic_read_mem (a : Nat) (data : List Byte) (len : Nat) : (s.traffic false a data len).mem = s.mem :=
  foldl_proj mem (fun t _ => (t.newTag.2.acceptPiece_spec _ _).2.2.1 rfl) _

theorem sendPiece_write_mem (a : Nat) (data : List Byte) (e : Nat × Nat) :
    (sendPiece true a data s e).mem = storeBytes s.ras.dead s.mem e.1 ((data.drop (e.1 - a)).take e.2) :=
  congrArg mem (acceptPiece_write rfl)

/-- The pieces of an extent write its bytes, but those that an unrepairable row backs (16 R461), and no others. -/
theorem readByte_foldl_sendPiece {a : Nat} {data : List Byte} (n b len x : Nat) (hn : len = 0 ∨ len + b % 4096 ≤ 4096 * n)
    (ha : a ≤ b) (hend : b + len ≤ a + data.length) :
    readByte ((memPieces n b len).foldl (sendPiece true a data) s).mem x =
      if b ≤ x ∧ x < b + len ∧ x / 4096 ∉ s.ras.dead then data.getD (x - a) 0 else readByte s.mem x := by
  induction n generalizing s b len with
  | zero => rw [if_neg (by omega)]; rfl
  | succ n ih =>
    by_cases hl : len = 0
    · rw [if_neg (by omega), hl]; rfl
    obtain ⟨k, hk⟩ : ∃ k, k = min len (4096 - b % 4096) := ⟨_, rfl⟩
    have hstep : memPieces (n + 1) b len = (b, k) :: memPieces n (b + k) (len - k) := hk ▸ if_neg hl
    have hdead : (sendPiece true a data s (b, k)).ras.dead = s.ras.dead := congrArg (·.2.2) (sendPiece_unmoved true a data (b, k))
    have hrest : len - k = 0 ∨ len - k + (b + k) % 4096 ≤ 4096 * n := by
      rcases Nat.le_total len (4096 - b % 4096) with h | h <;> omega
    rw [hstep, List.foldl_cons, ih _ _ hrest (by omega) (by omega), hdead, sendPiece_write_mem, readByte_storeBytes]
    have hlen : ((data.drop (b - a)).take k).length = k := by simp only [List.length_take, List.length_drop]; omega
    rw [hlen]
    by_cases hx : b ≤ x ∧ x < b + k
    · have hbyte : ((data.drop (b - a)).take k).getD (x - b) 0 = data.getD (x - a) 0 := by
        simp only [List.getD_eq_getElem?_getD, List.getElem?_take, List.getElem?_drop]
        rw [if_pos (by omega), show b - a + (x - b) = x - a by omega]
      rw [if_neg (by omega), hbyte]
      exact if_congr ⟨fun h => ⟨h.1, by omega, h.2.2⟩, fun h => ⟨h.1, hx.2, h.2.2⟩⟩ rfl rfl
    · rw [if_neg (c := b ≤ x ∧ x < b + k ∧ x / 4096 ∉ s.ras.dead) (fun h => hx ⟨h.1, h.2.1⟩)]
      exact if_congr ⟨fun h => ⟨by omega, by omega, h.2.2⟩, fun h => ⟨by omega, by omega, h.2.2⟩⟩ rfl rfl

theorem readByte_writeFrom (a x : Nat) (data : List Byte) :
    readByte (s.writeFrom a data).mem x =
      if a ≤ x ∧ x < a + data.length ∧ x / 4096 ∉ s.ras.dead then data.getD (x - a) 0 else readByte s.mem x :=
  readByte_foldl_sendPiece _ a data.length x (.inr (by omega)) (Nat.le_refl a) (Nat.le_refl _)

/-! ### Which check a BAR2 TLP ends at (03 R94, R95; 06 R189, R203) -/

/-- Frame of the paddock that a BAR2 offset falls in, by the window it has selected (03 R94). -/
def winFrame (s : State) (p off : Nat) : Nat := (s.pdk p).win + off / frameSize

/-- Package address that a BAR2 offset falls on. -/
def winAddr (s : State) (p off : Nat) : Nat := ((s.quota p).frameBase + s.winFrame p off) * frameSize + off % frameSize

variable {p off len : Nat} {write : Bool} {data : List Byte} {ide : Option Nat}

theorem bar2_retired (hk : s.keyGone ide = true) : s.bar2 p write off len data ide = s.countRetired := if_pos hk

theorem bar2_wrongStream (hk : s.keyGone ide = false) (hi : s.ideBad (p + 1) ide = true) :
    s.bar2 p write off len data ide =
      if write then (s.refuse (p + 1) Status.accessDenied 1 off).errMsg (p + 1) write true
      else ((s.refuse (p + 1) Status.accessDenied 1 off).errMsg (p + 1) write true).send (.cpl (p + 1) .unsupported []) := by
  simp [bar2, hk, hi, ideRefuse]

/-- A write that is heeded and that no check of its extent refuses. -/
theorem bar2_write (h : Claims.Heeds s (p + 1) ide) (hc : s.bar2Check p true (s.winAddr p off) (s.winFrame p off) len = none) :
    s.bar2 p true off len data ide = s.writeFrom (s.winAddr p off) (data.take len) := by
  obtain ⟨hkey, hstream⟩ := h
  unfold winAddr winFrame at *
  simp [bar2, hkey, hstream, hc]

/-- A read that is heeded and that no check of its extent refuses. -/
theorem bar2_read (h : Claims.Heeds s (p + 1) ide) (hc : s.bar2Check p false (s.winAddr p off) (s.winFrame p off) len = none) :
    s.bar2 p false off len data ide =
      if s.poisonTouch (s.winAddr p off) len then (s.errMsg (p + 1) false false).send (.cpl (p + 1) .abort [])
      else (s.traffic false (s.winAddr p off) [] len).send (.cpl (p + 1) .success (s.memRead (s.winAddr p off) len)) := by
  obtain ⟨hkey, hstream⟩ := h
  unfold winAddr winFrame at *
  simp [bar2, hkey, hstream, hc]

theorem bar2_refused {e : Nat} (h : Claims.Heeds s (p + 1) ide)
    (hc : s.bar2Check p write (s.winAddr p off) (s.winFrame p off) len = some e) :
    s.bar2 p write off len data ide =
      if write then s.refuse (p + 1) e 1 off
      else ((s.refuse (p + 1) e 1 off).errMsg (p + 1) false false).send (.cpl (p + 1) .abort []) := by
  obtain ⟨hkey, hstream⟩ := h
  unfold winAddr winFrame at *
  simp [bar2, hkey, hstream, hc]

theorem bar2Check_outside {a idx : Nat} (h : (s.quota p).frameCount ≤ idx) : s.bar2Check p write a idx len = some Status.accessDenied :=
  if_pos h

end State

end Sys2Proof.Machine

namespace Sys2Proof.Proofs

open Sys2Proof Sys2Proof.Machine Sys2Proof.Claims

/-- Settles O30: each case is the check that the request ends at; a write and a read that pass move the bytes of their extent. -/
theorem bar2Accesses : Obligations.Bar2Accesses := by
  intro s p off len data ide fn idx a
  have hidx : idx = s.winFrame p off := by simp [idx, State.winFrame, frameSize]
  have ha : a = s.winAddr p off := by simp [a, State.winAddr, hidx, frameSize]
  clear_value a idx
  subst hidx ha
  refine ⟨fun hh hc hlen => ?write, fun hh hc => ⟨fun hp => ?read, fun hp => ?poisoned⟩, fun hh hout => ?outside, fun hk hi => ?wrongStream,
    fun hk w => congrArg Host.Outcome.next (State.bar2_retired hk)⟩
  case write =>
    refine ⟨_, congrArg Host.Outcome.next (State.bar2_write hh hc), ?_⟩
    rw [List.take_of_length_le hlen.le]
    have hrest : (s.writeFrom (s.winAddr p off) data).unmoved = s.unmoved := State.traffic_unmoved ..
    exact ⟨fun x => hlen ▸ State.readByte_writeFrom _ x data, congrArg (·.1) hrest, congrArg (·.2.1) hrest⟩
  case read =>
    refine ⟨_, congrArg Host.Outcome.next ((State.bar2_read hh hc).trans (if_neg (ne_true_of_eq_false hp))), ?_⟩
    have hrest : (s.traffic false (s.winAddr p off) [] len).unmoved = s.unmoved := State.traffic_unmoved ..
    have hout : (s.traffic false (s.winAddr p off) [] len).out = s.out := congrArg (·.1) hrest
    refine ⟨State.traffic_read_mem .., congrArg (·.2.1) hrest, ?_⟩
    rw [State.send_out, hout, State.memRead, readBytes_eq_map]
  case poisoned =>
    exact congrArg Host.Outcome.next ((State.bar2_read hh hc).trans (if_pos hp))
  case outside =>
    exact ⟨congrArg Host.Outcome.next (State.bar2_refused hh (State.bar2Check_outside hout)),
      congrArg Host.Outcome.next (State.bar2_refused hh (State.bar2Check_outside hout))⟩
  case wrongStream =>
    exact ⟨congrArg Host.Outcome.next (State.bar2_wrongStream hk hi), congrArg Host.Outcome.next (State.bar2_wrongStream hk hi)⟩

end Sys2Proof.Proofs
end

section
/-! Loss of power (03 R68, R69, R76, R81, R82): the newest record of the error log, and what the resets at a loss of P54V and of the auxiliary
supply leave. -/

namespace Sys2Proof.Machine

namespace State

variable {s : State}

/-! ### The newest record of the error log (16 R453) -/

/-- The newest record is one of the device's own, of an event, with one word of detail. -/
def newest (s : State) (event what : Nat) : Prop :=
  ∃ r, s.mgt.log.getLast? = some r ∧ r.kind = 6 ∧ r.event = event ∧ r.detail = [what]

theorem newest_of_log {t : State} {event what : Nat} (h : t.mgt.log = s.mgt.log) (hs : s.newest event what) : t.newest event what := by
  unfold newest
  rwa [h]

@[simp] theorem msix_mgt (fn v : Nat) : (s.msix fn v).mgt = s.mgt := by
  unfold msix
  split <;> rfl

@[simp] theorem rasEv_mgt (b : Nat) : (s.rasEv b).mgt = s.mgt := by
  unfold rasEv
  split
  · rfl
  · rw [msix_mgt]

@[simp] theorem platformEvent_log (r : LogRec) : (s.platformEvent r).mgt.log = s.mgt.log := by
  unfold platformEvent
  split <;> rfl

theorem logRec_newest (index status severity event paddock what : Nat) :
    (s.logRec 6 index status severity event paddock [what]).newest event what := by
  have hlast (r : LogRec) : (if (s.mgt.log ++ [r]).length > 32768 then (s.mgt.log ++ [r]).drop 1 else s.mgt.log ++ [r]).getLast? = some r := by
    split
    · next h => rw [List.getLast?_drop, if_neg (by omega), List.getLast?_concat]
    · exact List.getLast?_concat
  unfold newest logRec
  extract_lets r l t
  have hl : l.getLast? = some r := List.getLast?_concat
  refine ⟨r, ?_, rfl, rfl, rfl⟩
  split
  · exact hlast r
  · rw [rasEv_mgt, platformEvent_log]
    exact hlast r

@[simp] theorem logRec_keys (kind index status severity event paddock : Nat) (detail : List Nat) :
    (s.logRec kind index status severity event paddock detail).mgt.keys = s.mgt.keys :=
  (congrArg (fun u : State => u.mgt.keys) (logRec_calm ..) :)

/-! ### Scrubs and the error log -/

@[simp] theorem retireRow_mgt (n r : Nat) : (s.retireRow n r).mgt = s.mgt := by
  unfold retireRow
  dsimp only
  split <;> rfl

theorem mapOut_keys (n : Nat) : (s.mapOut n).mgt.keys = s.mgt.keys := by
  refine foldl_proj (fun t : State => t.mgt.keys) (fun t r => ?_) _
  dsimp only
  repeat' split
  all_goals simp

theorem scrubCore_keys (n : Nat) : (s.scrubCore n).mgt.keys = s.mgt.keys := by
  rw [scrubCore, modCore_mgt, mapOut_keys]

theorem scrubBay_mgt (b : Nat) : (s.scrubBay b).mgt = ((coresOf b).foldl scrubCore s).mgt := by
  unfold scrubBay
  generalize (coresOf b).foldl scrubCore s = u
  rfl

theorem scrubAll_keys : s.scrubAll.mgt.keys = s.mgt.keys := by
  refine foldl_proj (fun t : State => t.mgt.keys) (fun t b => ?_) _
  rw [scrubBay_mgt]
  exact foldl_proj (s := t) (f := scrubCore) (fun t : State => t.mgt.keys) (fun _ n => scrubCore_keys n) (coresOf b)

/-- No core has a row marked for mapping out. -/
def unmarked (s : State) : Prop := ∀ n, n < 256 → (s.core n).marked = []

theorem scrubCore_unmarked {n : Nat} (hn : n < 256) (h : s.unmarked) : (s.scrubCore n).unmarked ∧ (s.scrubCore n).mgt = s.mgt := by
  have hmap : s.mapOut n = s := by rw [mapOut, h n hn, List.foldl_nil]
  refine ⟨fun m hm => ?_, by rw [scrubCore, hmap, modCore_mgt]⟩
  rw [scrubCore, hmap]
  by_cases hmn : m = n
  · rw [hmn, core_modCore_same]
    exact h n hn
  · rw [core_modCore_ne _ _ _ _ hmn]
    exact h m hm

/-- A scrub of every core logs nothing where no row is marked (09 R286). -/
theorem scrubAll_log (h : s.unmarked) : s.scrubAll.mgt = s.mgt := by
  refine (List.foldlRecOn (motive := fun t : State => t.unmarked ∧ t.mgt = s.mgt) _ _ ⟨h, rfl⟩ fun t ht b hb => ?_).2
  have hcores := List.foldlRecOn (motive := fun u : State => u.unmarked ∧ u.mgt = s.mgt) (coresOf b) scrubCore ht fun u hu n hn => by
    obtain ⟨i, hi, rfl⟩ := List.mem_map.mp hn
    rw [List.mem_range] at hi hb
    obtain ⟨h₁, h₂⟩ := scrubCore_unmarked (n := i + 16 * b) (by omega) hu.1
    exact ⟨h₁, h₂.trans hu.2⟩
  refine ⟨fun n hn => ?_, (scrubBay_mgt b).trans hcores.2⟩
  rw [scrubBay_core]
  exact hcores.1 n hn

/-! ### The loss of P54V -/

/-- What a conventional reset that begins leaves of rails, platform image, keys and log (03 R76, R79, R83). -/
theorem startConv_leaves (k : ConvKind) (link : LinkSt) (h : s.dev.conv = none) :
    (s.startConv k link).dev.computeRails = false ∧ (s.startConv k link).dev.memRails = false ∧ (s.startConv k link).dev.aux = s.dev.aux ∧
      (s.startConv k link).plat = none ∧ (s.startConv k link).mgt.keys = s.mgt.keys ∧ (s.startConv k link).mgt.log = s.scrubAll.mgt.log := by
  have hboard : s.scrubAll.board = s.board := scrubAll_board
  have hkeys : s.scrubAll.mgt.keys = s.mgt.keys := scrubAll_keys
  unfold startConv
  rw [if_neg (by simp [h])]
  generalize s.scrubAll = u at hboard hkeys
  exact ⟨rfl, rfl, (congrArg (fun v : Dev × Option Platform => v.1.aux) hboard :), rfl, hkeys, rfl⟩

/-- The records of a loss of P54V, and of the surprise removal that it is unless it ends an orderly one (03 R82). -/
def mainLossRecords (s : State) (mv : Nat) : State :=
  if s.orderly then s.logRec 6 0 0 3 0x0003 0 [mv] else (s.logRec 6 0 0 3 0x0003 0 [mv]).removalRec 1

/-- The state whose conventional reset a loss of P54V begins. -/
def mainLossReset (s : State) (mv : Nat) : State :=
  { s.mainLossRecords mv with dev := { (s.mainLossRecords mv).dev with conv := none } }

theorem mainLossRecords_calm (mv : Nat) : (s.mainLossRecords mv).calm = s.calm := by
  unfold mainLossRecords
  split
  · exact logRec_calm ..
  · exact (logRec_calm ..).trans (logRec_calm ..)

theorem mainLossReset_rest (mv : Nat) : (s.mainLossReset mv).dev.aux = s.dev.aux ∧ (s.mainLossReset mv).mgt.keys = s.mgt.keys ∧
    ∀ n, (s.mainLossReset mv).core n = s.core n := by
  have hcalm := s.mainLossRecords_calm mv
  unfold mainLossReset
  generalize s.mainLossRecords mv = u at hcalm
  exact ⟨(congrArg (fun v : State => v.dev.aux) hcalm :), (congrArg (fun v : State => v.mgt.keys) hcalm :),
    fun n => (congrArg (fun v : State => v.core n) hcalm :)⟩

theorem loseMain_powered (mv : Nat) (h : s.dev.p54 = true) : ∃ d sec,
    s.loseMain mv = { (s.mainLossReset mv).startConv .surprise .down with dev := d, pdks := [], sec := sec } ∧
    d = { ((s.mainLossReset mv).startConv .surprise .down).dev with
      phase := .off, p54 := false, baseOn := false, conv := none, needPerst := false, baseRailMv := 0, beatBase := 0
      removal := if s.orderly then .unpowered else .none } ∧
    sec.rng.running = false ∧ sec.rng.passRun = 0 ∧ sec.doe = [] := by
  unfold loseMain mainLossReset mainLossRecords
  rw [if_neg (by simp [h])]
  dsimp only
  generalize State.startConv _ _ _ = u
  exact ⟨_, _, rfl, rfl, rfl, rfl, rfl⟩

theorem loseMain_unpowered (mv : Nat) (h : s.dev.p54 = false) : s.loseMain mv = s := if_pos (by simp [h])

/-! ### The loss of the auxiliary supply -/

/-- The records of a loss of the auxiliary supply, and of the surprise removal that it is unless P54V went first in an orderly one. -/
def auxLossRecords (s : State) (mv : Nat) : State :=
  if s.dev.removal = .unpowered then s.logRec 6 0 0 3 0x0003 0 [mv] else (s.logRec 6 0 0 3 0x0003 0 [mv]).removalRec 2

theorem auxLossRecords_dev (mv : Nat) : (s.auxLossRecords mv).dev = s.dev := by
  unfold auxLossRecords removalRec
  split <;> simp

theorem auxLossRecords_calm (mv : Nat) : (s.auxLossRecords mv).calm = s.calm := by
  unfold auxLossRecords
  split
  · exact logRec_calm ..
  · exact (logRec_calm ..).trans (logRec_calm ..)

theorem loseAux_powered (mv : Nat) (h : s.dev.aux = true) : s.loseAux mv = (s.auxLossRecords mv).coldReset := by
  unfold loseAux auxLossRecords
  rw [if_neg (by simp [h])]
  simp only [decide_eq_true_eq]

theorem loseAux_unpowered (mv : Nat) (h : s.dev.aux = false) : s.loseAux mv = s := if_pos (by simp [h])

/-- A core after a cold reset keeps its repair table alone (09 R286, R289). -/
theorem coldReset_core (n : Nat) : s.coldReset.core n = coldCore (s.core n) := tget_map rfl _ n

end State

end Sys2Proof.Machine

namespace Sys2Proof.Proofs

open Sys2Proof Sys2Proof.Machine Sys2Proof.Claims

/-- Settles O35: P54V's loss begins a conventional reset after its records, the auxiliary supply's a cold reset. -/
theorem powerLoss : Obligations.PowerLoss := by
  intro s mv orderly last
  have horderly : s.orderly = true ↔ orderly := by simp [State.orderly, orderly]
  refine ⟨fun hp => ⟨?main, rfl⟩, fun hp => ?off, fun ha => ?aux, fun ha => congrArg Host.Outcome.next (State.loseAux_unpowered mv ha)⟩
  case main =>
    obtain ⟨hrestAux, hrestKeys, hrestCore⟩ := s.mainLossReset_rest mv
    obtain ⟨hcompute, hmemRails, haux, hplat, hkeys, hlog⟩ := (s.mainLossReset mv).startConv_leaves .surprise .down rfl
    obtain ⟨d, sec, hlose, hd, hrun, hpass, hdoe⟩ := s.loseMain_powered mv hp
    refine ⟨_, congrArg Host.Outcome.next hlose, ?_⟩
    subst hd
    have hlast (event what : Nat) (hclean : (s.mainLossReset mv).unmarked) (h : (s.mainLossRecords mv).newest event what) :
        ((s.mainLossReset mv).startConv .surprise .down).newest event what :=
      State.newest_of_log (hlog.trans (congrArg Mgt.log (State.scrubAll_log hclean))) h
    generalize (s.mainLossReset mv).startConv .surprise .down = u at *
    refine ⟨rfl, rfl, rfl, hcompute, hmemRails, rfl, hplat, rfl, haux.trans hrestAux, hrun, hpass, hdoe,
      hkeys.trans hrestKeys, fun hmarked => ?_⟩
    have hclean : (s.mainLossReset mv).unmarked := fun n hn => (congrArg Core.marked (hrestCore n)).trans (hmarked n hn)
    refine ⟨fun hsurprise => hlast 1 1 hclean ?_, fun hfine => hlast 3 mv hclean ?_⟩
    · rw [State.mainLossRecords, if_neg (mt horderly.mp hsurprise)]
      exact State.logRec_newest ..
    · rw [State.mainLossRecords, if_pos (horderly.mpr hfine)]
      exact State.logRec_newest ..
  case off =>
    exact ⟨congrArg Host.Outcome.next (State.loseMain_unpowered mv hp), congrArg Host.Outcome.next (State.loseMain_unpowered mv hp)⟩
  case aux =>
    have hdev := s.auxLossRecords_dev mv
    have hcalm := s.auxLossRecords_calm mv
    have hsurprise (h : s.dev.removal ≠ .unpowered) : (s.auxLossRecords mv).newest 1 2 := by
      rw [State.auxLossRecords, if_neg h]
      exact State.logRec_newest ..
    have hfine (h : s.dev.removal = .unpowered) : (s.auxLossRecords mv).newest 3 mv := by
      rw [State.auxLossRecords, if_pos h]
      exact State.logRec_newest ..
    refine ⟨_, congrArg Host.Outcome.next (State.loseAux_powered mv ha), ?_⟩
    generalize s.auxLossRecords mv = u at hdev hcalm hsurprise hfine
    refine ⟨?_, rfl, rfl, rfl, rfl, rfl, (congrArg (fun u : State => u.mgt.keys) hcalm :), ?_, (congrArg (fun u : State => u.mgt.boot) hcalm :),
      (congrArg State.pending hcalm :), fun n => ?_, fun fn => rfl, hsurprise, hfine⟩
    · rw [← hdev]
      rfl
    · have hsec : u.sec = s.sec := (congrArg State.sec hcalm :)
      rw [← hsec]
      rfl
    · rw [State.coldReset_core]
      exact ⟨rfl, rfl⟩

end Sys2Proof.Proofs
end

section
/-! D3hot and Bus Master Enable (03 R87; 05 R133-R135): what a stop writes of a bay, what messages, completions and fetches leave of a
function's configuration and of the device, and what the end of a cause of suspension leaves of its paddock. -/

namespace Sys2Proof.Machine

/-! ### What a stop writes of a bay (05 R164, R165) -/

/-- A bay without what a stop writes. -/
def Bay.unstopped (x : Bay) : Bay := { x with stopping := none, stopped := false, next := none, prepared := false, withdrawn := false }

/-- A bay that a stop may have left so: it differs in what a stop writes alone, and a stop under way goes on. -/
structure Bay.Halts (x y : Bay) : Prop where
  rest  : y.unstopped = x.unstopped
  stays : x.stopping ≠ none → y.stopping ≠ none

theorem Bay.Halts.refl (x : Bay) : x.Halts x := ⟨rfl, id⟩

theorem Bay.Halts.trans {x y z : Bay} (h : x.Halts y) (h' : y.Halts z) : x.Halts z := ⟨h'.rest.trans h.rest, h'.stays ∘ h.stays⟩

theorem Bay.Halts.holder_eq {x y : Bay} (h : x.Halts y) : y.holder = x.holder := (congrArg Bay.holder h.rest :)

theorem Bay.Halts.job_eq {x y : Bay} (h : x.Halts y) : y.job = x.job := (congrArg Bay.job h.rest :)

namespace State

variable {s : State}

theorem modBay_halts (b : Nat) {f : Bay → Bay} (hf : ∀ x : Bay, x.Halts (f x)) (c : Nat) : (s.bay c).Halts ((s.modBay b f).bay c) := by
  by_cases h : c = b
  · rw [h, bay_modBay_same]
    exact hf _
  · rw [bay_modBay_ne _ _ _ _ h]
    exact .refl _

theorem foldl_halts {α : Type} {f : State → α → State} {c : Nat} (hf : ∀ t x, (bay t c).Halts ((f t x).bay c)) (l : List α) :
    (s.bay c).Halts ((l.foldl f s).bay c) :=
  List.foldlRecOn (motive := fun t : State => (s.bay c).Halts (t.bay c)) l f (.refl _) fun _ ht x _ => ht.trans (hf _ x)

theorem unreserve_halts (b c : Nat) : (s.bay c).Halts ((s.unreserve b).bay c) := by
  refine modBay_halts b ?_ c
  exact fun _ => ⟨rfl, id⟩

theorem stopBay_halts (b : Nat) (why : StopWhy) (c : Nat) : (s.bay c).Halts ((s.stopBay b why).bay c) := by
  unfold stopBay
  split
  · refine modBay_halts b ?_ c
    exact fun _ => ⟨rfl, fun _ => Option.some_ne_none _⟩
  · refine foldl_halts (fun t d => ?_) _
    split
    · refine modBay_halts d ?_ c
      exact fun _ => ⟨rfl, fun _ => Option.some_ne_none _⟩
    · exact .refl _

/-- A bay told to stop is stopping. -/
theorem stopBay_stops {b : Nat} (hb : b < 16) (why : StopWhy) : ((s.stopBay b why).bay b).stopping ≠ none := by
  unfold stopBay
  split
  · rw [bay_modBay_same]
    exact Option.some_ne_none _
  · next jb hjob =>
    have hstep (t : State) (c : Nat) : (t.bay b).Halts ((if (t.bay c).job = some jb then t.modBay c (fun x =>
        { x with stopping := some (joinWhy x.stopping (if c = b then why else .preempt))
                 withdrawn := x.withdrawn || withdraws why }) else t).bay b) := by
      split
      · refine modBay_halts c ?_ b
        exact fun _ => ⟨rfl, fun _ => Option.some_ne_none _⟩
      · exact .refl _
    refine foldl_reaches (P := fun t : State => (t.bay b).stopping ≠ none) (Q := fun t : State => (t.bay b).job = some jb)
      (fun t c _ h => (hstep t c).job_eq.trans h) (fun t c h => (hstep t c).stays h) (fun t h => ?_) (List.mem_range.mpr hb) hjob
    rw [if_pos h, bay_modBay_same]
    exact Option.some_ne_none _

theorem baysOf_congr {t : State} {p : Nat} (h : ∀ b, (t.bay b).holder = (s.bay b).holder) : t.baysOf p = s.baysOf p := by
  unfold baysOf
  simp only [h]

theorem mem_baysOf {p b : Nat} : b ∈ s.baysOf p ↔ b < 16 ∧ (s.bay b).holder = some p := by
  simp [baysOf]

theorem suspendBays_halts (p : Nat) (why : StopWhy) (c : Nat) : (s.bay c).Halts ((s.suspendBays p why).bay c) := by
  refine Bay.Halts.trans (foldl_halts (fun t b => ?_) _) (foldl_halts (fun t b => stopBay_halts b why c) _)
  split
  · exact unreserve_halts b c
  · exact .refl _

/-- Every bay that a suspended paddock holds is stopping. -/
theorem suspendBays_stops {p b : Nat} (hb : b < 16) (hp : (s.bay b).holder = some p) (why : StopWhy) :
    ((s.suspendBays p why).bay b).stopping ≠ none := by
  unfold suspendBays
  extract_lets t
  have ht : (s.bay b).Halts (t.bay b) := by
    refine foldl_halts (fun u c => ?_) _
    split
    · exact unreserve_halts c b
    · exact .refl _
  exact foldl_establishes (P := fun u : State => (u.bay b).stopping ≠ none) (f := fun u c => u.stopBay c why)
    (fun u c h => (stopBay_halts c why b).stays h) (fun u => stopBay_stops hb why) (mem_baysOf.mpr ⟨hb, ht.holder_eq.trans hp⟩) t

/-! ### Suspension (05 R133, R134) -/

/-- A paddock that a cause can suspend. -/
def active (s : State) (p : Nat) : Prop := (s.pdk p).st = .runnable ∨ (s.pdk p).st = .running ∨ (s.pdk p).st = .suspended

theorem suspendFor_halts (p : Nat) (f : Susp → Susp) (why : StopWhy) (c : Nat) : (s.bay c).Halts ((s.suspendFor p f why).bay c) := by
  have h := suspendBays_halts (s := s.modPdk p (fun d => { d with susp := f d.susp })) p why c
  rw [bay_modPdk] at h
  unfold suspendFor
  dsimp only
  split
  · rwa [setPdkSt_bay]
  · rwa [setPdkSt_bay]
  · split
    · exact h
    · exact .refl _
  · exact .refl _

/-- A paddock that was not suspended yet is stopped on every bay that it holds. -/
theorem suspendFor_stops {p b : Nat} (f : Susp → Susp) (why : StopWhy) (ha : s.active p) (hs : (s.pdk p).st ≠ .suspended) (hb : b < 16)
    (hp : (s.bay b).holder = some p) : ((s.suspendFor p f why).bay b).stopping ≠ none := by
  have hstops := suspendBays_stops (s := s.modPdk p (fun d => { d with susp := f d.susp })) hb hp why
  unfold suspendFor
  rcases ha with h | h | h
  · rw [h]
    dsimp only
    rwa [setPdkSt_bay]
  · rw [h]
    dsimp only
    rwa [setPdkSt_bay]
  · exact absurd h hs

theorem suspendFor_inactive {p : Nat} (f : Susp → Susp) (why : StopWhy) (h : ¬s.active p) : s.suspendFor p f why = s := by
  simp only [active, not_or] at h
  obtain ⟨h₁, h₂, h₃⟩ := h
  unfold suspendFor
  split <;> first | contradiction | rfl

/-- A paddock is SUSPENDED in `t`, and where it was not so before, in `s`, each bay that it held then is stopping. -/
def Suspends (s t : State) (q : Nat) : Prop :=
  (t.pdk q).st = .suspended ∧ ((s.pdk q).st ≠ .suspended → ∀ b, b < 16 → (s.bay b).holder = some q → (t.bay b).stopping ≠ none)

theorem suspendFor_suspends {p : Nat} (f : Susp → Susp) (why : StopWhy) (ha : s.active p) : s.Suspends (s.suspendFor p f why) p :=
  ⟨(suspendFor_pdk_same p f why ha).1, fun hs _ hb hp => suspendFor_stops f why ha hs hb hp⟩

/-- Every paddock that a cause can suspend is suspended by a cause that reaches them all (03 R87). -/
theorem foldl_suspendFor (f : Susp → Susp) (why : StopWhy) {q : Nat} (hq : q < 64) (ha : s.active q) :
    s.Suspends (allPdks.foldl (fun t p => t.suspendFor p f why) s) q ∧
      ∃ u, ((allPdks.foldl (fun t p => t.suspendFor p f why) s).pdk q).susp = f u := by
  refine foldl_reaches (P := fun t : State => s.Suspends t q ∧ ∃ u, (t.pdk q).susp = f u)
    (Q := fun t : State => t.pdk q = s.pdk q ∧ ∀ b, (s.bay b).Halts (t.bay b))
    (fun t p hp h => ?_) (fun t p h => ?_) (fun t h => ?_) (List.mem_range.mpr hq) ⟨rfl, fun _ => .refl _⟩
  · exact ⟨(suspendFor_pdk_ne f why (Ne.symm hp)).trans h.1, fun b => (h.2 b).trans (suspendFor_halts p f why b)⟩
  · obtain ⟨⟨hst, hstop⟩, hsusp⟩ := h
    have hkept (hs : (s.pdk q).st ≠ .suspended) (b : Nat) (hb : b < 16) (hh : (s.bay b).holder = some q) :
        ((t.suspendFor p f why).bay b).stopping ≠ none := (suspendFor_halts p f why b).stays (hstop hs b hb hh)
    by_cases hpq : q = p
    · subst hpq
      obtain ⟨hst', hsusp'⟩ := suspendFor_pdk_same q f why (.inr (.inr hst))
      exact ⟨⟨hst', hkept⟩, _, hsusp'⟩
    · have hpdk := suspendFor_pdk_ne (s := t) f why hpq
      exact ⟨⟨hpdk ▸ hst, hkept⟩, hpdk ▸ hsusp⟩
  · obtain ⟨hpdk, hbays⟩ := h
    have ha' : t.active q := by
      unfold active
      rwa [hpdk]
    obtain ⟨hst, hsusp⟩ := suspendFor_pdk_same q f why ha'
    refine ⟨⟨hst, fun hs b hb hh => suspendFor_stops f why ha' (hpdk ▸ hs) hb ((hbays b).holder_eq.trans hh)⟩, _, hsusp⟩

/-! ### A function's configuration without its pending bits -/

/-- A function's configuration without the pending bits of its vectors: what no message writes. -/
def wired (s : State) (fn : Nat) : FnCfg := { s.fnCfg fn with pba := [] }

variable (fn : Nat)

theorem modFn_wired (q : Nat) (f : FnCfg → FnCfg) (hf : ∀ x, { f x with pba := [] } = { x with pba := [] }) :
    (s.modFn q f).wired fn = s.wired fn := by
  unfold wired
  by_cases h : fn = q
  · rw [h, fnCfg_modFn_same, hf]
  · rw [fnCfg_modFn_ne _ _ _ _ h]

@[simp] theorem setPba_wired (q v : Nat) : (s.setPba q v).wired fn = s.wired fn := modFn_wired fn q _ fun _ => rfl

@[simp] theorem msix_wired (q v : Nat) : (s.msix q v).wired fn = s.wired fn := by
  unfold msix
  split
  · exact setPba_wired ..
  · rfl

@[simp] theorem msixFlush_wired (q : Nat) : (s.msixFlush q).wired fn = s.wired fn := by
  unfold msixFlush
  dsimp only
  refine (foldl_proj (wired · fn) (fun t v => ?_) _).trans (modFn_wired fn q _ fun _ => rfl)
  rfl

@[simp] theorem schEv_wired (b p : Nat) : (s.schEv b p).wired fn = s.wired fn := by
  unfold schEv
  dsimp only
  split
  · rfl
  · rw [msix_wired]
    rfl

@[simp] theorem pdkEv_wired (p b : Nat) : (s.pdkEv p b).wired fn = s.wired fn := by
  unfold pdkEv
  split
  · rfl
  · rw [msix_wired]
    rfl

@[simp] theorem setPdkSt_wired (p : Nat) (st : PdkSt) : (s.setPdkSt p st).wired fn = s.wired fn := by
  have h : (s.modPdk p (fun d => { d with st := st })).wired fn = s.wired fn := rfl
  simp only [setPdkSt]
  repeat' split
  all_goals simp [h]

@[simp] theorem settlePdk_wired (p : Nat) : (s.settlePdk p).wired fn = s.wired fn := by
  unfold settlePdk
  split <;> simp

theorem stopBay_wired (b : Nat) (why : StopWhy) : (s.stopBay b why).wired fn = s.wired fn := by
  unfold stopBay
  split
  · rfl
  · refine foldl_proj (wired · fn) (fun t c => ?_) _
    split <;> rfl

theorem suspendBays_wired (p : Nat) (why : StopWhy) : (s.suspendBays p why).wired fn = s.wired fn := by
  rw [suspendBays, foldl_proj (wired · fn) (fun t b => stopBay_wired fn b why), foldl_proj (wired · fn)]
  intro t b
  split <;> rfl

@[simp] theorem suspendFor_wired (p : Nat) (f : Susp → Susp) (why : StopWhy) : (s.suspendFor p f why).wired fn = s.wired fn := by
  have h : ((s.modPdk p (fun d => { d with susp := f d.susp })).suspendBays p why).wired fn = s.wired fn := suspendBays_wired ..
  unfold suspendFor
  dsimp only
  split
  · rw [setPdkSt_wired, h]
  · rw [setPdkSt_wired, h]
  · split
    · exact h
    · rfl
  · rfl

@[simp] theorem hostRead_wired (q addr len : Nat) (what : HostReadFor) : (s.hostRead q addr len what).wired fn = s.wired fn := by
  unfold hostRead
  dsimp only
  refine (foldl_proj (wired · fn) (fun t e => ?_) _).trans ?_ <;> rfl

@[simp] theorem hostWrite_wired (q addr : Nat) (data : List Byte) : (s.hostWrite q addr data).wired fn = s.wired fn := by
  refine foldl_proj (wired · fn) (fun t e => ?_) _
  rfl

@[simp] theorem modRing_wired (p k : Nat) (f : Ring → Ring) : (s.modRing p k f).wired fn = s.wired fn := rfl

@[simp] theorem fetchNext_wired (p k : Nat) : (s.fetchNext p k).wired fn = s.wired fn := by
  unfold fetchNext
  dsimp only
  split <;> simp

@[simp] theorem fetchAll_wired (p : Nat) : (s.fetchAll p).wired fn = s.wired fn := foldl_proj (wired · fn) (fun _ k => fetchNext_wired fn p k) _

@[simp] theorem ringFault_wired (p k : Nat) : (s.ringFault p k).wired fn = s.wired fn := by
  simp [ringFault]

@[simp] theorem writeCpl_wired (p k : Nat) (ok kept : Bool) : (s.writeCpl p k ok kept).wired fn = s.wired fn := by
  unfold writeCpl
  dsimp only
  repeat' split
  all_goals simp

theorem writeCpls_wired (p k n : Nat) : (s.writeCpls p k n).wired fn = s.wired fn := by
  induction n generalizing s with
  | zero => rfl
  | succ n ih => rw [writeCpls, ih, writeCpl_wired]

@[simp] theorem releaseFn_wired (q : Nat) : (s.releaseFn q).wired fn = s.wired fn := by
  unfold releaseFn
  dsimp only
  rw [msixFlush_wired]
  split
  · rfl
  · exact foldl_proj (wired · fn) (fun _ k => writeCpls_wired fn _ k _) _

@[simp] theorem resumeFor_wired (p : Nat) (f : Susp → Susp) : (s.resumeFor p f).wired fn = s.wired fn := by
  have h : (s.modPdk p (fun d => { d with susp := f d.susp })).wired fn = s.wired fn := rfl
  unfold resumeFor
  dsimp only
  repeat' split
  all_goals simp [h]

theorem d3_of_wired {t : State} (h : t.wired fn = s.wired fn) : (t.fnCfg fn).d3 = (s.fnCfg fn).d3 := (congrArg FnCfg.d3 h :)

theorem bme_of_wired {t : State} (h : t.wired fn = s.wired fn) : (t.fnCfg fn).bme = (s.fnCfg fn).bme := (congrArg FnCfg.bme h :)

/-! ### What completions and fetches leave alone -/

/-- The state without its rings and without what messages write. -/
def unrung (s : State) : State := { s.calm with rings := [] }

theorem unrung_of_calm {t : State} (h : t.calm = s.calm) : t.unrung = s.unrung := congrArg (fun u : State => { u with rings := [] }) h

theorem pdk_of_unrung {t : State} (h : t.unrung = s.unrung) (p : Nat) : t.pdk p = s.pdk p := (congrArg (fun u : State => u.pdk p) h :)

theorem bay_of_unrung {t : State} (h : t.unrung = s.unrung) (b : Nat) : t.bay b = s.bay b := (congrArg (fun u : State => u.bay b) h :)

@[simp] theorem modRing_unrung (p k : Nat) (f : Ring → Ring) : (s.modRing p k f).unrung = s.unrung := rfl

theorem fetchNext_unrung (p k : Nat) : (s.fetchNext p k).unrung = s.unrung := by
  unfold fetchNext
  dsimp only
  split
  · rw [modRing_unrung]
    exact unrung_of_calm (hostRead_calm ..)
  · rfl

theorem fetchAll_unrung (p : Nat) : (s.fetchAll p).unrung = s.unrung := foldl_proj unrung (fun _ k => fetchNext_unrung p k) _

theorem writeCpl_unrung (p k : Nat) (kept : Bool) : (s.writeCpl p k true kept).unrung = s.unrung := by
  unfold writeCpl
  dsimp only
  split
  · rfl
  · split
    · rfl
    · split
      · rfl
      · rw [if_neg (by simp), fetchNext_unrung]
        generalize hu : State.modRing (hostWrite ..) p k _ = u
        have h : u.unrung = s.unrung := by
          rw [← hu, modRing_unrung]
          exact unrung_of_calm (hostWrite_calm ..)
        split
        · exact h
        · split
          · exact (unrung_of_calm ((msixFlush_calm ..).trans (modFn_calm ..))).trans h
          · exact (unrung_of_calm (msix_calm ..)).trans h

theorem writeCpls_unrung (p k n : Nat) : (s.writeCpls p k n).unrung = s.unrung := by
  induction n generalizing s with
  | zero => rfl
  | succ n ih => rw [writeCpls, ih, writeCpl_unrung]

theorem releaseFn_unrung : (s.releaseFn fn).unrung = s.unrung := by
  unfold releaseFn
  dsimp only
  rw [unrung_of_calm (msixFlush_calm ..)]
  split
  · rfl
  · exact foldl_proj unrung (fun _ k => writeCpls_unrung _ k _) _

/-! ### The end of a cause of suspension (05 R133, R134) -/

theorem settlePdk_pdk_ne {p q : Nat} (h : q ≠ p) : (s.settlePdk p).pdk q = s.pdk q := by
  unfold settlePdk
  split
  · exact setPdkSt_pdk_ne _ h
  · rfl

/-- The state of a paddock that runs: RUNNING while it holds a bay. -/
def goingSt (s : State) (p : Nat) : PdkSt := if s.baysOf p = [] then .runnable else .running

theorem settlePdk_going {p : Nat} (h : (s.pdk p).st = .runnable) : ((s.settlePdk p).pdk p).st = s.goingSt p := by
  unfold settlePdk goingSt
  rw [if_pos (.inl h), (setPdkSt_pdk_same p _).1]
  simp only [List.isEmpty_iff]

theorem resumeFor_pdk_ne {p q : Nat} (f : Susp → Susp) (h : q ≠ p) : (s.resumeFor p f).pdk q = s.pdk q := by
  have hmod : (s.modPdk p (fun d => { d with susp := f d.susp })).pdk q = s.pdk q := pdk_modPdk_ne _ _ _ _ h
  unfold resumeFor
  dsimp only
  split
  · split
    · exact hmod
    · rw [pdk_of_unrung (fetchAll_unrung p), settlePdk_pdk_ne h, setPdkSt_pdk_ne _ h, hmod]
  · rfl

@[simp] theorem resumeFor_bay (p : Nat) (f : Susp → Susp) (b : Nat) : (s.resumeFor p f).bay b = s.bay b := by
  unfold resumeFor
  dsimp only
  split
  · split
    · rfl
    · rw [bay_of_unrung (fetchAll_unrung p), settlePdk_bay, setPdkSt_bay]
      rfl
  · rfl

theorem resumeFor_held {p : Nat} {f : Susp → Susp} (hs : (s.pdk p).st = .suspended) (h : (f (s.pdk p).susp).any = true) :
    ((s.resumeFor p f).pdk p).st = .suspended := by
  unfold resumeFor
  simp [hs, h]

/-- The end of the last cause. -/
theorem resumeFor_last {p : Nat} {f : Susp → Susp} (hs : (s.pdk p).st = .suspended) (h : (f (s.pdk p).susp).any = false) :
    ((s.resumeFor p f).pdk p).st = s.goingSt p := by
  have hrun := setPdkSt_pdk_same (s := s.modPdk p (fun d => { d with susp := f d.susp })) p .runnable
  have hbays : ((s.modPdk p (fun d => { d with susp := f d.susp })).setPdkSt p .runnable).goingSt p = s.goingSt p := by
    unfold goingSt
    rw [baysOf_congr (s := s) fun b => by rw [setPdkSt_bay, bay_modPdk]]
  have hany : ¬((s.modPdk p (fun d => { d with susp := f d.susp })).pdk p).susp.any = true := by
    rw [pdk_modPdk_same]
    exact ne_true_of_eq_false h
  unfold resumeFor
  rw [if_pos hs]
  dsimp only
  rw [if_neg hany, pdk_of_unrung (fetchAll_unrung p), settlePdk_going hrun.1, hbays]

/-- The end of a cause that held every paddock ends the suspension of a paddock that it was the last cause of. -/
theorem foldl_resumeFor_last {q : Nat} {f : Susp → Susp} (hq : q < 64) (hs : (s.pdk q).st = .suspended) (h : (f (s.pdk q).susp).any = false) :
    ((allPdks.foldl (fun t p => t.resumeFor p f) s).pdk q).st = s.goingSt q := by
  have going (t : State) (hbays : ∀ b, t.bay b = s.bay b) : t.goingSt q = s.goingSt q := by
    unfold goingSt
    rw [baysOf_congr fun b => congrArg Bay.holder (hbays b)]
  have hgoing : s.goingSt q ≠ .suspended := by
    unfold goingSt
    split <;> exact PdkSt.noConfusion
  refine foldl_reaches (P := fun t : State => (t.pdk q).st = s.goingSt q) (Q := fun t : State => t.pdk q = s.pdk q ∧ ∀ b, t.bay b = s.bay b)
    (fun t p hp h => ?_) (fun t p ht => ?_) (fun t h' => ?_) (List.mem_range.mpr hq) ⟨rfl, fun _ => rfl⟩
  · exact ⟨(resumeFor_pdk_ne f (Ne.symm hp)).trans h.1, fun b => (resumeFor_bay p f b).trans (h.2 b)⟩
  · by_cases hpq : q = p
    · subst hpq
      rw [resumeFor, if_neg (ht ▸ hgoing)]
      exact ht
    · rw [resumeFor_pdk_ne f hpq]
      exact ht
  · obtain ⟨hpdk, hbays⟩ := h'
    rw [← hpdk] at hs h
    exact (resumeFor_last hs h).trans (going t hbays)

/-! ### A function's own bits -/

/-- The state after a write of a function's power state or Bus Master Enable: paddocks, bays and memory stand. -/
structure OnlyFn (s u : State) : Prop where
  pdk : ∀ q, u.pdk q = s.pdk q
  bay : ∀ b, u.bay b = s.bay b
  mem : u.mem = s.mem

theorem onlyFn_modFn (f : FnCfg → FnCfg) : s.OnlyFn (s.modFn fn f) := ⟨fun _ => rfl, fun _ => rfl, rfl⟩

variable {u : State}

theorem OnlyFn.active_iff (h : s.OnlyFn u) (q : Nat) : u.active q ↔ s.active q := by
  unfold active
  rw [h.pdk q]

theorem OnlyFn.suspends {t : State} {q : Nat} (h : s.OnlyFn u) (hs : u.Suspends t q) : s.Suspends t q := by
  unfold Suspends at *
  simp only [h.pdk, h.bay] at hs
  exact hs

theorem OnlyFn.goingSt_eq (h : s.OnlyFn u) (q : Nat) : u.goingSt q = s.goingSt q := by
  unfold goingSt
  rw [baysOf_congr fun b => congrArg Bay.holder (h.bay b)]

/-- A cause of suspension begins at a write of a function's bits. -/
theorem OnlyFn.suspendFor (h : s.OnlyFn u) (p : Nat) (f : Susp → Susp) :
    (u.suspendFor p f .suspend).mem = s.mem ∧ (s.active p → s.Suspends (u.suspendFor p f .suspend) p ∧
      ∃ v, ((u.suspendFor p f .suspend).pdk p).susp = f v) ∧
    (¬s.active p → ((u.suspendFor p f .suspend).pdk p).st = (s.pdk p).st) := by
  refine ⟨(mem_of_kept (suspendFor_kept ..)).trans h.mem, fun ha => ?_, fun ha => ?_⟩
  · have ha' := (h.active_iff p).mpr ha
    exact ⟨h.suspends (suspendFor_suspends f .suspend ha'), _, (suspendFor_pdk_same p f .suspend ha').2⟩
  · rw [suspendFor_inactive f .suspend (mt (h.active_iff p).mp ha), h.pdk]

/-- A cause of suspension ends at a write of a function's bits, and what the function kept goes out. -/
theorem OnlyFn.resumeFor (h : s.OnlyFn u) (p : Nat) (f : Susp → Susp) :
    ((u.resumeFor p f).releaseFn fn).mem = s.mem ∧
    ((s.pdk p).st = .suspended → (f (s.pdk p).susp).any = false → (((u.resumeFor p f).releaseFn fn).pdk p).st = s.goingSt p) ∧
    ((s.pdk p).st = .suspended → (f (s.pdk p).susp).any = true → (((u.resumeFor p f).releaseFn fn).pdk p).st = .suspended) := by
  rw [pdk_of_unrung (releaseFn_unrung fn), ← h.pdk p, ← h.goingSt_eq p]
  exact ⟨(mem_of_kept ((releaseFn_kept _).trans (resumeFor_kept ..))).trans h.mem, resumeFor_last, resumeFor_held⟩

end State

end Sys2Proof.Machine

namespace Sys2Proof.Proofs

open Sys2Proof Sys2Proof.Machine Sys2Proof.Claims

section

variable (s : State) (p : PdkId)

theorem gives_vfD3hot : Gives (.vfD3hot p) s (fun t => (t.fnCfg (p + 1)).d3 = true ∧ t.mem = s.mem ∧
    (s.active p → s.Suspends t p ∧ (t.pdk p).susp.d3vf = true) ∧ (¬s.active p → (t.pdk p).st = (s.pdk p).st)) := by
  have hfn := s.onlyFn_modFn (p + 1) (fun f => { f with d3 := true })
  have hd3 : ((s.modFn (p + 1) (fun f => { f with d3 := true })).fnCfg (p + 1)).d3 = true := by rw [State.fnCfg_modFn_same]
  refine ⟨_, rfl, ?_⟩
  generalize s.modFn (p + 1) (fun f => { f with d3 := true }) = u at hfn hd3 ⊢
  obtain ⟨hmem, hsuspends, hstays⟩ := hfn.suspendFor p (fun v => { v with d3vf := true })
  refine ⟨(State.d3_of_wired _ (State.suspendFor_wired ..)).trans hd3, hmem, fun ha => ?_, hstays⟩
  obtain ⟨hs, v, hv⟩ := hsuspends ha
  exact ⟨hs, congrArg Susp.d3vf hv⟩

theorem gives_pf0D3hot : Gives .pf0D3hot s (fun t => (t.fnCfg 0).d3 = true ∧ t.mem = s.mem ∧
    ∀ q, q < 64 → s.active q → s.Suspends t q ∧ (t.pdk q).susp.d3pf = true) := by
  have hfn := s.onlyFn_modFn 0 (fun f => { f with d3 := true })
  have hd3 : ((s.modFn 0 (fun f => { f with d3 := true })).fnCfg 0).d3 = true := by rw [State.fnCfg_modFn_same]
  refine ⟨_, rfl, ?_⟩
  generalize s.modFn 0 (fun f => { f with d3 := true }) = u at hfn hd3 ⊢
  refine ⟨?_, (State.mem_of_kept (State.foldl_kept _ (fun _ _ => State.suspendFor_kept ..) _ _)).trans hfn.mem, fun q hq ha => ?_⟩
  · exact (State.d3_of_wired 0 (State.foldl_proj (State.wired · 0) (fun _ q => State.suspendFor_wired 0 q ..) _)).trans hd3
  · obtain ⟨hs, v, hv⟩ := State.foldl_suspendFor (fun v => { v with d3pf := true }) .suspend hq ((hfn.active_iff q).mpr ha)
    exact ⟨hfn.suspends hs, congrArg Susp.d3pf hv⟩

theorem gives_vfBmeClear : Gives (.vfBmeClear p) s (fun t => (t.fnCfg (p + 1)).bme = false ∧ t.mem = s.mem ∧
    (s.active p → s.Suspends t p ∧ (t.pdk p).susp.bme = true)) := by
  have hfn := s.onlyFn_modFn (p + 1) (fun f => { f with bme := false })
  have hbme : ((s.modFn (p + 1) (fun f => { f with bme := false })).fnCfg (p + 1)).bme = false := by rw [State.fnCfg_modFn_same]
  have hexec : exec (.vfBmeClear p) s =
    .next ((s.modFn (p + 1) (fun f => { f with bme := false })).suspendFor p (fun v => { v with bme := true }) .suspend) := rfl
  refine ⟨_, hexec, ?_⟩
  generalize s.modFn (p + 1) (fun f => { f with bme := false }) = u at hfn hbme ⊢
  obtain ⟨hmem, hsuspends, -⟩ := hfn.suspendFor p (fun v => { v with bme := true })
  refine ⟨(State.bme_of_wired _ (State.suspendFor_wired ..)).trans hbme, hmem, fun ha => ?_⟩
  obtain ⟨hs, v, hv⟩ := hsuspends ha
  exact ⟨hs, congrArg Susp.bme hv⟩

theorem gives_vfD0 : Gives (.vfD0 ⟨p + 1, by omega⟩) s (fun t => (t.fnCfg (p + 1)).d3 = false ∧ t.mem = s.mem ∧
    ((s.pdk p).st = .suspended → (s.pdk p).susp = { d3vf := true } → (t.pdk p).st = s.goingSt p) ∧
    ((s.pdk p).st = .suspended → (s.pdk p).susp.op = true → (t.pdk p).st = .suspended)) := by
  have hfn := s.onlyFn_modFn (p + 1) (fun f => { f with d3 := false })
  have hd3 : ((s.modFn (p + 1) (fun f => { f with d3 := false })).fnCfg (p + 1)).d3 = false := by rw [State.fnCfg_modFn_same]
  have hexec : exec (.vfD0 ⟨p + 1, by omega⟩) s =
    .next (((s.modFn (p + 1) (fun f => { f with d3 := false })).resumeFor p (fun v => { v with d3vf := false })).releaseFn (p + 1)) := rfl
  refine ⟨_, hexec, ?_⟩
  generalize s.modFn (p + 1) (fun f => { f with d3 := false }) = u at hfn hd3 ⊢
  obtain ⟨hmem, hlast, hheld⟩ := hfn.resumeFor (p + 1) p (fun v => { v with d3vf := false })
  refine ⟨(State.d3_of_wired _ ((State.releaseFn_wired ..).trans (State.resumeFor_wired ..))).trans hd3, hmem,
    fun hs hu => hlast hs (by rw [hu]; rfl), fun hs hu => hheld hs (by rw [Susp.any, hu]; rfl)⟩

theorem gives_pf0D0 : Gives (.vfD0 0) s (fun t => (t.fnCfg 0).d3 = false ∧
    ((s.pdk p).st = .suspended → (s.pdk p).susp = { d3pf := true } → (t.pdk p).st = s.goingSt p)) := by
  have hfn := s.onlyFn_modFn 0 (fun f => { f with d3 := false })
  have hd3 : ((s.modFn 0 (fun f => { f with d3 := false })).fnCfg 0).d3 = false := by rw [State.fnCfg_modFn_same]
  have hexec : exec (.vfD0 0) s = .next ((State.allPdks.foldl (fun t q => t.resumeFor q (fun v => { v with d3pf := false }))
    (s.modFn 0 (fun f => { f with d3 := false }))).releaseFn 0) := rfl
  refine ⟨_, hexec, ?_⟩
  generalize s.modFn 0 (fun f => { f with d3 := false }) = u at hfn hd3 ⊢
  refine ⟨?_, fun hs hu => ?_⟩
  · exact (State.d3_of_wired 0 ((State.releaseFn_wired ..).trans
      (State.foldl_proj (State.wired · 0) (fun _ q => State.resumeFor_wired 0 q _) _))).trans hd3
  · rw [State.pdk_of_unrung (State.releaseFn_unrung 0), ← hfn.goingSt_eq p]
    rw [← hfn.pdk p] at hs hu
    exact State.foldl_resumeFor_last p.isLt hs (by rw [hu]; rfl)

theorem gives_vfBmeSet : Gives (.vfBmeSet p) s (fun t => (t.fnCfg (p + 1)).bme = true ∧ t.mem = s.mem ∧
    ((s.pdk p).st = .suspended → (s.pdk p).susp = { bme := true } → (t.pdk p).st = s.goingSt p)) := by
  have hfn := s.onlyFn_modFn (p + 1) (fun f => { f with bme := true })
  have hbme : ((s.modFn (p + 1) (fun f => { f with bme := true })).fnCfg (p + 1)).bme = true := by rw [State.fnCfg_modFn_same]
  have hexec : exec (.vfBmeSet p) s =
    .next (((s.modFn (p + 1) (fun f => { f with bme := true })).resumeFor p (fun v => { v with bme := false })).releaseFn (p + 1)) := rfl
  refine ⟨_, hexec, ?_⟩
  generalize s.modFn (p + 1) (fun f => { f with bme := true }) = u at hfn hbme ⊢
  obtain ⟨hmem, hlast, -⟩ := hfn.resumeFor (p + 1) p (fun v => { v with bme := false })
  exact ⟨(State.bme_of_wired _ ((State.releaseFn_wired ..).trans (State.resumeFor_wired ..))).trans hbme, hmem,
    fun hs hu => hlast hs (by rw [hu]; rfl)⟩

end

/-- Settles O38: each command writes the function's bit, which messages leave alone (`State.wired`), and then begins or ends its cause. -/
theorem functionPowerStates : Obligations.FunctionPowerStates := fun s p =>
  ⟨gives_vfD3hot s p, gives_pf0D3hot s, gives_vfBmeClear s p, gives_vfD0 s p, gives_pf0D0 s p, gives_vfBmeSet s p⟩

end Sys2Proof.Proofs
end

section
/-! Teardown's first steps (05 R133, R170; 06 R186): what they write of the paddock and of its TDI, and what they leave alone. The work that
they stop (rings, bays, cores and engines) is named as a whole, `State.withWork`. -/

namespace Sys2Proof.Machine

namespace State

variable {s : State}

/-! ### What a teardown stops -/

/-- The state with the rings, bays, cores and engines of another. -/
def withWork (s w : State) : State := { s with rings := w.rings, bays := w.bays, cores := w.cores, tmb := w.tmb, fab := w.fab, yard := w.yard }

/-- The second state differs from the first in its rings, bays, cores and engines alone. -/
def Works (s t : State) : Prop := t = s.withWork t

theorem Works.trans {t u : State} (h : s.Works t) (h' : t.Works u) : s.Works u := by
  unfold Works at *
  rw [h', h]
  rfl

theorem modRing_works (p k : Nat) (f : Ring → Ring) : s.Works (s.modRing p k f) := rfl
theorem modBay_works (b : Nat) (f : Bay → Bay) : s.Works (s.modBay b f) := rfl
theorem modCore_works (n : Nat) (f : Core → Core) : s.Works (s.modCore n f) := rfl

theorem foldl_works {α : Type} {f : State → α → State} (hf : ∀ t x, Works t (f t x)) (l : List α) : s.Works (l.foldl f s) :=
  List.foldlRecOn (motive := s.Works) l f rfl fun t ht x _ => ht.trans (hf t x)

/-! ### A load given up (04 R129) -/

/-- A load that is given up changes host reads, the loader, and a paddock's lock and root key. -/
theorem abandonLoad_rest (fn : Nat) : ∃ r l ps,
    s.abandonLoad fn = { s with hif := { s.hif with reads := r }, ldr := l, pdks := ps } ∧
      ∀ q, ∃ g k, tget {} ps q = { s.pdk q with goLock := g, rootKey := k } := by
  unfold abandonLoad
  split
  · exact ⟨_, _, _, rfl, fun q => ⟨_, _, rfl⟩⟩
  · dsimp only
    split
    · exact ⟨_, _, _, rfl, fun q => ⟨_, _, rfl⟩⟩
    · refine ⟨_, _, _, rfl, fun q => ?_⟩
      by_cases h : q = fn - 1
      · rw [h, tget_tmod_same]
        exact ⟨_, _, rfl⟩
      · rw [tget_tmod_ne _ _ _ _ _ h]
        exact ⟨_, _, rfl⟩

theorem abandonLoad_pdk (fn q : Nat) : ∃ g k, (s.abandonLoad fn).pdk q = { s.pdk q with goLock := g, rootKey := k } := by
  obtain ⟨r, l, ps, h, hps⟩ := s.abandonLoad_rest fn
  rw [h]
  exact hps q

@[simp] theorem abandonLoad_st (fn q : Nat) : ((s.abandonLoad fn).pdk q).st = (s.pdk q).st := by
  obtain ⟨g, k, h⟩ := s.abandonLoad_pdk fn q
  rw [h]

@[simp] theorem abandonLoad_fnCfg (fn q : Nat) : (s.abandonLoad fn).fnCfg q = s.fnCfg q := by
  obtain ⟨r, l, ps, h, -⟩ := s.abandonLoad_rest fn
  rw [h]
  rfl

@[simp] theorem abandonLoad_sec (fn : Nat) : (s.abandonLoad fn).sec = s.sec := by
  obtain ⟨r, l, ps, h, -⟩ := s.abandonLoad_rest fn
  rw [h]

/-! ### What no teardown writes -/

/-- The board, the owner tables and the streams of link encryption: what teardown's first steps leave alone. -/
def fixed (s : State) : (Dev × Option Platform) × List OwnRange × Tab IdeStream := (s.board, s.own, s.sec.ide)

theorem fixed_of_calm {t : State} (h : t.calm = s.calm) : t.fixed = s.fixed :=
  Prod.ext (board_of_calm h) (congrArg (fun u : State => (u.own, u.sec.ide)) h :)

@[simp] theorem abandonLoad_fixed (fn : Nat) : (s.abandonLoad fn).fixed = s.fixed := by
  obtain ⟨r, l, ps, h, -⟩ := s.abandonLoad_rest fn
  rw [h]
  rfl

@[simp] theorem pdkEv_fixed (p b : Nat) : (s.pdkEv p b).fixed = s.fixed := by
  rcases s.pdkEv_calm p b with h | h
  · exact fixed_of_calm h
  · exact (fixed_of_calm h).trans rfl

@[simp] theorem setPdkSt_fixed (p : Nat) (st : PdkSt) : (s.setPdkSt p st).fixed = s.fixed := by
  have h (f : Pdk → Pdk) : ((s.modPdk p f).schEv 0 p).fixed = s.fixed :=
    (fixed_of_calm (schEv_calm ..)).trans rfl
  simp only [setPdkSt]
  repeat' split
  all_goals simp [h]

theorem schEv_fnCfg_ne {fn : Nat} (b p : Nat) (h : fn ≠ 0) : (s.schEv b p).fnCfg fn = s.fnCfg fn := by
  unfold schEv msix
  dsimp only
  split
  · rfl
  · split
    · exact fnCfg_modFn_ne _ _ _ _ h
    · rfl

theorem pdkEv_fnCfg_ne {fn : Nat} (p b : Nat) (h : fn ≠ p + 1) : (s.pdkEv p b).fnCfg fn = s.fnCfg fn := by
  unfold pdkEv msix
  split
  · rfl
  · split
    · exact fnCfg_modFn_ne _ _ _ _ h
    · rfl

/-- The messages of a paddock's change of state are PF0's and its own function's. -/
theorem setPdkSt_fnCfg_ne {fn p : Nat} (st : PdkSt) (h₀ : fn ≠ 0) (h : fn ≠ p + 1) : (s.setPdkSt p st).fnCfg fn = s.fnCfg fn := by
  have hst (f : Pdk → Pdk) : ((s.modPdk p f).schEv 0 p).fnCfg fn = s.fnCfg fn := schEv_fnCfg_ne 0 p h₀
  simp only [setPdkSt]
  repeat' split
  all_goals simp [pdkEv_fnCfg_ne _ _ h, hst]

@[simp] theorem msix_sec (fn v : Nat) : (s.msix fn v).sec = s.sec := by
  unfold msix
  split <;> rfl

@[simp] theorem schEv_sec (b p : Nat) : (s.schEv b p).sec = s.sec := (congrArg State.sec (schEv_calm s b p) :)

@[simp] theorem pdkEv_sec (p b : Nat) : (s.pdkEv p b).sec = s.sec := by
  unfold pdkEv
  split <;> simp

@[simp] theorem setPdkSt_sec (p : Nat) (st : PdkSt) : (s.setPdkSt p st).sec = s.sec := by
  simp only [setPdkSt]
  repeat' split
  all_goals simp

theorem setPdkSt_td (p : Nat) (st : PdkSt) : ((s.setPdkSt p st).pdk p).td = (s.pdk p).td := by
  have hev (u : State) (b : Nat) : ((u.pdkEv p b).pdk p).td = (u.pdk p).td := by
    obtain ⟨e, he⟩ := pdkEv_pdk_same (s := u) p b
    rw [he]
  simp only [setPdkSt]
  repeat' split
  all_goals simp [hev]

/-! ### A TDI's state (06 R186) -/

@[simp] theorem setTdi_tdi_same (p : Nat) (f : Tdi → Tdi) : (s.setTdi p f).tdi p = f (s.tdi p) := tget_tmod_same ..

/-- A TDI that its stream's keys or its configuration hold: CONFIG_LOCKED or RUN. -/
def held (s : State) (p : Nat) : Prop := (s.tdi p).st = .locked ∨ (s.tdi p).st = .run

/-! ### Steps 1 and 2 of a teardown (05 R170) -/

/-- A paddock in TEARDOWN, before its work is stopped. -/
def tornDown (s : State) (p : Nat) (flr : Bool) : State :=
  ((s.abandonLoad (p + 1)).modPdk p (fun d => { d with td := some { drained := false, flr := flr }, susp := {} })).setPdkSt p .teardown

theorem beginTeardown_empty {p : Nat} {flr : Bool} (h : (s.pdk p).st = .empty) : s.beginTeardown p flr = s := by
  simp [beginTeardown, h]

theorem beginTeardown_again {p : Nat} {flr : Bool} (h : (s.pdk p).st = .teardown) :
    s.beginTeardown p flr = if flr then s.modPdk p (fun d => { d with td := d.td.map (fun t => { t with flr := true }) }) else s := by
  simp [beginTeardown, h]

/-- A teardown that begins: the paddock is in TEARDOWN, its work stopped, and its TDI in ERROR where it was held. -/
theorem beginTeardown_going {p : Nat} {flr : Bool} (h : (s.pdk p).st ≠ .empty) (h' : (s.pdk p).st ≠ .teardown) : ∃ t,
    (s.tornDown p flr).Works t ∧ s.beginTeardown p flr =
      if !flr && ((t.tdi p).st = .locked || (t.tdi p).st = .run) then t.setTdi p (fun x => { x with st := .error }) else t := by
  unfold beginTeardown
  split
  · contradiction
  · contradiction
  · extract_lets s₁ s₂ s₃ s₄ s₅
    refine ⟨s₅, ?_, rfl⟩
    have hrings : s₂.Works s₃ := foldl_works (fun t k => t.modRing_works p k _) _
    have hbays : s₃.Works s₄ := by
      refine foldl_works (fun t b => ?_) _
      extract_lets x t₁
      have hnext : t.Works t₁ := by
        simp only [t₁]
        split
        · split
          · exact modBay_works ..
          · rfl
        · rfl
      clear_value t₁
      split
      · exact hnext.trans ((foldl_works (fun u n => u.modCore_works n _) _).trans (modBay_works ..))
      · exact hnext
    clear_value s₄
    have hengines : s₄.Works s₅ := rfl
    exact (hrings.trans hbays).trans hengines

/-- What the parts of a teardown's first steps each leave alone, the steps leave alone. -/
theorem beginTeardown_proj {β : Type} {g : State → β} {p : Nat} {flr : Bool} (hwork : ∀ t w, g (withWork t w) = g t)
    (htdi : ∀ t f, g (setTdi t p f) = g t) (hpdk : ∀ t f, g (modPdk t p f) = g t) (hst : ∀ t st, g (setPdkSt t p st) = g t)
    (hload : g (s.abandonLoad (p + 1)) = g s) : g (s.beginTeardown p flr) = g s := by
  by_cases h : (s.pdk p).st = .empty
  · rw [beginTeardown_empty h]
  by_cases h' : (s.pdk p).st = .teardown
  · rw [beginTeardown_again h']
    split
    · exact hpdk ..
    · rfl
  obtain ⟨t, ht, hbegin⟩ := beginTeardown_going (flr := flr) h h'
  have hg : g t = g s := by rw [ht, hwork, tornDown, hst, hpdk, hload]
  rw [hbegin]
  split
  · rw [htdi, hg]
  · exact hg

@[simp] theorem beginTeardown_fixed (p : Nat) (flr : Bool) : (s.beginTeardown p flr).fixed = s.fixed :=
  beginTeardown_proj (fun _ _ => rfl) (fun _ _ => rfl) (fun _ _ => rfl) (fun _ _ => setPdkSt_fixed ..) (abandonLoad_fixed _)

theorem beginTeardown_wired (p : Nat) (flr : Bool) (fn : Nat) : (s.beginTeardown p flr).wired fn = s.wired fn :=
  beginTeardown_proj (g := (wired · fn)) (fun _ _ => rfl) (fun _ _ => rfl) (fun _ _ => rfl) (fun _ _ => setPdkSt_wired ..)
    (by simp only [wired, abandonLoad_fnCfg])

theorem beginTeardown_fnCfg_ne {p fn : Nat} (flr : Bool) (h₀ : fn ≠ 0) (h : fn ≠ p + 1) :
    (s.beginTeardown p flr).fnCfg fn = s.fnCfg fn :=
  beginTeardown_proj (g := (fnCfg · fn)) (fun _ _ => rfl) (fun _ _ => rfl) (fun _ _ => rfl) (fun _ _ => setPdkSt_fnCfg_ne _ h₀ h)
    (abandonLoad_fnCfg ..)

theorem beginTeardown_st_ne {p q : Nat} (flr : Bool) (h : q ≠ p) : ((s.beginTeardown p flr).pdk q).st = (s.pdk q).st :=
  beginTeardown_proj (g := fun t : State => (t.pdk q).st) (fun _ _ => rfl) (fun _ _ => rfl)
    (fun _ _ => congrArg Pdk.st (pdk_modPdk_ne _ _ _ _ h)) (fun _ _ => congrArg Pdk.st (setPdkSt_pdk_ne _ h)) (abandonLoad_st ..)

theorem tornDown_pdk (p : Nat) (flr : Bool) :
    ((s.tornDown p flr).pdk p).st = .teardown ∧ ((s.tornDown p flr).pdk p).td = some { drained := false, flr := flr } := by
  unfold tornDown
  rw [setPdkSt_td, pdk_modPdk_same]
  exact ⟨(setPdkSt_pdk_same p .teardown).1, rfl⟩

theorem beginTeardown_going_pdk {p : Nat} (flr : Bool) (h : (s.pdk p).st ≠ .empty) (h' : (s.pdk p).st ≠ .teardown) :
    ((s.beginTeardown p flr).pdk p).st = .teardown ∧ ((s.beginTeardown p flr).pdk p).td = some { drained := false, flr := flr } := by
  obtain ⟨t, ht, hbegin⟩ := beginTeardown_going (flr := flr) h h'
  have hpdk : t.pdk p = (s.tornDown p flr).pdk p := by
    rw [ht]
    rfl
  rw [hbegin]
  split
  · exact hpdk ▸ tornDown_pdk p flr
  · exact hpdk ▸ tornDown_pdk p flr

/-- A paddock that is not EMPTY is in TEARDOWN. -/
theorem beginTeardown_st {p : Nat} (flr : Bool) (h : (s.pdk p).st ≠ .empty) : ((s.beginTeardown p flr).pdk p).st = .teardown := by
  by_cases h' : (s.pdk p).st = .teardown
  · rw [beginTeardown_again h']
    split
    · rw [pdk_modPdk_same]
      exact h'
    · exact h'
  · exact (beginTeardown_going_pdk flr h h').1

/-- A TDI in ERROR stays there at a teardown. -/
theorem beginTeardown_error {p : Nat} (flr : Bool) (h : (s.tdi p).st = .error) : ((s.beginTeardown p flr).tdi p).st = .error := by
  by_cases h₁ : (s.pdk p).st = .empty
  · rwa [beginTeardown_empty h₁]
  by_cases h₂ : (s.pdk p).st = .teardown
  · rw [beginTeardown_again h₂]
    split <;> exact h
  obtain ⟨t, ht, hbegin⟩ := beginTeardown_going (flr := flr) h₁ h₂
  have htdi : t.tdi p = s.tdi p := by
    have hsec : t.sec = s.sec := by
      rw [ht]
      exact (setPdkSt_sec ..).trans (abandonLoad_sec _)
    rw [tdi, hsec]
    rfl
  rw [hbegin]
  split
  · rw [setTdi_tdi_same]
  · rw [htdi, h]

/-! ### A change under a held TDI (06 R186, R187) -/

theorem tdiError_free {p : Nat} (h : ¬s.held p) : s.tdiError p = s := by
  unfold held at h
  simp [tdiError, h]

theorem tdiError_held {p : Nat} (h : s.held p) :
    s.tdiError p = (s.setTdi p (fun t => { t with st := .error })).beginTeardown p false := by
  unfold held at h
  simp [tdiError, h]

@[simp] theorem tdiError_fixed (p : Nat) : (s.tdiError p).fixed = s.fixed := by
  by_cases h : s.held p
  · rw [tdiError_held h, beginTeardown_fixed]
    rfl
  · rw [tdiError_free h]

theorem tdiError_wired (p fn : Nat) : (s.tdiError p).wired fn = s.wired fn := by
  by_cases h : s.held p
  · rw [tdiError_held h, beginTeardown_wired]
    rfl
  · rw [tdiError_free h]

/-- A held TDI goes to ERROR, and its paddock into TEARDOWN. -/
theorem tdiError_error {p : Nat} (h : s.held p) :
    ((s.tdiError p).tdi p).st = .error ∧ ((s.pdk p).st ≠ .empty → ((s.tdiError p).pdk p).st = .teardown) := by
  rw [tdiError_held h]
  exact ⟨beginTeardown_error false (by rw [setTdi_tdi_same]), fun hp => beginTeardown_st false hp⟩

end State

end Sys2Proof.Machine
end

section
/-! Configuration writes and MSI-X messages (03 R70, R85, R86, R88; 05 R472; 06 R174, R186): a change under a held TDI, the stream of a TDI,
and the messages of the vectors that are no longer held. -/

namespace Sys2Proof.Machine

/-! ### Tables -/

/-- A key reads as the default or as an entry of the table. -/
theorem tget_default_or_mem {α : Type} (d : α) (t : Tab α) (k : Nat) : tget d t k = d ∨ (k, tget d t k) ∈ t := by
  induction t with
  | nil => exact .inl rfl
  | cons e t ih =>
    obtain ⟨key, v⟩ := e
    by_cases h : k = key
    · simp [tget, h]
    · simpa [tget, h] using ih

/-- A key all of whose entries are left out reads as the default. -/
theorem tget_filter_out {α : Type} (d : α) (t : Tab α) (q : Nat × α → Bool) (k : Nat) (h : ∀ v, q (k, v) = false) :
    tget d (t.filter q) k = d := by
  refine (tget_default_or_mem d (t.filter q) k).resolve_right fun hmem => ?_
  exact Bool.false_ne_true ((h _).symm.trans (List.mem_filter.mp hmem).2)

theorem exec_configWrite (s : State) (fn : Fn) (w : CfgWrite) : exec (.configWrite fn w) s = .next (s.cfgWrite fn w) := rfl

namespace State

variable {s : State}

/-! ### Configuration writes -/

theorem cfgWrite_training {fn : Nat} {w : CfgWrite} (hc : s.dev.cfgReady = false) (hl : s.dev.link = .training) :
    s.cfgWrite fn w = s.send (.cpl fn .retry []) := by
  simp [cfgWrite, hc, hl]

theorem cfgWrite_noLink {fn : Nat} {w : CfgWrite} (hc : s.dev.cfgReady = false) (hl : s.dev.link ≠ .training) : s.cfgWrite fn w = s := by
  simp [cfgWrite, hc, hl]

/-- A function's BAR register written. -/
def putBar (s : State) (fn i : Nat) (v : BitVec 32) : State := s.modFn fn (fun f => { f with cfg := tset f.cfg (0x10 + 4 * i) v })

theorem cfgWrite_bar {p i : Nat} {v : BitVec 32} (hc : s.dev.cfgReady = true) :
    s.cfgWrite (p + 1) (.bar i v) =
      if tget 0 (s.fnCfg (p + 1)).cfg (0x10 + 4 * i) ≠ v then (s.putBar (p + 1) i v).tdiError p else s.putBar (p + 1) i v := by
  simp [cfgWrite, hc, putBar]

theorem cfgWrite_stream {k : Nat} {v : BitVec 32} (hc : s.dev.cfgReady = true) :
    s.cfgWrite 0 (.streamControl k v) = s.streamControl k v := by
  simp [cfgWrite, hc]

theorem putBar_bar (fn i : Nat) (v : BitVec 32) : tget 0 ((s.putBar fn i v).fnCfg fn).cfg (0x10 + 4 * i) = v := by
  rw [putBar, fnCfg_modFn_same]
  exact tget_tset_same ..

theorem cfg_of_wired {t : State} {fn : Nat} (h : t.wired fn = s.wired fn) : (t.fnCfg fn).cfg = (s.fnCfg fn).cfg := (congrArg FnCfg.cfg h :)

/-! ### The stream that a TDI is bound to (06 R174, R186) -/

/-- Stream k with its keys destroyed and another configuration. -/
def putControl (s : State) (k : Nat) (v : BitVec 32) : State :=
  { s.dropStream k with sec := { (s.dropStream k).sec with ide := tmod {} (s.dropStream k).sec.ide k (fun x => { x with ctl := v }) } }

theorem putControl_stream (k : Nat) (v : BitVec 32) :
    (tget {} (s.putControl k v).sec.ide k).ctl = v ∧ (tget {} (s.putControl k v).sec.ide k).keys = [] := by
  simp [putControl, dropStream]

theorem streamControl_same {k : Nat} {v : BitVec 32} (h : (tget {} s.sec.ide k).ctl = v) : s.streamControl k v = s := if_pos h

theorem streamControl_bound {k p : Nat} {v : BitVec 32} (h : (tget {} s.sec.ide k).ctl ≠ v) (hp : (tget {} s.sec.ide k).vf = some p) :
    s.streamControl k v = (s.putControl k v).tdiError p := by
  unfold streamControl
  dsimp only
  rw [if_neg h, hp]
  rfl

theorem streamControl_unbound {k : Nat} {v : BitVec 32} (h : (tget {} s.sec.ide k).ctl ≠ v) (hp : (tget {} s.sec.ide k).vf = none) :
    s.streamControl k v = s.putControl k v := by
  unfold streamControl
  dsimp only
  rw [if_neg h, hp]
  rfl

/-- Another configuration of a stream stands, with the stream's keys destroyed. -/
theorem streamControl_stream {k : Nat} {v : BitVec 32} (h : (tget {} s.sec.ide k).ctl ≠ v) :
    (tget {} (s.streamControl k v).sec.ide k).ctl = v ∧ (tget {} (s.streamControl k v).sec.ide k).keys = [] := by
  cases hp : (tget {} s.sec.ide k).vf with
  | none => exact streamControl_unbound h hp ▸ putControl_stream k v
  | some p =>
    have hide : ((s.putControl k v).tdiError p).sec.ide = (s.putControl k v).sec.ide := congrArg (·.2.2) (tdiError_fixed p)
    rw [streamControl_bound h hp, hide]
    exact putControl_stream k v

/-! ### Messages of vectors that are no longer held (05 R472) -/

variable {fn : Nat}

/-- A function that keeps no completion. -/
def keepsNone (s : State) (fn : Nat) : Prop := fn = 0 ∨ ∀ e ∈ s.rings, e.1 / 256 = fn - 1 → e.2.cpls = []

theorem ring_cpls_of_keepsNone {k : Nat} (h : ∀ e ∈ s.rings, e.1 / 256 = fn - 1 → e.2.cpls = []) (hk : k ∈ s.ringsOf (fn - 1)) :
    (s.ring (fn - 1) k).cpls = [] := by
  obtain ⟨e, he, rfl⟩ := List.mem_map.mp hk
  have hp : e.1 / 256 = fn - 1 := of_decide_eq_true (List.mem_filter.mp he).2
  rcases tget_default_or_mem ({} : Ring) s.rings ((fn - 1) * 256 + e.1 % 256) with hd | hmem
  · exact (congrArg Ring.cpls hd).trans rfl
  · exact h _ hmem (by dsimp only; omega)

/-- Where no completion is kept, the messages alone go out. -/
theorem releaseFn_keepsNone (h : s.keepsNone fn) : s.releaseFn fn = s.msixFlush fn := by
  unfold releaseFn
  dsimp only
  split
  · rfl
  · next h₀ =>
    refine congrArg (msixFlush · fn) ?_
    refine List.foldlRecOn (motive := (· = s)) _ _ rfl fun t ht k hk => ?_
    rw [ht, ring_cpls_of_keepsNone (h.resolve_left h₀) hk]
    rfl

theorem keepsCpl_of_keepsNone (h : s.keepsNone fn) (v : Nat) : s.keepsCpl fn v = false := by
  refine Bool.eq_false_iff.mpr fun hk => ?_
  simp only [keepsCpl, Bool.and_eq_true, decide_eq_true_eq, List.any_eq_true] at hk
  obtain ⟨h₀, e, he, ⟨hp, -⟩, c, hc, -⟩ := hk
  rw [h.resolve_left h₀ e he hp] at hc
  exact absurd hc List.not_mem_nil

theorem foldl_send_msix (vs : List Nat) : vs.foldl (fun t v => t.send (.msix fn v (t.ideOf fn))) s =
    { s with out := s.out ++ vs.map (fun v => .msix fn v (s.ideOf fn)) } := by
  induction vs generalizing s with
  | nil => simp
  | cons v vs ih =>
    have hide : (s.send (.msix fn v (s.ideOf fn))).ideOf fn = s.ideOf fn := rfl
    rw [List.foldl_cons, ih, hide]
    simp [send]

/-- Each pending vector that is not held is sent once, in the order of the pending bits, and is no longer pending. -/
theorem msixFlush_keepsNone (h : s.keepsNone fn) : s.msixFlush fn =
    { s.modFn fn (fun f => { f with pba := f.pba.filter (fun e => !(s.releasable fn).contains e.1) }) with
      out := s.out ++ (s.releasable fn).map (fun v => .msix fn v (s.ideOf fn)) } := by
  have hall : (s.releasable fn).filter (fun v => !s.keepsCpl fn v) = s.releasable fn :=
    List.filter_eq_self.mpr fun v _ => by rw [keepsCpl_of_keepsNone h]; rfl
  unfold msixFlush
  rw [hall]
  exact foldl_send_msix _

end State

end Sys2Proof.Machine

namespace Sys2Proof.Proofs

open Sys2Proof Sys2Proof.Machine Sys2Proof.Claims

/-- Settles O39: each write ends at its case of `State.cfgWrite`; what a held TDI meets is `State.tdiError`. -/
theorem configurationAndMessages : Obligations.ConfigurationAndMessages := by
  intro s fn p i k n v mps mrrs cor nonfatal fatal ur w vf locked old
  refine ⟨rfl, fun hc hl => congrArg Host.Outcome.next (State.cfgWrite_training hc hl),
    fun hc hl => congrArg Host.Outcome.next (State.cfgWrite_noLink hc hl),
    fun hc => ⟨?vfEnable, fun hv => ?numVfs, fun hv => ?numVfsFixed, ?control, fun hh hold => ?bar, fun hfree => ?barQuiet, fun hk => ?sameStream,
      fun hk => ?stream⟩, fun hkeep => ?messages⟩
  case vfEnable => simp [exec_configWrite, State.cfgWrite, hc]
  case numVfs => simp [exec_configWrite, State.cfgWrite, hc, hv]
  case numVfsFixed => simp [exec_configWrite, State.cfgWrite, hc, hv]
  case control => simp [exec_configWrite, State.cfgWrite, hc]
  case bar =>
    refine ⟨_, congrArg Host.Outcome.next ((State.cfgWrite_bar hc).trans (if_pos hold)), ?_⟩
    obtain ⟨herror, hdown⟩ := State.tdiError_error (s := s.putBar (p + 1) i v) hh
    refine ⟨herror, ?_, hdown⟩
    rw [State.cfg_of_wired (State.tdiError_wired ..)]
    exact State.putBar_bar ..
  case barQuiet =>
    refine congrArg Host.Outcome.next ((State.cfgWrite_bar hc).trans ?_)
    split
    · next hold => exact State.tdiError_free (hfree.resolve_right hold)
    · rfl
  case sameStream =>
    exact congrArg Host.Outcome.next ((State.cfgWrite_stream hc).trans (State.streamControl_same hk))
  case stream =>
    refine ⟨_, congrArg Host.Outcome.next (State.cfgWrite_stream hc), ?_⟩
    obtain ⟨hctl, hkeys⟩ := State.streamControl_stream hk
    refine ⟨hctl, hkeys, fun hp hh => ?_⟩
    rw [State.streamControl_bound hk hp]
    exact (State.tdiError_error (s := s.putControl k v) hh).1
  case messages =>
    have hkeep' : s.keepsNone fn := hkeep.imp_left Fin.val_eq_zero_iff.mpr
    refine ⟨_, congrArg Host.Outcome.next ((State.releaseFn_keepsNone hkeep').trans (State.msixFlush_keepsNone hkeep')), rfl,
      fun v hv => ?_, rfl, rfl⟩
    have hpba := congrArg FnCfg.pba (s.fnCfg_modFn_same fn (fun f => { f with pba := f.pba.filter (fun e => !(s.releasable fn).contains e.1) }))
    refine (congrArg (tget false · v) hpba).trans (tget_filter_out _ _ _ _ fun _ => ?_)
    simp [hv]

end Sys2Proof.Proofs
end

section
/-! Function Level Resets (03 R76, R83, R88; 05 R171): what the reset of a VF does to its function, its paddock, its TDI and its frames, and
how those of every VF and of PF0 are made of it. -/

namespace Sys2Proof.Machine

/-- A zeroed range reads zero, and the bytes outside it as they were. -/
theorem readByte_zeroRange (m : List Host.Cell) (lo hi a : Nat) :
    readByte (zeroRange m lo hi) a = if lo ≤ a ∧ a < hi then 0 else readByte m a := by
  split
  · next h =>
    refine tget_filter_out 0 m _ a fun v => ?_
    simp only [Bool.or_eq_false_iff, decide_eq_false_iff_not]
    omega
  · next h => exact readByte_zeroRange_out m lo hi a (by omega)

namespace State

variable {s : State}

/-! ### A TDI unlocked (06 R174, R186) -/

theorem tdiUnlock_rest (p : Nat) : s.tdiUnlock p = { s with sec := (s.tdiUnlock p).sec } := by
  unfold tdiUnlock
  dsimp only
  split <;> rfl

theorem tdiUnlock_tdi (p : Nat) : (s.tdiUnlock p).tdi p = {} := by
  unfold tdiUnlock
  exact setTdi_tdi_same ..

/-- A stream that is bound to a TDI, or whose keys are destroyed. -/
def severed (s : State) (k : Nat) : Prop := (tget {} s.sec.ide k).vf ≠ none ∨ (tget {} s.sec.ide k).keys = []

theorem severed_of_fixed {t : State} {k : Nat} (h : t.fixed = s.fixed) (hs : s.severed k) : t.severed k := by
  have hide : t.sec.ide = s.sec.ide := congrArg (·.2.2) h
  unfold severed
  rwa [hide]

theorem dropStream_ide (j k : Nat) : (tget {} (s.dropStream j).sec.ide k).vf = (tget {} s.sec.ide k).vf ∧
    (k = j ∨ (tget {} s.sec.ide k).keys = [] → (tget {} (s.dropStream j).sec.ide k).keys = []) := by
  by_cases h : k = j
  · subst h
    simp [dropStream]
  · simp [dropStream, h, tget_tmod_ne _ _ _ _ _ h]

theorem dropStream_severed {k : Nat} (j : Nat) (h : s.severed k) : (s.dropStream j).severed k := by
  obtain ⟨hvf, hkeys⟩ := s.dropStream_ide j k
  exact h.imp (hvf ▸ ·) (hkeys ∘ .inr)

theorem tdiUnlock_unbound {p : Nat} (h : (s.tdi p).stream = none) : (s.tdiUnlock p).sec.ide = s.sec.ide := by
  unfold tdiUnlock
  simp only [h]
  rfl

theorem tdiUnlock_bound {p j : Nat} (h : (s.tdi p).stream = some j) :
    (s.tdiUnlock p).sec.ide = tmod {} (s.dropStream j).sec.ide j (fun x => { x with vf := none }) := by
  unfold tdiUnlock
  simp only [h]
  rfl

/-- A stream that is unbound with its TDI's unlock loses its keys. -/
theorem tdiUnlock_severed {p k : Nat} (h : s.severed k) : (s.tdiUnlock p).severed k := by
  unfold severed
  cases hstream : (s.tdi p).stream with
  | none => rwa [tdiUnlock_unbound hstream]
  | some j =>
    rw [tdiUnlock_bound hstream]
    by_cases hk : k = j
    · subst hk
      rw [tget_tmod_same]
      exact .inr ((s.dropStream_ide k k).2 (.inl rfl))
    · rw [tget_tmod_ne _ _ _ _ _ hk]
      exact dropStream_severed j h

/-! ### A VF's reset (03 R76; 05 R171) -/

/-- The frames of a paddock zeroed. -/
def zeroPaddock (s : State) (p : Nat) : State := s.zeroFrames (s.quota p).frameBase (s.quota p).frameCount

theorem vfFlr_empty {p : Nat} (h : (s.pdk p).st = .empty) :
    s.vfFlr p = (((s.abandonLoad (p + 1)).zeroPaddock p).tdiUnlock p).modFn (p + 1) (fun _ => {}) := by
  have h' : ((s.abandonLoad (p + 1)).pdk p).st = .empty := (abandonLoad_st ..).trans h
  unfold vfFlr
  dsimp only
  rw [if_pos h']
  rfl

theorem vfFlr_loaded {p : Nat} (h : (s.pdk p).st ≠ .empty) :
    s.vfFlr p = ((s.abandonLoad (p + 1)).beginTeardown p true).modFn (p + 1) (fun _ => {}) := by
  have h' : ((s.abandonLoad (p + 1)).pdk p).st ≠ .empty := (abandonLoad_st ..).symm ▸ h
  unfold vfFlr
  dsimp only
  rw [if_neg h']

/-- The function is as after reset (log 63). -/
theorem vfFlr_fnCfg (p : Nat) : (s.vfFlr p).fnCfg (p + 1) = {} := fnCfg_modFn_same ..

/-- What a VF's reset does to anything that the parts of it leave alone, or do to it. -/
theorem vfFlr_keeps {p : Nat} {P : State → Prop} (hP : P s) (hload : ∀ t, P t → P (t.abandonLoad (p + 1)))
    (hzero : ∀ t, P t → P (t.zeroPaddock p)) (hunlock : ∀ t, P t → P (t.tdiUnlock p)) (hdown : ∀ t, P t → P (t.beginTeardown p true))
    (hfn : ∀ t, P t → P (t.modFn (p + 1) (fun _ => {}))) : P (s.vfFlr p) := by
  by_cases h : (s.pdk p).st = .empty
  · rw [vfFlr_empty h]
    exact hfn _ (hunlock _ (hzero _ (hload _ hP)))
  · rw [vfFlr_loaded h]
    exact hfn _ (hdown _ (hload _ hP))

theorem vfFlr_fnCfg_ne {p fn : Nat} (h₀ : fn ≠ 0) (h : fn ≠ p + 1) : (s.vfFlr p).fnCfg fn = s.fnCfg fn := by
  refine vfFlr_keeps (P := fun t => t.fnCfg fn = s.fnCfg fn) rfl (fun t ht => ?_) (fun t ht => ?_) (fun t ht => ?_) (fun t ht => ?_)
    (fun t ht => ?_)
  · rwa [abandonLoad_fnCfg]
  · exact ht
  · rw [tdiUnlock_rest]
    exact ht
  · rwa [beginTeardown_fnCfg_ne true h₀ h]
  · rwa [fnCfg_modFn_ne _ _ _ _ h]

theorem vfFlr_st_ne {p q : Nat} (h : q ≠ p) : ((s.vfFlr p).pdk q).st = (s.pdk q).st := by
  refine vfFlr_keeps (P := fun t => (t.pdk q).st = (s.pdk q).st) rfl (fun t ht => ?_) (fun t ht => ?_) (fun t ht => ?_) (fun t ht => ?_)
    (fun t ht => ?_)
  · rwa [abandonLoad_st]
  · exact ht
  · rw [tdiUnlock_rest]
    exact ht
  · rwa [beginTeardown_st_ne true h]
  · exact ht

theorem vfFlr_board (p : Nat) : (s.vfFlr p).board = s.board := by
  refine vfFlr_keeps (P := fun t => t.board = s.board) rfl (fun t ht => ?_) (fun t ht => ?_) (fun t ht => ?_) (fun t ht => ?_)
    (fun t ht => ?_)
  · exact (congrArg Prod.fst (abandonLoad_fixed ..)).trans ht
  · exact ht
  · rw [tdiUnlock_rest]
    exact ht
  · exact (congrArg Prod.fst (beginTeardown_fixed ..)).trans ht
  · exact ht

theorem vfFlr_severed {p k : Nat} (h : s.severed k) : (s.vfFlr p).severed k :=
  vfFlr_keeps (P := fun t => t.severed k) h (fun _ => severed_of_fixed (abandonLoad_fixed _)) (fun _ => id) (fun _ => tdiUnlock_severed)
    (fun _ => severed_of_fixed (beginTeardown_fixed ..)) (fun _ => id)

/-- The paddock is in TEARDOWN, where it was not EMPTY. -/
theorem vfFlr_st {p : Nat} (h : (s.pdk p).st ≠ .empty) : ((s.vfFlr p).pdk p).st = .teardown := by
  rw [vfFlr_loaded h]
  exact beginTeardown_st (s := s.abandonLoad (p + 1)) true (by rwa [abandonLoad_st])

/-- A paddock in TEARDOWN stays there at any VF's reset. -/
theorem vfFlr_keeps_teardown (p : Nat) {q : Nat} (h : (s.pdk q).st = .teardown) : ((s.vfFlr p).pdk q).st = .teardown := by
  by_cases hq : q = p
  · subst hq
    exact vfFlr_st (by rw [h]; exact PdkSt.noConfusion)
  · rwa [vfFlr_st_ne hq]

/-- The teardown of a paddock that was not in one is the reset's own, and takes no byte of memory yet. -/
theorem vfFlr_going {p : Nat} (h : (s.pdk p).st ≠ .empty) (h' : (s.pdk p).st ≠ .teardown) :
    (s.vfFlr p).mem = s.mem ∧ ((s.vfFlr p).pdk p).td = some { drained := false, flr := true } := by
  rw [vfFlr_loaded h]
  refine ⟨mem_of_kept ((beginTeardown_kept ..).trans (abandonLoad_kept _)), ?_⟩
  exact (beginTeardown_going_pdk (s := s.abandonLoad (p + 1)) true (by rwa [abandonLoad_st]) (by rwa [abandonLoad_st])).2

/-- An EMPTY paddock's TDI is unlocked and its frames are zeroed. -/
theorem vfFlr_zeroes {p : Nat} (h : (s.pdk p).st = .empty) : (s.vfFlr p).tdi p = {} ∧ ∀ a, readByte (s.vfFlr p).mem a =
    if (s.quota p).frameBase * frameSize ≤ a ∧ a < ((s.quota p).frameBase + (s.quota p).frameCount) * frameSize then 0
    else readByte s.mem a := by
  obtain ⟨r, l, ps, hload, -⟩ := s.abandonLoad_rest (p + 1)
  rw [vfFlr_empty h]
  refine ⟨tdiUnlock_tdi p, fun a => ?_⟩
  rw [tdiUnlock_rest, hload]
  exact readByte_zeroRange s.mem _ _ a

/-! ### Every VF's reset (03 R88) -/

theorem foldl_vfFlr {q : Nat} (hq : q < 64) : (allPdks.foldl vfFlr s).fnCfg (q + 1) = {} ∧
    ((s.pdk q).st ≠ .empty → ((allPdks.foldl vfFlr s).pdk q).st = .teardown) := by
  have hmem : q ∈ allPdks := List.mem_range.mpr hq
  constructor
  · refine foldl_establishes (P := fun t : State => t.fnCfg (q + 1) = {}) (fun t p ht => ?_) (fun t => vfFlr_fnCfg q) hmem s
    by_cases h : q = p
    · exact h ▸ vfFlr_fnCfg q
    · rwa [vfFlr_fnCfg_ne (by omega) (by omega)]
  · exact fun hst => foldl_reaches (P := fun t : State => (t.pdk q).st = .teardown) (Q := fun t : State => (t.pdk q).st ≠ .empty)
      (fun t p hp ht => (vfFlr_st_ne (Ne.symm hp)).symm ▸ ht) (fun t p ht => vfFlr_keeps_teardown p ht) (fun t ht => vfFlr_st ht) hmem hst

/-! ### PF0's reset (03 R76, R83) -/

/-- The streams that are bound to a TDI. -/
def boundStreams (s : State) : List Nat := (s.sec.ide.filter (fun e => e.2.vf.isSome)).map (·.1)

theorem mem_boundStreams {k : Nat} (h : (tget {} s.sec.ide k).vf ≠ none) : k ∈ s.boundStreams := by
  rcases tget_default_or_mem ({} : IdeStream) s.sec.ide k with hd | hmem
  · exact absurd (congrArg IdeStream.vf hd) h
  · exact List.mem_map.mpr ⟨_, List.mem_filter.mpr ⟨hmem, Option.isSome_iff_ne_none.mpr h⟩, rfl⟩

/-- The keys of every stream that is bound to a TDI are destroyed. -/
def unkeyed (s : State) : State := s.boundStreams.foldl dropStream s

theorem unkeyed_pdk (q : Nat) : s.unkeyed.pdk q = s.pdk q :=
  foldl_proj (s := s) (f := dropStream) (pdk · q) (fun _ _ => rfl) s.boundStreams

theorem unkeyed_board : s.unkeyed.board = s.board := foldl_proj (s := s) (f := dropStream) board (fun _ _ => rfl) s.boundStreams

theorem unkeyed_keys {k : Nat} (h : s.severed k) : (tget {} s.unkeyed.sec.ide k).keys = [] := by
  rcases h with hvf | hkeys
  · exact foldl_establishes (P := fun t : State => (tget {} t.sec.ide k).keys = []) (fun t j ht => (t.dropStream_ide j k).2 (.inr ht))
      (fun t => (t.dropStream_ide k k).2 (.inl rfl)) (mem_boundStreams hvf) s
  · exact List.foldlRecOn (motive := fun t : State => (tget {} t.sec.ide k).keys = []) _ _ hkeys
      fun t ht j _ => (t.dropStream_ide j k).2 (.inr ht)

/-- The functions' configuration as after reset, and the reset of PF0 under way. -/
def functionsReset (s : State) : State :=
  { s with
    hif := { s.hif with vfEnable := false, numVfs := 0, mps := 0, mrrs := 2, repCor := false, repNonfatal := false, repFatal := false,
                        repUr := false, fns := [] }
    dev := { s.dev with flr0 := true } }

/-- The state after the load and the VFs of a PF0 reset. -/
def vfsReset (s : State) : State := allPdks.foldl vfFlr (s.abandonLoad 0)

theorem pf0Flr_eq (ho : s.dev.phase ≠ .off) (hc : s.dev.conv = none) : s.pf0Flr = s.vfsReset.unkeyed.functionsReset := by
  unfold pf0Flr vfsReset
  rw [if_neg (by simp [ho, hc])]
  dsimp only
  generalize allPdks.foldl vfFlr (s.abandonLoad 0) = u
  rfl

theorem vfsReset_st {q : Nat} (hq : q < 64) (h : (s.pdk q).st ≠ .empty) : (s.vfsReset.pdk q).st = .teardown :=
  (foldl_vfFlr (s := s.abandonLoad 0) hq).2 (by rwa [abandonLoad_st])

theorem vfsReset_board : s.vfsReset.board = s.board :=
  (foldl_proj (s := s.abandonLoad 0) (f := vfFlr) board (fun _ p => vfFlr_board p) allPdks).trans (congrArg Prod.fst (abandonLoad_fixed 0))

theorem vfsReset_severed {k : Nat} (h : (tget {} s.sec.ide k).vf ≠ none) : s.vfsReset.severed k :=
  List.foldlRecOn (motive := fun t : State => t.severed k) allPdks vfFlr (severed_of_fixed (abandonLoad_fixed 0) (.inl h))
    fun _ ht _ _ => vfFlr_severed ht

/-! ### The end of PF0's reset -/

/-- The paddocks' records and the owner tables: what a scrub leaves alone. -/
def tenancy (s : State) : List (Nat × Pdk) × List OwnRange := (s.pdks, s.own)

@[simp] theorem modCore_tenancy (n : Nat) (f : Core → Core) : (s.modCore n f).tenancy = s.tenancy := rfl

@[simp] theorem logRec_tenancy (kind index status severity event paddock : Nat) (detail : List Nat) :
    (s.logRec kind index status severity event paddock detail).tenancy = s.tenancy :=
  (congrArg tenancy (logRec_calm s kind index status severity event paddock detail) :)

@[simp] theorem retireRow_tenancy (n r : Nat) : (s.retireRow n r).tenancy = s.tenancy := by
  unfold retireRow
  dsimp only
  split <;> rfl

theorem scrubCore_tenancy (n : Nat) : (s.scrubCore n).tenancy = s.tenancy := by
  refine foldl_proj (s := s) tenancy (fun t r => ?_) _
  dsimp only
  repeat' split
  all_goals simp

theorem scrubBay_tenancy (b : Nat) : (s.scrubBay b).tenancy = s.tenancy := by
  have h : ((coresOf b).foldl scrubCore s).tenancy = s.tenancy := foldl_proj tenancy (fun t n => scrubCore_tenancy n) _
  unfold scrubBay
  generalize (coresOf b).foldl scrubCore s = u at h ⊢
  exact h

theorem scrubAll_tenancy : s.scrubAll.tenancy = s.tenancy := foldl_proj tenancy (fun _ b => scrubBay_tenancy b) _

theorem resetPatrol_tenancy (b : Nat) : (s.resetPatrol b).tenancy = s.tenancy := foldl_proj tenancy (fun _ n => modCore_tenancy n _) _

theorem resetPatrol_board (b : Nat) : (s.resetPatrol b).board = s.board := foldl_proj board (fun _ n => modCore_board n _) _

theorem repairRow_tenancy (noRes : List Nat) (row : Nat) : (repairRow noRes s row).tenancy = s.tenancy := by
  unfold repairRow
  dsimp only
  split <;> exact logRec_tenancy ..

theorem repairRow_board (noRes : List Nat) (row : Nat) : (repairRow noRes s row).board = s.board := by
  unfold repairRow
  dsimp only
  split <;> exact logRec_board ..

theorem initMemory_tenancy (noRes : List Nat) : (s.initMemory noRes).tenancy = s.tenancy := by
  unfold initMemory
  rw [foldl_proj tenancy (fun t b => resetPatrol_tenancy b), scrubAll_tenancy]
  exact foldl_proj (s := s) tenancy (fun _ row => repairRow_tenancy noRes row) _

theorem initMemory_board (noRes : List Nat) : (s.initMemory noRes).board = s.board := by
  unfold initMemory
  rw [foldl_proj board (fun t b => resetPatrol_board b), scrubAll_board]
  exact foldl_proj (s := s) board (fun _ row => repairRow_board noRes row) _

/-- The device in INIT with its rails as a ramp leaves them. -/
def railed (s : State) : State :=
  ({ s with dev := { s.dev with phase := .init, removal := .none, computeRails := true, memRails := true } } : State).rampRails

/-- The image and package memory gone at the end of PF0's reset (03 R83). -/
def discarded (s : State) : State :=
  { s with
    dev := { s.dev with flr0 := false }, plat := none, yard := {}, saves := [], fab := {}, ras := { s.ras with poison := [] }
    ldr := { s.ldr with regs := tdel s.ldr.regs 0 }, mem := [], mcs := s.closeFetches 0 memTop }

/-- A STANDBY that was requested, with no transition under way (03 R73). -/
def inRequested (s : State) : Prop := s.dev.phase = .standby ∧ s.dev.standbyKind = .requested ∧ s.dev.trans = .none

/-- A paddock that is not EMPTY is among the busy ones. -/
theorem mem_pdksWhere {q : Nat} (hq : q < 64) (hst : (s.pdk q).st ≠ .empty) : q ∈ s.pdksWhere (fun d => d.st ≠ .empty) :=
  List.mem_filter.mpr ⟨List.mem_range.mpr hq, decide_eq_true hst⟩

theorem pdksWhere_busy {q : Nat} (hq : q < 64) (hst : (s.pdk q).st ≠ .empty) : (s.pdksWhere (fun d => d.st ≠ .empty)).isEmpty = false :=
  List.isEmpty_eq_false_iff_exists_mem.mpr ⟨q, mem_pdksWhere hq hst⟩

theorem pdksWhere_nil (h : ∀ q, q < 64 → (s.pdk q).st = .empty) : s.pdksWhere (fun d => d.st ≠ .empty) = [] :=
  List.filter_eq_nil_iff.mpr fun q hq => by simp [h q (List.mem_range.mp hq)]

theorem pf0FlrDone_idle (h : s.dev.flr0 = false ∨ ∃ q, q < 64 ∧ (s.pdk q).st ≠ .empty) : s.pf0FlrDone = s := by
  unfold pf0FlrDone
  refine if_pos ?_
  rw [Bool.or_eq_true]
  rcases h with h | ⟨q, hq, hst⟩
  · exact .inl (by rw [h]; rfl)
  · exact .inr (by rw [pdksWhere_busy hq hst]; rfl)

section
variable (hf : s.dev.flr0 = true) (he : ∀ q, q < 64 → (s.pdk q).st = .empty)
include hf he

theorem pf0Flr_due : ¬(!s.dev.flr0 || !(s.pdksWhere (fun d => d.st ≠ .empty)).isEmpty) = true := by
  rw [hf, pdksWhere_nil he]
  exact Bool.false_ne_true

theorem pf0FlrDone_asked (h : s.inRequested) : s.pf0FlrDone = (s.discarded.initMemory []).railed := by
  obtain ⟨hph, hk, ht⟩ := h
  unfold pf0FlrDone
  rw [if_neg (pf0Flr_due hf he)]
  extract_lets asked dev ldr ras gone ready
  have hready : ready = s.discarded.initMemory [] := congrArg (initMemory · []) (rfl : gone = s.discarded)
  rw [if_pos (by simp [asked, hph, hk, ht])]
  exact congrArg railed hready

theorem pf0FlrDone_unasked (h : ¬s.inRequested) :
    s.pf0FlrDone = { s.discarded with dev := { s.discarded.dev with phase := if s.dev.phase = .ready then .init else s.dev.phase } } := by
  unfold pf0FlrDone
  rw [if_neg (pf0Flr_due hf he)]
  exact if_neg (by simpa [inRequested] using h)

end

/-! ### The obligation's clauses -/

/-- The end of PF0's reset in a STANDBY that was requested (log 68). -/
theorem pf0FlrDone_asked_state (hf : s.dev.flr0 = true) (he : ∀ q, q < 64 → (s.pdk q).st = .empty) (h : s.inRequested) :
    (s.pf0FlrDone.dev.flr0 = false ∧ s.pf0FlrDone.plat = none) ∧ (s.pf0FlrDone.mem = [] ∧ s.pf0FlrDone.yard = {}) ∧
    (s.pf0FlrDone.pdks = s.pdks ∧ s.pf0FlrDone.own = s.own) ∧
    s.pf0FlrDone.dev.phase = .init ∧ s.pf0FlrDone.dev.computeRails = true ∧ s.pf0FlrDone.dev.memRails = true := by
  rw [pf0FlrDone_asked hf he h]
  have hboard := initMemory_board (s := s.discarded) []
  have hstores := initMemory_stores (s := s.discarded) []
  have htenancy := initMemory_tenancy (s := s.discarded) []
  generalize s.discarded.initMemory [] = u at hboard hstores htenancy
  have hstores' : u.mem = [] ∧ u.yard = {} := by
    rw [stores, Prod.mk.injEq, Prod.mk.injEq] at hstores
    exact ⟨hstores.1, hstores.2.1⟩
  exact ⟨⟨(congrArg (fun b : Dev × Option Platform => b.1.flr0) hboard :), (congrArg Prod.snd hboard :)⟩, hstores',
    Prod.mk.injEq .. ▸ htenancy, rfl, rfl, rfl⟩

theorem pf0FlrDone_unasked_state (hf : s.dev.flr0 = true) (he : ∀ q, q < 64 → (s.pdk q).st = .empty) (h : ¬s.inRequested) :
    (s.pf0FlrDone.dev.flr0 = false ∧ s.pf0FlrDone.plat = none) ∧ (s.pf0FlrDone.mem = [] ∧ s.pf0FlrDone.yard = {}) ∧
    (s.pf0FlrDone.pdks = s.pdks ∧ s.pf0FlrDone.own = s.own) ∧
    s.pf0FlrDone.dev.phase = if s.dev.phase = .ready then .init else s.dev.phase := by
  rw [pf0FlrDone_unasked hf he h]
  exact ⟨⟨rfl, rfl⟩, ⟨rfl, rfl⟩, ⟨rfl, rfl⟩, rfl⟩

end State

end Sys2Proof.Machine

namespace Sys2Proof.Proofs

open Sys2Proof Sys2Proof.Machine Sys2Proof.Claims

variable {s : State}

theorem exec_vfFlr {p : PdkId} (h : s.vfOn p = true) : exec (.vfFlr p) s = .next (s.vfFlr p) := congrArg Host.Outcome.next (if_pos h)

theorem vfFlr_resets (p : PdkId) (h : s.vfOn p = true) : Gives (.vfFlr p) s (fun t =>
    (t.fnCfg (p + 1) = {} ∧ ((s.pdk p).st ≠ .empty → (t.pdk p).st = .teardown)) ∧
    ((s.pdk p).st ≠ .empty → (s.pdk p).st ≠ .teardown → t.mem = s.mem ∧ (t.pdk p).td = some { drained := false, flr := true }) ∧
    ((s.pdk p).st = .empty → t.tdi p = {} ∧ ∀ a, readByte t.mem a =
      if (s.quota p).frameBase * 2 ^ 21 ≤ a ∧ a < ((s.quota p).frameBase + (s.quota p).frameCount) * 2 ^ 21 then 0 else readByte s.mem a)) :=
  ⟨_, exec_vfFlr h, ⟨State.vfFlr_fnCfg p, State.vfFlr_st⟩, State.vfFlr_going, State.vfFlr_zeroes⟩

theorem vfEnableClear_resets (h : s.hif.vfEnable = true) : Gives .vfEnableClear s (fun t => t.hif.vfEnable = false ∧
    ∀ q, q < 64 → t.fnCfg (q + 1) = {} ∧ ((s.pdk q).st ≠ .empty → (t.pdk q).st = .teardown)) := by
  refine ⟨_, congrArg Host.Outcome.next (if_pos h), ?_⟩
  have hvf (q : Nat) (hq : q < 64) := State.foldl_vfFlr (s := s) hq
  unfold execVfEnableClear.allPdksVfFlr
  generalize State.allPdks.foldl State.vfFlr s = u at hvf ⊢
  exact ⟨rfl, hvf⟩

theorem pf0Flr_resets (ho : s.dev.phase ≠ .off) (hc : s.dev.conv = none) : Gives .pf0Flr s (fun t => t.dev.flr0 = true ∧
    t.hif.vfEnable = false ∧ t.hif.numVfs = 0 ∧ (∀ fn, t.fnCfg fn = {}) ∧
    (∀ q, q < 64 → (s.pdk q).st ≠ .empty → (t.pdk q).st = .teardown) ∧
    (∀ k, (tget {} s.sec.ide k).vf ≠ none → (tget {} t.sec.ide k).keys = []) ∧ t.dev.phase = s.dev.phase) := by
  have hst (q : Nat) (hq : q < 64) (h : (s.pdk q).st ≠ .empty) : (s.vfsReset.unkeyed.pdk q).st = .teardown :=
    (congrArg Pdk.st (State.unkeyed_pdk q)).trans (State.vfsReset_st hq h)
  have hkeys (k : Nat) (h : (tget {} s.sec.ide k).vf ≠ none) := State.unkeyed_keys (State.vfsReset_severed h)
  have hboard := (State.unkeyed_board (s := s.vfsReset)).trans State.vfsReset_board
  refine ⟨_, congrArg Host.Outcome.next (State.pf0Flr_eq ho hc), ?_⟩
  generalize s.vfsReset.unkeyed = u at hst hkeys hboard ⊢
  exact ⟨rfl, rfl, rfl, fun _ => rfl, hst, hkeys, (congrArg (fun b : Dev × Option Platform => b.1.phase) hboard :)⟩

theorem pf0FlrComplete_ends (hf : s.dev.flr0 = true) (he : ∀ q, q < 64 → (s.pdk q).st = .empty) : Gives .pf0FlrComplete s (fun t =>
    t.dev.flr0 = false ∧ t.plat = none ∧ t.mem = [] ∧ t.own = s.own ∧ t.yard = {} ∧ t.pdks = s.pdks ∧
    (s.inRequested → t.dev.phase = .init ∧ t.dev.computeRails = true ∧ t.dev.memRails = true) ∧
    (¬s.inRequested → t.dev.phase = (if s.dev.phase = .ready then .init else s.dev.phase))) := by
  refine ⟨_, rfl, ?_⟩
  by_cases h : s.inRequested
  · obtain ⟨⟨hflr, hplat⟩, ⟨hmem, hyard⟩, ⟨hpdks, hown⟩, hdev⟩ := State.pf0FlrDone_asked_state hf he h
    exact ⟨hflr, hplat, hmem, hown, hyard, hpdks, fun _ => hdev, fun h' => absurd h h'⟩
  · obtain ⟨⟨hflr, hplat⟩, ⟨hmem, hyard⟩, ⟨hpdks, hown⟩, hphase⟩ := State.pf0FlrDone_unasked_state hf he h
    exact ⟨hflr, hplat, hmem, hown, hyard, hpdks, fun h' => absurd h' h, fun _ => hphase⟩

/-- Settles O37: a VF's reset by what becomes of its paddock, those of every VF by the fold over the 64 paddocks, PF0's by the fold and then by
the state in which it ends. -/
theorem functionResets : Obligations.FunctionResets := by
  unfold Obligations.FunctionResets
  intro s p
  refine ⟨fun h => ?_, fun h => ?_, vfFlr_resets p, vfEnableClear_resets, pf0Flr_resets, pf0FlrComplete_ends, fun h => ?_⟩
  · exact congrArg Host.Outcome.next (if_neg (by rw [h]; exact Bool.false_ne_true))
  · exact congrArg Host.Outcome.next (if_neg (by rw [h]; exact Bool.false_ne_true))
  · exact congrArg Host.Outcome.next (State.pf0FlrDone_idle h)

end Sys2Proof.Proofs
end

section
/-! STANDBY on request and back (03 R73-R75; 02 R64), and the power of single bays (06 R198, R201). -/

namespace Sys2Proof.Machine

namespace State

variable {s : State}

/-! ### What the board says -/

/-- States of one board have one device but for its event bits. -/
theorem dev_of_board {t : State} (h : t.board = s.board) : ∃ e, t.dev = { s.dev with pwrEvent := e } :=
  ⟨t.dev.pwrEvent, (congrArg (fun b : Dev × Option Platform => { b.1 with pwrEvent := t.dev.pwrEvent }) h :)⟩

theorem plat_of_board {t : State} (h : t.board = s.board) : t.plat = s.plat := (congrArg Prod.snd h :)

@[simp] theorem resumeFor_board (p : Nat) (f : Susp → Susp) : (s.resumeFor p f).board = s.board := by
  have hfetch (t : State) : (t.fetchAll p).board = t.board := (congrArg board (fetchAll_unrung p) :)
  unfold resumeFor
  dsimp only
  repeat' split
  all_goals simp [hfetch]

/-! ### A request (03 R73, R75) -/

theorem standbyRequest_unheard (force : Bool) (h : s.dev.trans ≠ .none) : s.standbyRequest force = s := if_pos (by simp [h])

section
variable (ht : s.dev.trans = .none) (hp : s.dev.phase = .init ∨ s.dev.phase = .ready)
include ht hp

/-- A request that is heard is refused where some paddock is busy and it does not force, and begins the transition otherwise. -/
theorem standbyRequest_heard (force : Bool) : s.standbyRequest force =
    if !force && !(s.pdksWhere (fun d => d.st ≠ .empty)).isEmpty then { s with dev := { s.dev with pwrRefused := true } }
    else (s.pdksWhere (fun d => d.st ≠ .empty)).foldl (fun s p => s.beginTeardown p false)
      { s with dev := { s.dev with pwrRefused := false, trans := .toStandby } } :=
  if_neg (by rcases hp with hp | hp <;> simp [ht, hp])

theorem standbyRequest_refused (h : ∃ p, p < 64 ∧ (s.pdk p).st ≠ .empty) :
    s.standbyRequest false = { s with dev := { s.dev with pwrRefused := true } } := by
  obtain ⟨p, hp64, hst⟩ := h
  rw [standbyRequest_heard ht hp, pdksWhere_busy hp64 hst]
  rfl

theorem standbyRequest_idle (force : Bool) (h : ∀ p, p < 64 → (s.pdk p).st = .empty) :
    s.standbyRequest force = { s with dev := { s.dev with pwrRefused := false, trans := .toStandby } } := by
  rw [standbyRequest_heard ht hp, pdksWhere_nil h, List.isEmpty_nil, Bool.not_true, Bool.and_false]
  rfl

/-- A forced request tears down every paddock that is not EMPTY. -/
theorem standbyRequest_forced : ((s.standbyRequest true).dev.trans = .toStandby ∧ (s.standbyRequest true).dev.pwrRefused = false) ∧
    ∀ p, p < 64 → (s.pdk p).st ≠ .empty → ((s.standbyRequest true).pdk p).st = .teardown := by
  rw [standbyRequest_heard ht hp, if_neg (by simp)]
  constructor
  · obtain ⟨e, he⟩ := dev_of_board (foldl_proj board (fun t p => congrArg Prod.fst (beginTeardown_fixed (s := t) p false))
      (s := { s with dev := { s.dev with pwrRefused := false, trans := .toStandby } }) (s.pdksWhere (fun d => d.st ≠ .empty)))
    rw [he]
    exact ⟨rfl, rfl⟩
  · intro p hp64 hst
    refine foldl_reaches (P := fun t : State => (t.pdk p).st = .teardown) (Q := fun t : State => (t.pdk p).st ≠ .empty)
      (f := fun t q => t.beginTeardown q false) (fun t q hq h => ?_) (fun t q h => ?_) (fun t h => beginTeardown_st false h)
      (mem_pdksWhere hp64 hst) hst
    · rwa [beginTeardown_st_ne false (Ne.symm hq)]
    · by_cases hq : p = q
      · subst hq
        exact beginTeardown_st false (by rw [h]; exact PdkSt.noConfusion)
      · rwa [beginTeardown_st_ne false hq]

end

/-! ### The STANDBY entered (03 R74) -/

theorem standbyDone_unheard (h : ∃ p, p < 64 ∧ (s.pdk p).st ≠ .empty) : s.standbyDone = s := by
  obtain ⟨p, hp, hst⟩ := h
  exact if_pos (by rw [pdksWhere_busy hp hst]; simp)

/-- The device in a STANDBY that was requested, without its rails and its image. -/
def standbyEntered (s : State) : State :=
  { s.modLoad 0 (fun r => { r with meas := 0 }) with
    dev := { s.dev with
      phase := .standby, standbyKind := .requested, removal := .standby, trans := .none, computeRails := false, memRails := false, railMv := []
      beatMon := [], baseRailMv := 720, capLimiting := false, subfloor := false }
    plat := none, saves := [], fab := {} }

theorem standbyDone_eq (ht : s.dev.trans = .toStandby) (h : ∀ p, p < 64 → (s.pdk p).st = .empty) :
    s.standbyDone = (s.abandonLoad 0).scrubAll.dropSessions.standbyEntered.pwrEv 5 := by
  unfold standbyDone
  rw [if_neg (by rw [pdksWhere_nil h]; simp [ht])]
  generalize (s.abandonLoad 0).scrubAll.dropSessions = u
  rfl

theorem scrubAll_own : s.scrubAll.own = s.own := by
  have h := scrubAll_tenancy (s := s)
  generalize s.scrubAll = u at h ⊢
  exact (congrArg Prod.snd h :)

theorem dropSessions_own : s.dropSessions.own = s.own := by
  have htdi : (allPdks.foldl tdiError s).own = s.own :=
    foldl_proj own (fun t p => (congrArg (·.2.1) (tdiError_fixed (s := t) p) :)) _
  unfold dropSessions
  generalize allPdks.foldl tdiError s = u at htdi ⊢
  exact (foldl_proj (s := u) (f := dropStream) own (fun _ _ => rfl) (s.sec.ide.map (·.1))).trans htdi

theorem dropSessions_sessions : s.dropSessions.sec.doe = [] ∧ s.dropSessions.sec.mctp = [] := by
  unfold dropSessions
  generalize (s.sec.ide.map (·.1)).foldl dropStream (allPdks.foldl tdiError s) = u
  exact ⟨rfl, rfl⟩

/-! ### Power-up (02 R64, 03 R74) -/

/-- The return from a tripped STANDBY: the rails are back, and the device is READY where it has its image. -/
def tripReturned (s : State) : State :=
  ({ s with dev := { s.dev with computeRails := true, tripped := false, trans := .none
                                phase := if s.plat.isSome then .ready else .init } } : State).rampRails

theorem tripDone_eq (h : s.dev.trans = .fromTrip) : s.tripDone =
    allPdks.foldl (fun s p => s.resumeFor p (fun u => { u with trip := false }))
      (((List.range 16).foldl resetPatrol s.scrubAll).tripReturned.pwrEv 5) := by
  unfold tripDone
  rw [if_neg (not_not_intro h)]
  rfl

theorem tripDone_board (h : s.dev.trans = .fromTrip) : ∃ u : State, u.plat = s.plat ∧ s.tripDone.board = u.tripReturned.board := by
  have hscrub : ((List.range 16).foldl resetPatrol s.scrubAll).board = s.board :=
    (foldl_proj board (fun t b => resetPatrol_board b) _).trans scrubAll_board
  rw [tripDone_eq h]
  generalize (List.range 16).foldl resetPatrol s.scrubAll = u at hscrub ⊢
  exact ⟨u, plat_of_board hscrub, (foldl_proj board (fun _ p => resumeFor_board p _) _).trans (pwrEv_board 5)⟩

end State

end Sys2Proof.Machine

namespace Sys2Proof.Proofs

open Sys2Proof Sys2Proof.Machine Sys2Proof.Claims

variable {s : State}

theorem standbyTransitionDone_enters (ht : s.dev.trans = .toStandby) (h : ∀ p, p < 64 → (s.pdk p).st = .empty) :
    Gives .standbyTransitionDone s (fun t => t.dev.phase = .standby ∧ t.dev.standbyKind = .requested ∧ t.dev.trans = .none ∧
      t.dev.computeRails = false ∧ t.dev.memRails = false ∧ t.dev.baseRailMv = 720 ∧ t.dev.removal = .standby ∧ t.plat = none ∧
      t.own = s.own ∧ t.sec.doe = [] ∧ t.sec.mctp = []) := by
  have hown : (s.abandonLoad 0).scrubAll.dropSessions.own = s.own := by
    rw [State.dropSessions_own, State.scrubAll_own]
    exact (congrArg (·.2.1) (State.abandonLoad_fixed (s := s) 0) :)
  have hsec := State.dropSessions_sessions (s := (s.abandonLoad 0).scrubAll)
  refine ⟨_, congrArg Host.Outcome.next (State.standbyDone_eq ht h), ?_⟩
  generalize (s.abandonLoad 0).scrubAll.dropSessions = u at hown hsec ⊢
  obtain ⟨e, he⟩ := State.dev_of_board (State.pwrEv_board (s := u.standbyEntered) 5)
  have hev : (u.standbyEntered.pwrEv 5).sec = u.sec ∧ (u.standbyEntered.pwrEv 5).own = u.own :=
    ⟨(congrArg State.sec (State.pwrEv_calm u.standbyEntered 5) :), (congrArg State.own (State.pwrEv_calm u.standbyEntered 5) :)⟩
  rw [he, hev.1, hev.2]
  exact ⟨rfl, rfl, rfl, rfl, rfl, rfl, rfl, State.plat_of_board (State.pwrEv_board 5), hown, hsec⟩

theorem powerUpAfterTripDone_returns (h : s.dev.trans = .fromTrip) : Gives .powerUpAfterTripDone s (fun t => t.dev.computeRails = true ∧
    t.dev.tripped = false ∧ (∀ d, d < 4 → 720 ≤ t.rail d ∧ t.rail d ≤ 840) ∧ t.dev.trans = .none ∧
    t.dev.phase = (if s.plat = none then .init else .ready) ∧ t.mem = s.mem ∧ t.plat = s.plat) := by
  obtain ⟨u, hu, hboard⟩ := State.tripDone_board h
  obtain ⟨e, he⟩ := State.dev_of_board hboard
  have hmem : s.tripDone.mem = s.mem := State.mem_of_kept (State.tripDone_kept ..)
  have hrail (d : Nat) : s.tripDone.rail d = u.tripReturned.rail d := (congrArg (fun v : Dev => tget 0 v.railMv d) he :)
  have hphase : u.tripReturned.dev.phase = if s.plat = none then .init else .ready := by
    rw [← hu]
    cases hpl : u.plat <;> simp [State.tripReturned, State.rampRails, State.settleBase, hpl]
  refine ⟨s.tripDone, rfl, ?_, ?_, fun d hd => ?_, ?_, ?_, hmem, (State.plat_of_board hboard).trans hu⟩
  · rw [he]
    rfl
  · rw [he]
    rfl
  · rw [hrail]
    exact State.rampRails_rail hd
  · rw [he]
    rfl
  · rw [he]
    exact hphase

section
variable (hp : s.dev.phase = .standby) (ht : s.dev.trans = .none)
include hp ht

theorem exec_powerUp_requested (hk : s.dev.standbyKind = .requested) : exec .powerUp s = .next { s with dev := { s.dev with
    pwrRefused := false, ramp := true, removal := .none, trans := .fromStandby } } := by
  refine congrArg Host.Outcome.next ?_
  unfold State.powerUp
  rw [if_neg (by simp [hp, ht]), hk]

theorem exec_powerUp_cool (hk : s.dev.standbyKind = .tripped) (hc : ∀ e ∈ s.dev.tj, e.2 ≤ 85) :
    exec .powerUp s = .next { s with dev := { s.dev with pwrRefused := false, trans := .fromTrip } } := by
  refine congrArg Host.Outcome.next ?_
  unfold State.powerUp
  rw [if_neg (by simp [hp, ht]), hk]
  exact if_pos (List.all_eq_true.mpr fun e he => decide_eq_true (hc e he))

theorem exec_powerUp_hot (hk : s.dev.standbyKind = .tripped) (hh : ∃ e ∈ s.dev.tj, 85 < e.2) :
    exec .powerUp s = .next { s with dev := { s.dev with pwrRefused := true } } := by
  obtain ⟨e, he, hot⟩ := hh
  refine congrArg Host.Outcome.next ?_
  unfold State.powerUp
  rw [if_neg (by simp [hp, ht]), hk]
  refine if_neg fun hall => ?_
  have := of_decide_eq_true (List.all_eq_true.mp hall e he)
  omega

theorem exec_powerUp_reset (hk : s.dev.standbyKind = .reset) : exec .powerUp s = .next s := by
  refine congrArg Host.Outcome.next ?_
  unfold State.powerUp
  rw [if_neg (by simp [hp, ht]), hk]

end

end Sys2Proof.Proofs

namespace Sys2Proof.Machine

/-- An idle bay that is on its way off, as step 1 of R198 leaves it. -/
def Bay.goingOff (x : Bay) : Bay :=
  { x with pendOff := true, unit_ := .draining, stopping := some .powerDown, stopped := true, next := none, prepared := false }

/-- A bay that is powered, without a job and without a test. -/
structure Bay.Idle (x : Bay) : Prop where
  powered : x.powered = true
  pendOff : x.pendOff = false
  test : x.test = none
  job : x.job = none

/-- A bay that has no job and whose power goes. -/
structure Bay.GoingOff (x : Bay) : Prop where
  powered : x.powered = true
  pendOff : x.pendOff = true
  unit_ : x.unit_ = .draining
  stopping : x.stopping = some .powerDown
  stopped : x.stopped = true
  job : x.job = none

namespace State

variable {s : State}

/-! ### What an event, a unit's state and a stop do to a bay -/

@[simp] theorem pwrEv_bay (n c : Nat) : (s.pwrEv n).bay c = s.bay c := (congrArg (fun u : State => u.bay c) (pwrEv_calm s n) :)
@[simp] theorem pwrEv_core (n c : Nat) : (s.pwrEv n).core c = s.core c := (congrArg (fun u : State => u.core c) (pwrEv_calm s n) :)
@[simp] theorem rasEv_bay (n c : Nat) : (s.rasEv n).bay c = s.bay c := (congrArg (fun u : State => u.bay c) (rasEv_calm s n) :)
@[simp] theorem rasEv_core (n c : Nat) : (s.rasEv n).core c = s.core c := (congrArg (fun u : State => u.core c) (rasEv_calm s n) :)

theorem setUnitBoth_bay (b : BayId) (st : UnitSt) :
    (s.setUnitBoth (.bay b) st).bay b = { s.bay b with unit_ := st } := by
  change (s.setUnit (.bay b) st).bay b = _
  unfold setUnit
  split
  · next h => rw [← h]; rfl
  · rw [rasEv_bay, bay_modBay_same]

theorem setUnitBoth_bay_ne {b : BayId} {c : Nat} (st : UnitSt) (h : c ≠ b) : (s.setUnitBoth (.bay b) st).bay c = s.bay c := by
  change (s.setUnit (.bay b) st).bay c = _
  unfold setUnit
  split
  · rfl
  · rw [rasEv_bay, bay_modBay_ne _ _ _ _ h]

theorem setUnitBoth_bay_core (b : BayId) (st : UnitSt) (n : Nat) : (s.setUnitBoth (.bay b) st).core n = s.core n := by
  change (s.setUnit (.bay b) st).core n = _
  unfold setUnit
  split
  · rfl
  · rw [rasEv_core]
    rfl

/-- A power-down stands over every other reason for a stop. -/
theorem joinWhy_powerDown (old : Option StopWhy) : joinWhy old .powerDown = .powerDown := by
  cases old <;> rfl

/-- A bay without a job is stopped at once. -/
theorem stopBay_bay_idle {b : Nat} (why : StopWhy) (h : (s.bay b).job = none) : (s.stopBay b why).bay b =
    { s.bay b with stopping := some (joinWhy (s.bay b).stopping why), stopped := true, next := none, prepared := false } := by
  unfold stopBay
  rw [h]
  exact bay_modBay_same ..

/-- A stop of another bay does not reach a bay without a job. -/
theorem stopBay_bay_ne {b c : Nat} (why : StopWhy) (hc : c ≠ b) (h : (s.bay c).job = none) : (s.stopBay b why).bay c = s.bay c := by
  unfold stopBay
  split
  · exact bay_modBay_ne _ _ _ _ hc
  · refine List.foldlRecOn (motive := fun t : State => t.bay c = s.bay c) _ _ rfl fun t ht d _ => ?_
    split
    · next hd =>
      have hcd : c ≠ d := by
        rintro rfl
        rw [ht, h] at hd
        exact absurd hd (Option.some_ne_none _).symm
      rwa [bay_modBay_ne _ _ _ _ hcd]
    · exact ht

/-! ### A power-down (06 R198) -/

/-- Step 1 of R198 for an idle bay. -/
theorem bayOff_idle (b : BayId) (h : (s.bay b).Idle) : (s.bayOff b).bay b = (s.bay b).goingOff := by
  obtain ⟨hpow, hoff, htest, hjob⟩ := h
  unfold bayOff
  rw [if_neg (by simp [hpow, hoff])]
  extract_lets s₁
  have h₁ : s₁.bay b = { s.bay b with pendOff := true } := bay_modBay_same ..
  clear_value s₁
  have hunit : (s₁.setUnitBoth (.bay (Fin.ofNat 16 b)) .draining).bay b = { s.bay b with pendOff := true, unit_ := .draining } := by
    rw [Fin.ofNat_val_eq_self, setUnitBoth_bay, h₁]
  rw [if_neg (by simp [h₁, htest]), stopBay_bay_idle _ (by rw [hunit]; exact hjob), hunit, joinWhy_powerDown, Bay.goingOff]

/-- Step 1 of R198 for another bay leaves a bay without a job as it is, but for its unit's state. -/
theorem bayOff_bay_ne {b c : Nat} (hc : c ≠ b) (h : (s.bay c).job = none) :
    (s.bayOff b).bay c = s.bay c ∨ (s.bayOff b).bay c = { s.bay c with unit_ := .draining } := by
  unfold bayOff
  split
  · exact .inl rfl
  extract_lets s₁
  have h₁ : s₁.bay c = s.bay c := bay_modBay_ne _ _ _ _ hc
  clear_value s₁
  split
  · exact .inl h₁
  by_cases hunit : c = (Fin.ofNat 16 b).val
  · have hbay : (s₁.setUnitBoth (.bay (Fin.ofNat 16 b)) .draining).bay c = { s.bay c with unit_ := .draining } := by
      rw [← h₁, hunit, setUnitBoth_bay]
    exact .inr ((stopBay_bay_ne _ hc (by rw [hbay]; exact h)).trans hbay)
  · have hbay := (setUnitBoth_bay_ne (s := s₁) .draining hunit).trans h₁
    exact .inl ((stopBay_bay_ne _ hc (by rw [hbay]; exact h)).trans hbay)

/-- A power-down of some bays takes an idle bay among them out of service. -/
theorem bayPowerDown_goingOff {b : BayId} {mask : Nat} (hb : bitAt mask b = true) (hph : s.dev.phase = .ready) (h : (s.bay b).Idle) :
    ((s.bayPowerDown mask).bay b).GoingOff := by
  unfold bayPowerDown
  rw [if_neg (not_not_intro hph)]
  refine foldl_reaches (P := fun t : State => (t.bay b).GoingOff) (Q := fun t : State => (t.bay b).Idle) (f := bayOff) (fun t c hc hi => ?_)
    (fun t c hg => ?_) (fun t hi => ?_) (List.mem_filter.mpr ⟨List.mem_range.mpr b.isLt, hb⟩) h
  · obtain ⟨hpow, hoff, htest, hjob⟩ := hi
    rcases bayOff_bay_ne (Ne.symm hc) hjob with he | he <;> rw [he] <;> exact ⟨hpow, hoff, htest, hjob⟩
  · by_cases hc : b = c
    · have hstay : t.bayOff c = t := if_pos (by rw [← hc, hg.pendOff]; exact Bool.or_true _)
      rwa [hstay]
    · obtain ⟨hpow, hoff, hunit, hwhy, hstop, hjob⟩ := hg
      rcases bayOff_bay_ne hc hjob with he | he <;> rw [he]
      · exact ⟨hpow, hoff, hunit, hwhy, hstop, hjob⟩
      · exact ⟨hpow, hoff, rfl, hwhy, hstop, hjob⟩
  · rw [bayOff_idle b hi]
    exact ⟨hi.powered, rfl, rfl, rfl, rfl, hi.job⟩

theorem bayOffDone_busy {b : Nat} (h : (s.bay b).job ≠ none) : s.bayOffDone b = s :=
  if_pos (by simp [Option.isSome_iff_ne_none.mpr h])

/-- The power of an idle and scrubbed bay goes. -/
theorem bayOffDone_bay {b : BayId} (hoff : (s.bay b).pendOff = true) (hjob : (s.bay b).job = none) (hstop : (s.bay b).stopping = none)
    (hscrub : (s.bay b).scrubbed = true) : (s.bayOffDone b).bay b =
      { s.bay b with powered := false, pendOff := false, next := none, prepared := false, unit_ := .offline } := by
  unfold bayOffDone
  dsimp only
  rw [if_neg (by simp [hoff, hjob, hstop, hscrub]), Fin.ofNat_val_eq_self]
  have hbay := setUnitBoth_bay (s := s.modBay b fun x => { x with powered := false, pendOff := false, next := none, prepared := false })
    b .offline
  rw [bay_modBay_same] at hbay
  split
  · exact hbay
  · rw [pwrEv_bay]
    exact hbay

/-! ### A power-up (06 R201) -/

theorem bayPowerUp_bay {b : BayId} {mask : Nat} (hb : bitAt mask b = true) (h : (s.bay b).powered = false) :
    ((s.bayPowerUp mask).bay b).pendOn = true ∧ ((s.bayPowerUp mask).bay b).powered = false := by
  have hpow (t : State) (c : Nat) (ht : (t.bay b).powered = false) :
      ((t.modBay c (fun x => { x with pendOn := true })).bay b).powered = false := by
    by_cases hc : b.val = c
    · rw [← hc, bay_modBay_same]
      exact ht
    · rwa [bay_modBay_ne _ _ _ _ hc]
  refine foldl_reaches (P := fun t : State => (t.bay b).pendOn = true ∧ (t.bay b).powered = false)
    (Q := fun t : State => (t.bay b).powered = false) (f := fun t c => t.modBay c (fun x => { x with pendOn := true }))
    (fun t c _ ht => hpow t c ht) (fun t c ht => ⟨?_, hpow t c ht.2⟩) (fun t ht => ⟨by rw [bay_modBay_same], hpow t b ht⟩)
    (List.mem_filter.mpr ⟨List.mem_range.mpr b.isLt, by simp [hb, h]⟩) h
  by_cases hc : b.val = c
  · rw [← hc, bay_modBay_same]
  · rw [bay_modBay_ne _ _ _ _ hc]
    exact ht.1

theorem bayPowerUp_bay_unasked {c mask : Nat} (h : bitAt mask c = false) : (s.bayPowerUp mask).bay c = s.bay c := by
  refine List.foldlRecOn (motive := fun t : State => t.bay c = s.bay c) _ _ rfl fun t ht d hd => ?_
  have hmask : bitAt mask d = true := (Bool.and_eq_true_iff.mp (List.mem_filter.mp hd).2).1
  have hcd : c ≠ d := by
    rintro rfl
    exact Bool.false_ne_true (h.symm.trans hmask)
  rwa [bay_modBay_ne _ _ _ _ hcd]

theorem bayPowerUp_out (mask : Nat) : (s.bayPowerUp mask).out = s.out :=
  foldl_proj (s := s) (f := fun t b => t.modBay b (fun x => { x with pendOn := true })) out (fun _ _ => rfl) _

theorem scrubBay_bay (b : Nat) : (s.scrubBay b).bay b = (s.bay b).scrubbedUnits := by
  unfold scrubBay
  extract_lets s₁ s₂
  have h₁ : s₁.bay b = s.bay b := foldl_proj (bay · b) (fun t n => scrubCore_bay n b) _
  clear_value s₁
  change s₂.bay b = _
  rw [← h₁]
  exact bay_modBay_same ..

theorem resetPatrol_bay (b c : Nat) : (s.resetPatrol b).bay c = s.bay c := foldl_proj (bay · c) (fun t n => bay_modCore t n _ c) _

/-- A bay powered, its cores and its shared units scrubbed. -/
def repowered (s : State) (b : Nat) : State := ((s.modBay b (fun x => { x with powered := true, pendOn := false })).scrubBay b).resetPatrol b

theorem repowered_bay (b : Nat) : (s.repowered b).bay b = { s.bay b with powered := true, pendOn := false }.scrubbedUnits := by
  rw [repowered, resetPatrol_bay, scrubBay_bay, bay_modBay_same]

theorem repowered_core {b n : Nat} (h : n / 16 = b) : ((s.repowered b).core n).spad = [] ∧ ((s.repowered b).core n).patrol = [] := by
  subst h
  unfold repowered
  exact ⟨by rw [resetPatrol_spad, scrubBay_spad], resetPatrol_patrol n⟩

theorem bayOnDone_unasked {b : Nat} (h : (s.bay b).pendOn = false) : s.bayOnDone b = s := if_pos (by simp [h])

theorem bayOnDone_eq {b : BayId} (hon : (s.bay b).pendOn = true) (hpow : (s.bay b).powered = false) (hr : s.dev.computeRails = true) :
    s.bayOnDone b = (((s.repowered b).modBay b (fun x => { x with scrubbed := true })).setUnitBoth (.bay b) .online).pwrEv 3 := by
  unfold bayOnDone
  rw [if_neg (by simp [hon, hpow, hr]), Fin.ofNat_val_eq_self]
  rfl

end State

end Sys2Proof.Machine

namespace Sys2Proof.Proofs

open Sys2Proof Sys2Proof.Machine Sys2Proof.Claims

variable {s : State} {b : BayId} {mask : BitVec 16}

theorem bayPowerDown_takes (hb : bitAt mask.toNat b = true) (hph : s.dev.phase = .ready) (h : (s.bay b).Idle) :
    Gives (.bayPowerDown mask) s (fun t => (t.bay b).pendOff = true ∧ (t.bay b).unit_ = .draining ∧
      (t.bay b).stopping = some .powerDown ∧ (t.bay b).stopped = true ∧ (t.bay b).powered = true ∧ t.mem = s.mem) := by
  obtain ⟨hpow, hoff, hunit, hwhy, hstop, -⟩ := State.bayPowerDown_goingOff hb hph h
  exact ⟨_, rfl, hoff, hunit, hwhy, hstop, hpow, State.mem_of_kept (State.bayPowerDown_kept ..)⟩

theorem bayScrubConfirmed_ends (hoff : (s.bay b).pendOff = true) (hjob : (s.bay b).job = none) (hstop : (s.bay b).stopping = none)
    (hscrub : (s.bay b).scrubbed = true) : Gives (.bayScrubConfirmed b) s (fun t => (t.bay b).powered = false ∧ (t.bay b).pendOff = false ∧
      (t.bay b).unit_ = .offline ∧ t.mem = s.mem) := by
  have hmem : (s.bayOffDone b).mem = s.mem := State.mem_of_kept (State.bayOffDone_kept ..)
  refine ⟨s.bayOffDone b, rfl, ?_⟩
  beta_reduce
  rw [State.bayOffDone_bay hoff hjob hstop hscrub, hmem]
  exact ⟨rfl, rfl, rfl, rfl⟩

theorem bayPowerUp_asks (hb : bitAt mask.toNat b = true) (h : (s.bay b).powered = false) :
    Gives (.bayPowerUp mask) s (fun t => (t.bay b).pendOn = true ∧ (t.bay b).powered = false ∧
      (∀ c, c < 16 → bitAt mask.toNat c = false → t.bay c = s.bay c) ∧ t.mem = s.mem ∧ t.out = s.out) := by
  obtain ⟨hon, hpow⟩ := State.bayPowerUp_bay hb h
  exact ⟨_, rfl, hon, hpow, fun c _ => State.bayPowerUp_bay_unasked, State.mem_of_kept (State.bayPowerUp_kept ..), State.bayPowerUp_out _⟩

theorem bayPowerUpComplete_brings (hon : (s.bay b).pendOn = true) (hpow : (s.bay b).powered = false) (hr : s.dev.computeRails = true) :
    Gives (.bayPowerUpComplete b) s (fun t => (t.bay b).powered = true ∧ (t.bay b).pendOn = false ∧ (t.bay b).unit_ = .online ∧
      (t.bay b).scrubbed = true ∧ (∀ n, n / 16 = b.val → (t.core n).spad = [] ∧ (t.core n).patrol = []) ∧ t.mem = s.mem) := by
  have hmem : (s.bayOnDone b).mem = s.mem := State.mem_of_kept (State.bayOnDone_kept ..)
  have hbay : (s.bayOnDone b).bay b =
      { ({ s.bay b with powered := true, pendOn := false } : Bay).scrubbedUnits with scrubbed := true, unit_ := .online } := by
    rw [State.bayOnDone_eq hon hpow hr, State.pwrEv_bay, State.setUnitBoth_bay, State.bay_modBay_same, State.repowered_bay]
  have hcore (n : Nat) : (s.bayOnDone b).core n = (s.repowered b).core n := by
    rw [State.bayOnDone_eq hon hpow hr, State.pwrEv_core, State.setUnitBoth_bay_core, State.core_modBay]
  refine ⟨s.bayOnDone b, rfl, ?_⟩
  beta_reduce
  rw [hbay, hmem]
  refine ⟨rfl, rfl, rfl, rfl, fun n hn => ?_, rfl⟩
  rw [hcore]
  exact State.repowered_core hn

/-- Settles O36: the request by which paddocks are busy, the STANDBY's entry and the return by the state that each is left in, and each bay
command by what it does to its own bay. -/
theorem standbyPowerUpAndBayPower : Obligations.StandbyPowerUpAndBayPower := by
  unfold Obligations.StandbyPowerUpAndBayPower
  constructor
  · intro s force busy
    have hidle (h : ¬busy) (p : Nat) (hp : p < 64) : (s.pdk p).st = .empty := not_not.mp fun hst => h ⟨p, hp, hst⟩
    refine ⟨fun ht hp => ⟨fun h => ?_, fun h => ?_, fun _ => ?_⟩, fun h => ?_, fun ht h => standbyTransitionDone_enters ht (hidle h),
      fun _ h => ?_, fun hp ht => ⟨exec_powerUp_requested hp ht, exec_powerUp_cool hp ht, exec_powerUp_hot hp ht, exec_powerUp_reset hp ht⟩,
      powerUpAfterTripDone_returns⟩
    · exact congrArg Host.Outcome.next (State.standbyRequest_refused ht hp h)
    · exact congrArg Host.Outcome.next (State.standbyRequest_idle ht hp force (hidle h))
    · obtain ⟨⟨htrans, href⟩, hst⟩ := State.standbyRequest_forced ht hp
      exact ⟨_, rfl, htrans, href, hst⟩
    · exact congrArg Host.Outcome.next (State.standbyRequest_unheard force h)
    · exact congrArg Host.Outcome.next (State.standbyDone_unheard h)
  · intro s b mask hb
    refine ⟨fun hph hpow hoff htest hjob => bayPowerDown_takes hb hph ⟨hpow, hoff, htest, hjob⟩, fun h => ?_, bayScrubConfirmed_ends,
      fun h => ?_, bayPowerUp_asks hb, bayPowerUpComplete_brings, fun h => ?_⟩
    · exact congrArg Host.Outcome.next (if_pos h)
    · exact congrArg Host.Outcome.next (State.bayOffDone_busy h)
    · exact congrArg Host.Outcome.next (State.bayOnDone_unasked h)

end Sys2Proof.Proofs
end

section
/-! A load's life (04 R113, R120-R128; 05 R133; 06 R174, R178): queued, taken, checked, and ended by a failure or a commit. -/

namespace Sys2Proof.Machine

/-- A function's loader registers when a GO has been heeded (04 R120). -/
def LoadRegs.asked (r : LoadRegs) : LoadRegs := { r with code := 0, check := 0, done := false, section_ := 0, offset := 0, queued := true }

/-- A function's loader registers when its load has ended (04 R128). -/
def LoadRegs.ended (r : LoadRegs) (code check sec off : Nat) : LoadRegs :=
  { r with code := code, check := check, section_ := sec, offset := off, busy := false, queued := false, done := true }

/-- A paddock at the commit of its image (04 R127): consent, counters and keys start anew, and the frames of the load stay locked. -/
def Pdk.committed (d : Pdk) (img : TenImage) (saveOwned : Bool) : Pdk :=
  { d with img := some img, lock := d.goLock, goLock := none, saveOwned := saveOwned, gen := d.gen + 1, consent := 0, serial := 0, ever := false
           stall := [], beats := 0, held := 0, pfxKey0 := 0, pfxKey1 := 0, spill := 0 }

namespace State

variable {s : State}

/-! ### What messages and changes of a paddock's or a unit's state leave alone -/

/-- The loader, the security state, the device, the platform and the owner tables. -/
def backdrop (s : State) : Ldr × Sec × Dev × Option Platform × List OwnRange := (s.ldr, s.sec, s.dev, s.plat, s.own)

@[simp] theorem modPdk_backdrop (p : Nat) (f : Pdk → Pdk) : (s.modPdk p f).backdrop = s.backdrop := rfl

@[simp] theorem msix_backdrop (fn v : Nat) : (s.msix fn v).backdrop = s.backdrop := by
  unfold msix
  split <;> rfl

@[simp] theorem schEv_backdrop (b p : Nat) : (s.schEv b p).backdrop = s.backdrop := by
  unfold schEv
  dsimp only
  split
  · rfl
  · exact msix_backdrop ..

@[simp] theorem rasEv_backdrop (b : Nat) : (s.rasEv b).backdrop = s.backdrop := by
  unfold rasEv
  split
  · rfl
  · exact msix_backdrop ..

@[simp] theorem pdkEv_backdrop (p b : Nat) : (s.pdkEv p b).backdrop = s.backdrop := by
  unfold pdkEv
  split
  · rfl
  · exact msix_backdrop ..

@[simp] theorem setPdkSt_backdrop (p : Nat) (st : PdkSt) : (s.setPdkSt p st).backdrop = s.backdrop := by
  simp only [setPdkSt]
  repeat' split
  all_goals simp

@[simp] theorem stopBay_backdrop (b : Nat) (why : StopWhy) : (s.stopBay b why).backdrop = s.backdrop := by
  unfold stopBay
  split
  · rfl
  · refine foldl_proj backdrop (fun t c => ?_) _
    split <;> rfl

@[simp] theorem suspendBays_backdrop (p : Nat) (why : StopWhy) : (s.suspendBays p why).backdrop = s.backdrop := by
  rw [suspendBays, foldl_proj backdrop (fun t b => stopBay_backdrop b why), foldl_proj backdrop]
  intro t b
  split <;> rfl

@[simp] theorem suspendFor_backdrop (p : Nat) (f : Susp → Susp) (why : StopWhy) : (s.suspendFor p f why).backdrop = s.backdrop := by
  unfold suspendFor
  dsimp only
  split
  · simp
  · simp
  · split <;> simp
  · rfl

@[simp] theorem setUnitBoth_backdrop (u : UnitId) (st : UnitSt) : (s.setUnitBoth u st).backdrop = s.backdrop := by
  change (s.setUnit u st).backdrop = _
  unfold setUnit
  split
  · rfl
  · rw [rasEv_backdrop]
    cases u <;> rfl

theorem ldr_of_backdrop {t : State} (h : t.backdrop = s.backdrop) : t.ldr = s.ldr := congrArg (·.1) h
theorem sec_of_backdrop {t : State} (h : t.backdrop = s.backdrop) : t.sec = s.sec := congrArg (·.2.1) h
theorem dev_of_backdrop {t : State} (h : t.backdrop = s.backdrop) : t.dev = s.dev := congrArg (·.2.2.1) h
theorem plat_of_backdrop {t : State} (h : t.backdrop = s.backdrop) : t.plat = s.plat := congrArg (·.2.2.2.1) h
theorem own_of_backdrop {t : State} (h : t.backdrop = s.backdrop) : t.own = s.own := congrArg (·.2.2.2.2) h

/-! ### A paddock whose state changes -/

/-- A change of a paddock's state writes the state and its event bits. -/
theorem setPdkSt_pdk_eq (p : Nat) (st : PdkSt) : ∃ e, (s.setPdkSt p st).pdk p = { s.pdk p with st := st, event := e } := by
  simp only [setPdkSt]
  split
  · next h => exact ⟨_, by rw [← h]⟩
  · generalize hu : (s.modPdk p _).schEv 0 p = u
    have hp : u.pdk p = { s.pdk p with st := st } := by simp [← hu]
    have hev (b : Nat) : ∃ e, (u.pdkEv p b).pdk p = { s.pdk p with st := st, event := e } := by
      obtain ⟨e, he⟩ := pdkEv_pdk_same (s := u) p b
      exact ⟨_, by rw [he, hp]⟩
    split
    · exact hev 2
    · split
      · exact hev 3
      · exact ⟨_, hp⟩

/-- A RUNNABLE paddock that a cause suspends. -/
theorem suspendFor_pdk_eq {p : Nat} (f : Susp → Susp) (why : StopWhy) (h : (s.pdk p).st = .runnable) :
    ∃ e, (s.suspendFor p f why).pdk p = { s.pdk p with susp := f (s.pdk p).susp, st := .suspended, event := e } := by
  obtain ⟨e, he⟩ := setPdkSt_pdk_eq (s := (s.modPdk p (fun d => { d with susp := f d.susp })).suspendBays p why) p .suspended
  rw [suspendBays_pdk, pdk_modPdk_same] at he
  unfold suspendFor
  rw [h]
  exact ⟨e, he⟩

/-! ### GO (04 R120) -/

/-- No load of the function is queued or busy. -/
def LoadIdle (s : State) (fn : Nat) : Prop := (s.load fn).queued = false ∧ (s.load fn).busy = false

theorem not_loadIdle {fn : Nat} : ¬s.LoadIdle fn ↔ (s.load fn).queued = true ∨ (s.load fn).busy = true := by
  simp only [LoadIdle, not_and_or, Bool.not_eq_false]

theorem loadGo_idle {fn : Nat} (h : s.LoadIdle fn) : s.loadGo fn =
    { s.modLoad fn LoadRegs.asked with ldr := { (s.modLoad fn LoadRegs.asked).ldr with queue := s.ldr.queue ++ [fn] } } :=
  if_neg (by simp [h.1, h.2])

theorem loadGo_load {fn : Nat} (h : s.LoadIdle fn) : (s.loadGo fn).load fn = (s.load fn).asked := by
  rw [loadGo_idle h]
  exact load_modLoad_same ..

theorem loadGo_unheard {fn : Nat} (h : ¬s.LoadIdle fn) : s.loadGo fn = s := by
  rw [not_loadIdle] at h
  exact if_pos (by simpa using h)

/-- A tenant's GO locks the frames of its image (04 R113). -/
theorem tenantGo_idle {p : Nat} (hv : s.vfOn p = true) (h : s.LoadIdle (p + 1)) :
    s.tenantGo p = (s.loadGo (p + 1)).modPdk p (fun d => { d with goLock := s.imageFrames p }) := by
  have hframes : (s.loadGo (p + 1)).imageFrames p = s.imageFrames p := by
    have hload := loadGo_load h
    have hquota : (s.loadGo (p + 1)).quota p = s.quota p := by
      rw [loadGo_idle h]
      rfl
    unfold imageFrames
    rw [hload, hquota]
    rfl
  rw [← hframes]
  exact if_neg (by simp [hv, h.1, h.2])

theorem tenantGo_unheard {p : Nat} (h : s.vfOn p = false ∨ ¬s.LoadIdle (p + 1)) : s.tenantGo p = s := by
  rw [not_loadIdle] at h
  exact if_pos (by simpa [or_assoc] using h)

/-! ### The end of a load (04 R128) -/

/-- The load of a function has ended with a code and a check, and the loader is free. -/
def LoadEnded (t : State) (fn code check : Nat) : Prop :=
  (t.load fn).code = code ∧ (t.load fn).check = check ∧ (t.load fn).done = true ∧ (t.load fn).busy = false ∧
    (t.load fn).queued = false ∧ t.ldr.cur = none

section
variable (fn code check sec off : Nat)

theorem endLoad_backdrop :
    (s.endLoad fn code check sec off).backdrop = (s.ldrFree.modLoad fn (·.ended code check sec off)).backdrop := by
  unfold endLoad
  dsimp only
  split
  · exact msix_backdrop ..
  · rw [msix_backdrop, modPdk_backdrop]
    split
    · rw [setPdkSt_backdrop]
      rfl
    · rfl

theorem endLoad_ended : (s.endLoad fn code check sec off).LoadEnded fn code check := by
  have hldr := ldr_of_backdrop (endLoad_backdrop (s := s) fn code check sec off)
  have hload : (s.endLoad fn code check sec off).load fn = (s.load fn).ended code check sec off :=
    (congrArg (fun l : Ldr => tget {} l.regs fn) hldr :).trans (load_modLoad_same (s := s.ldrFree) ..)
  unfold LoadEnded
  rw [hload, hldr]
  exact ⟨rfl, rfl, rfl, rfl, rfl, rfl⟩

end

/-- A load that ends well leaves its paddock in the state that it has. -/
theorem endLoad_pdk_ok (p : Nat) : ∃ e, (s.endLoad (p + 1) Status.ok 0 0 0).pdk p = { s.pdk p with goLock := none, event := e } := by
  unfold endLoad
  dsimp only
  rw [if_neg (Nat.succ_ne_zero p), if_neg (by simp), msix_pdk, Nat.add_sub_cancel, pdk_modPdk_same]
  exact ⟨_, rfl⟩

/-- A load that fails leaves its paddock EMPTY, without a root key (04 R128; 06 R174). -/
theorem endLoad_pdk_failed {p code : Nat} (check sec off : Nat) (hc : code ≠ Status.ok)
    (hst : (s.pdk p).st = .loading ∨ (s.pdk p).st = .empty) :
    ((s.endLoad (p + 1) code check sec off).pdk p).st = .empty ∧ ((s.endLoad (p + 1) code check sec off).pdk p).rootKey = none := by
  unfold endLoad
  dsimp only
  generalize hu : s.ldrFree.modLoad _ _ = u
  have hp : u.pdk p = s.pdk p := by rw [← hu]; rfl
  obtain ⟨e, he⟩ := setPdkSt_pdk_eq (s := u.modPdk p (fun d => { d with rootKey := none })) p .empty
  rw [if_neg (Nat.succ_ne_zero p), Nat.add_sub_cancel, if_pos (by simp [hc, hp, hst]), msix_pdk, pdk_modPdk_same, he, pdk_modPdk_same]
  exact ⟨rfl, rfl⟩

/-! ### LOADER_TAKE (04 R121) -/

/-- The load of a function at the head of the queue taken, with what checks 1 to 5 find in the state in which it is taken. -/
def taken (s : State) (fn : Nat) (rest : List Nat) : State :=
  ({ s with ldr := { s.ldr with queue := rest, cur := some fn, early := s.earlyFail fn, staged := [], readErr := false, readOut := 0
                                passed := false } } : State).modLoad fn (fun r => { r with queued := false, busy := true })

theorem taken_load (fn : Nat) (rest : List Nat) : (s.taken fn rest).load fn = { s.load fn with queued := false, busy := true } :=
  load_modLoad_same ..

theorem loaderTake_idle (h : s.ldr.cur ≠ none ∨ s.ldr.queue = []) : s.loaderTake = s := by
  unfold loaderTake
  split
  · next hcur hqueue => simp [hcur, hqueue] at h
  · rfl

section
variable {rest : List Nat} (hcur : s.ldr.cur = none)
include hcur

/-- A platform load waits in the queue until PF0 may read host memory (log 64). -/
theorem loaderTake_waits (hqueue : s.ldr.queue = 0 :: rest) (he : s.earlyFail 0 = none) (hm : s.canMaster 0 = false) :
    s.loaderTake = s := by
  simp [loaderTake, hcur, hqueue, he, hm]

theorem loaderTake_platform (hqueue : s.ldr.queue = 0 :: rest) (he : s.earlyFail 0 = none) (hm : s.canMaster 0 = true) :
    s.loaderTake = (s.taken 0 rest).readOn := by
  simp [loaderTake, hcur, hqueue, he, hm, taken]

theorem loaderTake_tenant {p : Nat} (hqueue : s.ldr.queue = (p + 1) :: rest) (he : s.earlyFail (p + 1) = none) :
    s.loaderTake = (s.taken (p + 1) rest).openLoad (p + 1) := by
  simp [loaderTake, hcur, hqueue, he, taken]

/-- A tenant load that fails one of checks 1 to 3 is taken all the same, and its paddock does not change. -/
theorem loaderTake_failing {p k c : Nat} (hqueue : s.ldr.queue = (p + 1) :: rest) (he : s.earlyFail (p + 1) = some (k, c)) (hk : k ≤ 3) :
    s.loaderTake = s.taken (p + 1) rest := by
  simp [loaderTake, hcur, hqueue, he, hk, taken]

end

/-- Reading on changes in the loader the number of bytes asked for alone. -/
theorem readOn_ldr : ∃ n, s.readOn.ldr = { s.ldr with readOut := n } := by
  simp only [readOn]
  split
  · exact ⟨_, rfl⟩
  · exact ⟨_, (congrArg State.ldr (hostRead_calm ..) :)⟩

/-- A tenant load that passes checks 1 to 5 is of a paddock without an image (04 R124). -/
theorem st_of_earlyFail {p : Nat} (h : s.earlyFail (p + 1) = none) : (s.pdk p).st = .loading ∨ (s.pdk p).st = .empty := by
  by_contra hst
  rw [not_or] at hst
  simp only [earlyFail, Nat.add_sub_cancel, hst] at h
  split at h <;> simp at h

/-- With the DRBG, the load's paddock becomes LOADING with a fresh root key (06 R174). -/
theorem openLoad_served {p : Nat} (h : s.drbgReady = true) : (s.openLoad (p + 1)).backdrop = (s.drawWide 4).2.backdrop ∧
    ((s.openLoad (p + 1)).pdk p).st = .loading ∧ ((s.openLoad (p + 1)).pdk p).rootKey ≠ none := by
  have heq : s.openLoad (p + 1) = (((s.drawWide 4).2.setPdkSt p .loading).modPdk p fun d =>
      { d with rootKey := some (BitVec.ofNat 256 (s.drawWide 4).1) }) := if_neg (by simp [h])
  rw [heq, modPdk_backdrop, setPdkSt_backdrop, pdk_modPdk_same]
  exact ⟨rfl, (setPdkSt_pdk_same p _).1, Option.some_ne_none _⟩

theorem openLoad_unserved {fn : Nat} (h : s.drbgReady = false) : s.openLoad fn = s.endLoad fn Status.entropyFault 0 0 0 :=
  if_pos (by simp [h])

/-! ### LOAD_CHECKS_COMPLETE (04 R124, R125) -/

theorem checksDone_idle (h : s.ldr.cur = none) : s.checksDone = s := by
  simp [checksDone, h]

section
variable {fn : Nat} (hcur : s.ldr.cur = some fn) (hpass : s.ldr.passed = false) (hread : fn = 0 → s.ldr.readOut = 0)
include hcur hpass hread

theorem checksDone_failed {k c i o : Nat} (h : s.loadFail fn = some (k, c, i, o)) : s.checksDone = s.endLoad fn c k i o := by
  have hall : ¬(fn = 0 ∧ ¬s.ldr.readOut = 0) := fun ⟨h₀, hn⟩ => hn (hread h₀)
  simp [checksDone, hcur, hpass, h, hall]

theorem checksDone_passed (h : s.loadFail fn = none) :
    s.checksDone = { s.stageImage fn with ldr := { (s.stageImage fn).ldr with passed := true } } := by
  have hall : ¬(fn = 0 ∧ ¬s.ldr.readOut = 0) := fun ⟨h₀, hn⟩ => hn (hread h₀)
  simp [checksDone, hcur, hpass, h, hall]

end

theorem sendPiece_ldr (write : Bool) (a : Nat) (data : List Byte) (e : Nat × Nat) : (sendPiece write a data s e).ldr = s.ldr :=
  (congrArg State.ldr (s.newTag.2.acceptPiece_spec _ _).1 :)

theorem traffic_ldr (write : Bool) (a : Nat) (data : List Byte) (len : Nat) : (s.traffic write a data len).ldr = s.ldr :=
  foldl_proj State.ldr (fun _ e => sendPiece_ldr write a data e) _

/-- An image is staged as the loader reads it, and no paddock changes. -/
theorem stageImage_staged (fn : Nat) :
    (s.stageImage fn).ldr = { s.ldr with staged := s.imageBytes fn } ∧ (s.stageImage fn).pdks = s.pdks := by
  unfold stageImage
  split
  · next h => simp [imageBytes, h]
  · dsimp only
    rw [traffic_ldr]
    exact ⟨rfl, congrArg (·.2.1) (traffic_unmoved ..)⟩

/-! ### PLATFORM_COMMIT (04 R126) -/

/-- A platform in force, its ports not yet brought up. -/
def platInstalled (s : State) (pl : Platform) : State :=
  ({ s with plat := some pl, own := ownersOf pl, yard := {}, dev := { s.dev with phase := .ready } } : State).modLoad 0
    (fun r => { r with meas := pl.meas })

/-- The ports that a platform enables brought up. -/
def portsUp (s : State) (en : Nat) : State :=
  (List.range 8).foldl (fun s k => if bitAt en k then s.setUnitBoth (.port (Fin.ofNat 8 k)) .online else s) s

theorem portsUp_backdrop (en : Nat) : (s.portsUp en).backdrop = s.backdrop := by
  refine foldl_proj backdrop (fun t k => ?_) _
  split
  · exact setUnitBoth_backdrop ..
  · rfl

theorem platCommit_unready (h : s.ldr.cur ≠ some 0 ∨ s.ldr.passed = false ∨ s.dev.phase ≠ .init) : s.platCommit = s :=
  if_pos (by simpa [or_assoc] using h)

theorem platCommit_eq (hcur : s.ldr.cur = some 0) (hpass : s.ldr.passed = true) (hph : s.dev.phase = .init) : ∃ pl en,
    s.platCommit = (((s.platInstalled pl).portsUp en).newEpoch none).endLoad 0 Status.ok 0 0 0 :=
  ⟨_, _, if_neg (by simp [hcur, hpass, hph])⟩

/-! ### TENANT_COMMIT (04 R127) -/

theorem tenantCommit_unready (h : s.ldr.cur = none ∨ s.ldr.passed = false) : s.tenantCommit = s := by
  unfold tenantCommit
  split
  · next p hcur =>
    simp only [hcur, reduceCtorEq, false_or] at h
    exact if_pos (by simp [h])
  · rfl

/-- A tenant's image in force: its save area is the scheduler's, and the paddock starts anew (04 R127; 05 R138). -/
def tenantInstalled (s : State) (p : Nat) (img : TenImage) : State :=
  let n := 19 * img.needs.bays
  ((if n = 0 then s else
      { s with own := { base := (s.quota p).frameBase + ((s.quota p).frameCount - n), count := n, owner := 0x81 } :: s.own } : State).modPdk p
    (·.committed img (n ≠ 0))).modLoad (p + 1) (fun r => { r with meas := img.meas })

theorem tenantInstalled_pdk (p : Nat) (img : TenImage) :
    (s.tenantInstalled p img).pdk p = (s.pdk p).committed img (19 * img.needs.bays ≠ 0) := by
  unfold tenantInstalled
  dsimp only
  rw [pdk_modLoad, pdk_modPdk_same]
  split <;> rfl

theorem tenantInstalled_sec_dev (p : Nat) (img : TenImage) :
    (s.tenantInstalled p img).sec = s.sec ∧ (s.tenantInstalled p img).dev = s.dev := by
  unfold tenantInstalled
  dsimp only
  split <;> exact ⟨rfl, rfl⟩

/-- A tenant's image in force under a new epoch, its paddock RUNNABLE and measured so. -/
def tenantRunnable (s : State) (p : Nat) (img : TenImage) : State :=
  (((s.tenantInstalled p img).newEpoch none).setPdkSt p .runnable).updRecord p

theorem tenantRunnable_pdk (p : Nat) (img : TenImage) : ∃ saveOwned e,
    (s.tenantRunnable p img).pdk p = { (s.pdk p).committed img saveOwned with st := .runnable, event := e } := by
  obtain ⟨e, he⟩ := setPdkSt_pdk_eq (s := (s.tenantInstalled p img).newEpoch none) p .runnable
  rw [pdk_newEpoch, tenantInstalled_pdk] at he
  exact ⟨_, e, he⟩

theorem tenantRunnable_sec_dev (p : Nat) (img : TenImage) :
    (s.tenantRunnable p img).sec.epoch = (s.sec.epoch + 1) % 2 ^ 32 ∧ (s.tenantRunnable p img).dev = s.dev := by
  have hst := setPdkSt_backdrop (s := (s.tenantInstalled p img).newEpoch none) p .runnable
  obtain ⟨hsec, hdev⟩ := s.tenantInstalled_sec_dev p img
  constructor
  · exact (congrArg Sec.epoch (sec_of_backdrop hst)).trans (by rw [← hsec]; rfl)
  · exact (dev_of_backdrop hst).trans hdev

/-- A paddock held by a thermal trip that has not ended (02 R62, R64). -/
def heldByTrip (s : State) (p : Nat) : State :=
  if s.dev.tripSeal || s.dev.tripped then s.suspendFor p (fun u => { u with trip := true }) .trip else s

theorem heldByTrip_backdrop (p : Nat) : (s.heldByTrip p).backdrop = s.backdrop := by
  unfold heldByTrip
  split
  · exact suspendFor_backdrop ..
  · rfl

theorem heldByTrip_pdk {p : Nat} (h : (s.pdk p).st = .runnable) :
    ∃ st susp e, (s.heldByTrip p).pdk p = { s.pdk p with st := st, susp := susp, event := e } ∧
      (s.dev.tripSeal = false → s.dev.tripped = false → st = .runnable) ∧
      (s.dev.tripSeal = true ∨ s.dev.tripped = true → st = .suspended ∧ susp.trip = true) := by
  unfold heldByTrip
  split
  · next ht =>
    obtain ⟨e, he⟩ := suspendFor_pdk_eq (fun u => { u with trip := true }) .trip h
    exact ⟨_, _, e, he, fun h₁ h₂ => by simp [h₁, h₂] at ht, fun _ => ⟨rfl, rfl⟩⟩
  · next ht => exact ⟨_, _, _, rfl, fun _ _ => h, fun h' => absurd (by simpa using h') ht⟩

theorem tenantCommit_eq {p : Nat} (hcur : s.ldr.cur = some (p + 1)) (hpass : s.ldr.passed = true) : ∃ ss,
    s.tenantCommit = ((s.tenantRunnable p (Img.imageOf s.ldr.staged ss)).heldByTrip p).endLoad (p + 1) Status.ok 0 0 0 := by
  refine ⟨Img.sects s.ldr.staged (fieldAt s.ldr.staged 0x0C 2), ?_⟩
  unfold tenantCommit
  split
  · next q hq =>
    obtain rfl : q = p := by simpa [hcur] using hq.symm
    rw [if_neg (by simp [hpass])]
    extract_lets d img quota n s₁ s₂ s₃ s₄ s₅
    change s₅.endLoad _ _ _ _ _ = ((s.tenantRunnable q img).heldByTrip q).endLoad _ _ _ _ _
    clear_value img -- the image stays opaque, so that comparing the two states does not decode it
    rfl
  · next h => exact absurd hcur (h p)

end State

end Sys2Proof.Machine

namespace Sys2Proof.Proofs

open Sys2Proof Sys2Proof.Machine Sys2Proof.Claims

variable {s : State} {p : PdkId} {fn : Nat} {rest : List Nat}

theorem ldrGo_queues (h : s.LoadIdle 0) : Gives .ldrGo s (fun t => t.ldr.queue = s.ldr.queue ++ [0] ∧ (t.load 0).queued = true ∧
    (t.load 0).done = false ∧ (t.load 0).code = 0 ∧ (t.load 0).src = (s.load 0).src ∧ t.mem = s.mem ∧ t.out = s.out) := by
  refine ⟨s.loadGo 0, rfl, ?_⟩
  beta_reduce
  rw [State.loadGo_load h, State.loadGo_idle h]
  exact ⟨rfl, rfl, rfl, rfl, rfl, rfl, rfl⟩

theorem exec_pdkLoadGo (h : s.ideBad (p + 1) none = false) : exec (.pdkLoadGo p none) s = .next (s.tenantGo p) :=
  congrArg Host.Outcome.next (State.vfWrite_heeded ⟨rfl, h⟩ _)

theorem pdkLoadGo_queues (hi : s.ideBad (p + 1) none = false) (hv : s.vfOn p = true) (h : s.LoadIdle (p + 1)) :
    Gives (.pdkLoadGo p none) s (fun t => t.ldr.queue = s.ldr.queue ++ [p.val + 1] ∧ (t.load (p + 1)).queued = true ∧ t.mem = s.mem ∧
      t.out = s.out ∧ (t.pdk p).goLock = s.imageFrames p) := by
  refine ⟨_, exec_pdkLoadGo hi, ?_⟩
  beta_reduce
  rw [State.tenantGo_idle hv h, State.load_modPdk, State.loadGo_load h, State.pdk_modPdk_same, State.loadGo_idle h]
  exact ⟨rfl, rfl, rfl, rfl, rfl⟩

theorem loaderTake_platform_reads (hcur : s.ldr.cur = none) (hqueue : s.ldr.queue = 0 :: rest) (he : s.earlyFail 0 = none)
    (hm : s.canMaster 0 = true) : Gives .loaderTake s (fun t => t.ldr.queue = rest ∧ t.ldr.cur = some 0 ∧ (t.load 0).busy = true ∧
      (t.load 0).queued = false ∧ t.mem = s.mem) := by
  refine ⟨s.loaderTake, rfl, ?_⟩
  obtain ⟨n, hldr⟩ := State.readOn_ldr (s := s.taken 0 rest)
  have hload : (s.taken 0 rest).readOn.load 0 = { s.load 0 with queued := false, busy := true } :=
    (congrArg (fun l : Ldr => tget {} l.regs 0) hldr :).trans (State.taken_load 0 rest)
  rw [State.mem_of_kept (s.loaderTake_kept), State.loaderTake_platform hcur hqueue he hm, hload, hldr]
  exact ⟨rfl, rfl, rfl, rfl, rfl⟩

theorem loaderTake_tenant_opens (hcur : s.ldr.cur = none) (hqueue : s.ldr.queue = (p.val + 1) :: rest) (he : s.earlyFail (p + 1) = none) :
    Gives .loaderTake s (fun t => t.ldr.queue = rest ∧ t.mem = s.mem ∧
      (s.drbgReady = true → t.ldr.cur = some (p.val + 1) ∧ (t.load (p + 1)).busy = true ∧ (t.load (p + 1)).queued = false ∧
        (t.pdk p).st = .loading ∧ (t.pdk p).rootKey ≠ none ∧ t.sec.rng.gens = s.sec.rng.gens + 1) ∧
      (s.drbgReady = false → t.LoadEnded (p + 1) 0x30 0 ∧ (t.pdk p).st = .empty ∧ (t.pdk p).rootKey = none)) := by
  refine ⟨s.loaderTake, rfl, ?_⟩
  have hready : (s.taken (p + 1) rest).drbgReady = s.drbgReady := rfl
  beta_reduce
  rw [State.mem_of_kept (s.loaderTake_kept), State.loaderTake_tenant hcur hqueue he]
  by_cases hr : s.drbgReady = true
  · obtain ⟨hback, hst, hkey⟩ := State.openLoad_served (p := p) (hready.trans hr)
    have hldr := State.ldr_of_backdrop hback
    have hload : ((s.taken (p + 1) rest).openLoad (p + 1)).load (p + 1) = { s.load (p + 1) with queued := false, busy := true } :=
      (congrArg (fun l : Ldr => tget {} l.regs (p + 1)) hldr :).trans (State.taken_load _ _)
    rw [hldr, State.sec_of_backdrop hback, hload]
    exact ⟨rfl, rfl, fun _ => ⟨rfl, rfl, rfl, hst, hkey, rfl⟩, fun h => absurd hr (ne_true_of_eq_false h)⟩
  · have hr' := eq_false_of_ne_true hr
    rw [State.openLoad_unserved (hready.trans hr')]
    have hldr := State.ldr_of_backdrop (State.endLoad_backdrop (s := s.taken (p + 1) rest) (p + 1) Status.entropyFault 0 0 0)
    refine ⟨by rw [hldr]; rfl, rfl, fun h => absurd h hr, fun _ => ⟨State.endLoad_ended .., ?_⟩⟩
    exact State.endLoad_pdk_failed (s := s.taken (p + 1) rest) 0 0 0 (by decide) (State.st_of_earlyFail (s := s) he)

theorem loadChecksComplete_stages (hcur : s.ldr.cur = some fn) (hpass : s.ldr.passed = false) (hread : fn = 0 → s.ldr.readOut = 0)
    (h : s.loadFail fn = none) : Gives .loadChecksComplete s (fun t => t.ldr.passed = true ∧ t.ldr.cur = some fn ∧
      t.ldr.staged = s.imageBytes fn ∧ t.mem = s.mem ∧ t.pdks = s.pdks) := by
  obtain ⟨hldr, hpdks⟩ := s.stageImage_staged fn
  refine ⟨s.checksDone, rfl, ?_⟩
  beta_reduce
  rw [State.mem_of_kept (s.checksDone_kept), State.checksDone_passed hcur hpass hread h]
  exact ⟨rfl, by rw [hldr]; exact hcur, by rw [hldr], rfl, hpdks⟩

theorem platformCommit_readies (hcur : s.ldr.cur = some 0) (hpass : s.ldr.passed = true) (hph : s.dev.phase = .init) :
    Gives .platformCommit s (fun t => t.LoadEnded 0 0 0 ∧ t.dev.phase = .ready ∧ (∃ pl, t.plat = some pl ∧ t.own = State.ownersOf pl) ∧
      t.sec.epoch = (s.sec.epoch + 1) % 2 ^ 32 ∧ t.mem = s.mem) := by
  refine ⟨s.platCommit, rfl, ?_⟩
  beta_reduce
  rw [State.mem_of_kept (s.platCommit_kept)]
  obtain ⟨pl, en, heq⟩ := State.platCommit_eq hcur hpass hph
  have hend := State.endLoad_backdrop (s := ((s.platInstalled pl).portsUp en).newEpoch none) 0 Status.ok 0 0 0
  have hports := (s.platInstalled pl).portsUp_backdrop en
  rw [heq, State.dev_of_backdrop hend, State.plat_of_backdrop hend, State.own_of_backdrop hend, State.sec_of_backdrop hend]
  refine ⟨State.endLoad_ended .., ?_, ⟨pl, ?_, ?_⟩, ?_, rfl⟩
  · exact congrArg Dev.phase (State.dev_of_backdrop hports)
  · exact State.plat_of_backdrop hports
  · exact State.own_of_backdrop hports
  · exact congrArg (fun x : Sec => (x.epoch + 1) % 2 ^ 32) (State.sec_of_backdrop (s := s.platInstalled pl) hports)

theorem tenantCommit_starts (hcur : s.ldr.cur = some (p.val + 1)) (hpass : s.ldr.passed = true) :
    Gives .tenantCommit s (fun t => t.LoadEnded (p + 1) 0 0 ∧
      (s.dev.tripSeal = false → s.dev.tripped = false → (t.pdk p).st = .runnable) ∧
      (s.dev.tripSeal = true ∨ s.dev.tripped = true → (t.pdk p).st = .suspended ∧ (t.pdk p).susp.trip = true) ∧
      (∃ ss, (t.pdk p).img = some (Img.imageOf s.ldr.staged ss)) ∧ (t.pdk p).lock = (s.pdk p).goLock ∧
      (t.pdk p).consent = 0 ∧ (t.pdk p).beats = 0 ∧
      (t.pdk p).gen = (s.pdk p).gen + 1 ∧ t.sec.epoch = (s.sec.epoch + 1) % 2 ^ 32 ∧ t.mem = s.mem) := by
  refine ⟨s.tenantCommit, rfl, ?_⟩
  beta_reduce
  rw [State.mem_of_kept (s.tenantCommit_kept)]
  obtain ⟨ss, heq⟩ := State.tenantCommit_eq hcur hpass
  rw [heq]
  obtain ⟨saveOwned, e₁, hrun⟩ := s.tenantRunnable_pdk p (Img.imageOf s.ldr.staged ss)
  obtain ⟨hepoch, hdev⟩ := s.tenantRunnable_sec_dev p (Img.imageOf s.ldr.staged ss)
  generalize s.tenantRunnable p (Img.imageOf s.ldr.staged ss) = u at hrun hepoch hdev ⊢
  obtain ⟨st, susp, e₂, hheld, hgoes, hstays⟩ := State.heldByTrip_pdk (s := u) (p := p) (by rw [hrun])
  obtain ⟨e₃, hend⟩ := State.endLoad_pdk_ok (s := u.heldByTrip p) p
  rw [hdev] at hgoes hstays
  rw [hend, hheld, hrun]
  refine ⟨State.endLoad_ended .., hgoes, hstays, ⟨ss, rfl⟩, rfl, rfl, rfl, rfl, ?_, rfl⟩
  rw [State.sec_of_backdrop (State.endLoad_backdrop ..), ← hepoch]
  exact congrArg Sec.epoch (State.sec_of_backdrop (s := u) (t := u.heldByTrip p) (u.heldByTrip_backdrop p))

/-- Settles O42: each command of a load by the case that the loader's state puts it in. -/
theorem imageLoads : Obligations.ImageLoads := by
  unfold Obligations.ImageLoads
  intro s p fn rest quiet ended
  refine ⟨ldrGo_queues, fun h => ?_, fun hi => ⟨pdkLoadGo_queues hi, fun h => ?_⟩, fun h => ?_, fun hcur hqueue he =>
    ⟨loaderTake_platform_reads hcur hqueue he, fun hm => ?_⟩, loaderTake_tenant_opens, fun k c hk hcur hqueue he => ?_,
    fun hcur hpass hread => ⟨fun k c i o h => ?_, loadChecksComplete_stages hcur hpass hread⟩, fun h => ?_, platformCommit_readies,
    fun h => ?_, tenantCommit_starts, fun h => ?_⟩
  · exact congrArg Host.Outcome.next (State.loadGo_unheard h)
  · exact (exec_pdkLoadGo hi).trans (congrArg Host.Outcome.next (State.tenantGo_unheard h))
  · exact congrArg Host.Outcome.next (State.loaderTake_idle h)
  · exact congrArg Host.Outcome.next (State.loaderTake_waits hcur hqueue he hm)
  · exact ⟨_, congrArg Host.Outcome.next (State.loaderTake_failing hcur hqueue he hk), rfl, he, rfl, rfl⟩
  · exact ⟨_, congrArg Host.Outcome.next (State.checksDone_failed hcur hpass hread h), State.endLoad_ended ..,
      State.mem_of_kept (State.endLoad_kept ..)⟩
  · exact congrArg Host.Outcome.next (State.checksDone_idle h)
  · exact congrArg Host.Outcome.next (State.platCommit_unready h)
  · exact congrArg Host.Outcome.next (State.tenantCommit_unready h)

end Sys2Proof.Proofs
end

section
/-! Rings and their doorbells (05 R140-R146): the writes of RING_CFG and of the two doorbells, by the case that the ring is in. -/

namespace Sys2Proof.Machine

namespace State

variable {s : State} {p k v : Nat}

theorem ring_of_calm {t : State} (h : t.calm = s.calm) (p k : Nat) : t.ring p k = s.ring p k :=
  (congrArg (fun u : State => u.ring p k) h :)

theorem modRing_congr {f g : Ring → Ring} (h : f (s.ring p k) = g (s.ring p k)) : s.modRing p k f = s.modRing p k g :=
  congrArg (fun r => { s with rings := tset s.rings (p * 256 + k) r }) h

/-- A fetch writes only the tag of the entry under way and the head. -/
theorem fetchNext_ring (s : State) (p k : Nat) :
    ∃ fetch head, (s.fetchNext p k).ring p k = { s.ring p k with fetch := fetch, sqHead := head } := by
  unfold fetchNext
  dsimp only
  split
  · rw [ring_modRing_same, ring_of_calm (hostRead_calm ..)]
    exact ⟨_, _, rfl⟩
  · exact ⟨_, _, rfl⟩

/-! ### RING_CFG -/

/-- A ring as an accepted enable leaves it: empty, with the fields of the value written. -/
def startedRing (r : Ring) (v slot : Nat) : Ring :=
  { ringCfg r v with en := true, slot := some (r.slot.getD slot), sqHead := 0, sqTail := 0, cqTail := 0, cqHead := 0,
                     phase := true, stopped := false, stamps := [], mute := false }

theorem ringEnable_enabled (h : (s.ring p (s.pdk p).ringSel).en = true) : s.ringEnable p v = s := by
  simp [ringEnable, h]

theorem ringEnable_starts {slot : Nat} (hen : (s.ring p (s.pdk p).ringSel).en = false) (hjob : (s.ring p (s.pdk p).ringSel).job = none)
    (hcpls : (s.ring p (s.pdk p).ringSel).cpls = []) (hfetch : (s.ring p (s.pdk p).ringSel).fetch = none)
    (hok : s.enableOk p (s.pdk p).ringSel (ringCfg (s.ring p (s.pdk p).ringSel) v) = true) (hslot : s.ringSlot p = some slot) :
    s.ringEnable p v = s.modRing p (s.pdk p).ringSel (fun r => startedRing r v slot) := by
  unfold ringEnable
  simp only [hen, hjob, hcpls, hfetch, hok, hslot, Bool.false_eq_true, if_false, Option.isNone_none, List.isEmpty_nil, Bool.and_true]
  rfl

theorem ringEnable_refused (hen : (s.ring p (s.pdk p).ringSel).en = false)
    (h : s.enableOk p (s.pdk p).ringSel (ringCfg (s.ring p (s.pdk p).ringSel) v) = false ∨ s.ringSlot p = none) :
    s.ringEnable p v =
      s.modRing p (s.pdk p).ringSel (fun _ => { ringCfg (s.ring p (s.pdk p).ringSel) v with refused := true }) := by
  unfold ringEnable
  rcases h with h | h
  · simp [hen, h]
  · simp [hen, h]

theorem ringDisable_disabled (h : (s.ring p (s.pdk p).ringSel).en = false) :
    s.ringDisable p v = s.modRing p (s.pdk p).ringSel (fun r => ringCfg r v) := by
  simp [ringDisable, h]

theorem ringDisable_idle (hen : (s.ring p (s.pdk p).ringSel).en = true) (hjob : (s.ring p (s.pdk p).ringSel).job = none)
    (hcpls : (s.ring p (s.pdk p).ringSel).cpls = []) :
    s.ringDisable p v = s.modRing p (s.pdk p).ringSel
      (fun _ => { s.ring p (s.pdk p).ringSel with en := false, fetch := none, stopped := true, slot := none }) := by
  unfold ringDisable
  rw [if_neg (by simp [hen])]
  exact modRing_congr (by simp [hjob, hcpls])

/-! ### The doorbells -/

theorem sqTailWrite_teardown (h : (s.pdk p).st = .teardown) : s.sqTailWrite p k v = s := if_pos h

theorem cqHeadWrite_teardown (h : (s.pdk p).st = .teardown) : s.cqHeadWrite p k v = s := if_pos h

theorem sqTailWrite_bad (hst : (s.pdk p).st ≠ .teardown) (h : (s.ring p k).en = false ∨ 2 ^ (s.ring p k).sqLog ≤ v) :
    s.sqTailWrite p k v = s.modRing p k (fun r => { r with dbBad := true }) := by
  unfold sqTailWrite
  rw [if_neg hst, if_pos (by simpa using h)]

theorem cqHeadWrite_bad (hst : (s.pdk p).st ≠ .teardown) (h : (s.ring p k).en = false ∨ 2 ^ (s.ring p k).cqLog ≤ v) :
    s.cqHeadWrite p k v = s.modRing p k (fun r => { r with dbBad := true }) := by
  unfold cqHeadWrite
  dsimp only
  rw [if_neg hst, if_pos (by simpa using Or.inl h)]

theorem cqHeadWrite_moves (hst : (s.pdk p).st ≠ .teardown) (hen : (s.ring p k).en = true) (hv : v < 2 ^ (s.ring p k).cqLog)
    (hin : (v + 2 ^ (s.ring p k).cqLog - (s.ring p k).cqHead) % 2 ^ (s.ring p k).cqLog ≤
      ((s.ring p k).cqTail + 2 ^ (s.ring p k).cqLog - (s.ring p k).cqHead) % 2 ^ (s.ring p k).cqLog) :
    s.cqHeadWrite p k v = s.modRing p k (fun r => { r with cqHead := v }) := by
  unfold cqHeadWrite
  dsimp only
  rw [if_neg hst, if_neg (by simp [hen, hv, hin])]

/-- Entries that stand in a ring of `2 ^ log` between two indices. -/
def ringSpan (log head tail : Nat) : Nat := (tail + 2 ^ log - head) % 2 ^ log

theorem sqTailWrite_moves (hst : (s.pdk p).st ≠ .teardown) (hen : (s.ring p k).en = true) (hv : v < 2 ^ (s.ring p k).sqLog)
    (hmore : ringSpan (s.ring p k).sqLog (s.ring p k).sqHead (s.ring p k).sqTail < ringSpan (s.ring p k).sqLog (s.ring p k).sqHead v) :
    s.sqTailWrite p k v = (s.modRing p k (fun r => { r with
      sqTail := v
      stamps := r.stamps ++ [(ringSpan (s.ring p k).sqLog (s.ring p k).sqHead v -
        ringSpan (s.ring p k).sqLog (s.ring p k).sqHead (s.ring p k).sqTail, s.dev.tsc.toNat)] })).fetchNext p k := by
  unfold sqTailWrite
  dsimp only
  rw [if_neg hst, if_neg (by simp [hen, hv])]
  exact if_neg (Nat.not_le.mpr hmore)

end State

end Sys2Proof.Machine

namespace Sys2Proof.Proofs

open Sys2Proof Sys2Proof.Machine Sys2Proof.Claims

/-- Settles O44: each write by the case that its ring is in; a doorbell that adds entries may start a fetch, which moves the head alone. -/
theorem ringsAndDoorbells : Obligations.RingsAndDoorbells := by
  unfold Obligations.RingsAndDoorbells
  intro s p k v x ide hh sel r want b sq cq pos
  have heeded (off : Nat) (f : State → State) : s.vfWrite p off ide f = f s := State.vfWrite_heeded hh f
  have enable : exec (.ringEnable p v ide) s = .next (s.ringEnable p v.toNat) := congrArg Host.Outcome.next (heeded _ _)
  have disable : exec (.ringDisable p v ide) s = .next (s.ringDisable p v.toNat) := congrArg Host.Outcome.next (heeded _ _)
  have tail : exec (.sqTailDoorbell p k x ide) s = .next (s.sqTailWrite p k x.toNat) := congrArg Host.Outcome.next (heeded _ _)
  have head : exec (.cqHeadDoorbell p k x ide) s = .next (s.cqHeadWrite p k x.toNat) := congrArg Host.Outcome.next (heeded _ _)
  rw [enable, disable, tail, head]
  refine ⟨fun hen hjob hcpls hfetch hok hslot => ?starts, fun hen hok => ?refused, fun hen hslot => ?unslotted, fun hen => ?enabled,
    fun hen => ?sets, fun hen hjob hcpls => ?stops, fun hst => ⟨?_, ?_⟩, fun hst => ⟨fun h => ?_, fun hen hv hmore => ?tail,
    fun h => ?_, fun hen hv hin => ?head⟩⟩
  case starts =>
    obtain ⟨slot, hslot⟩ := Option.ne_none_iff_exists'.mp hslot
    refine ⟨_, enable.trans (congrArg Host.Outcome.next (State.ringEnable_starts hen hjob hcpls hfetch hok hslot)), ?_⟩
    simp only [State.ring_modRing_same, sel]
    exact ⟨rfl, Option.some_ne_none _, rfl, rfl, rfl, rfl, rfl, rfl, rfl, rfl, rfl, rfl⟩
  case refused => exact congrArg Host.Outcome.next (State.ringEnable_refused hen (.inl hok))
  case unslotted => exact congrArg Host.Outcome.next (State.ringEnable_refused hen (.inr hslot))
  case enabled => exact congrArg Host.Outcome.next (State.ringEnable_enabled hen)
  case sets => exact congrArg Host.Outcome.next (State.ringDisable_disabled hen)
  case stops => exact congrArg Host.Outcome.next (State.ringDisable_idle hen hjob hcpls)
  · exact congrArg Host.Outcome.next (State.sqTailWrite_teardown hst)
  · exact congrArg Host.Outcome.next (State.cqHeadWrite_teardown hst)
  · exact congrArg Host.Outcome.next (State.sqTailWrite_bad hst h)
  case tail =>
    refine ⟨_, tail.trans (congrArg Host.Outcome.next (State.sqTailWrite_moves hst hen hv hmore)), ?_⟩
    obtain ⟨fetch, head, hring⟩ := State.fetchNext_ring (s.modRing p k (fun r => { r with
      sqTail := pos
      stamps := r.stamps ++ [(State.ringSpan b.sqLog b.sqHead pos - State.ringSpan b.sqLog b.sqHead b.sqTail, s.dev.tsc.toNat)] })) p k
    rw [hring, State.ring_modRing_same, State.mem_of_kept (State.fetchNext_kept ..)]
    exact ⟨rfl, hen, rfl, rfl, rfl⟩
  · exact congrArg Host.Outcome.next (State.cqHeadWrite_bad hst h)
  case head => exact congrArg Host.Outcome.next (State.cqHeadWrite_moves hst hen hv hin)

end Sys2Proof.Proofs
end

section
/-! Submission entries and completion entries (05 R147-R149, R151, R153, R154): what an entry of each kind is answered with, and what a
written completion leaves on its ring and sends. -/

namespace Sys2Proof.Machine

/-! ### What an entry is answered with at once -/

/-- Whether a submission entry is malformed (05 R147, R149). -/
def malformed (d : List Byte) : Bool :=
  (fieldAt d 0 1 ≠ 1 && fieldAt d 0 1 ≠ 2) || fieldAt d 1 1 ≥ 8 || !zeroAt d 5 3 || !zeroAt d 12 4
    || (bitAt (fieldAt d 1 1) 1 && fieldAt d 8 4 = 0)

/-- The status that an entry of a paddock with a need of `need` bays completes with when it runs nothing. -/
def entryStatus (need : Nat) (d : List Byte) : Option Nat :=
  if malformed d then some Status.imageInvalid
  else if fieldAt d 0 1 = 2 then some Status.ok
  else if fieldAt d 4 1 = 0 then some Status.okZero
  else if fieldAt d 4 1 > need then some Status.resourceShort
  else none

theorem malformed_iff (d : List Byte) : malformed d = true ↔ ¬((fieldAt d 0 1 = 1 ∨ fieldAt d 0 1 = 2) ∧ fieldAt d 1 1 < 8 ∧
    zeroAt d 5 3 = true ∧ zeroAt d 12 4 = true ∧ (bitAt (fieldAt d 1 1) 1 = true → fieldAt d 8 4 ≠ 0)) := by
  simp only [malformed, Bool.or_eq_true, Bool.and_eq_true, decide_eq_true_eq, Bool.not_eq_true', ← Bool.not_eq_true]
  grind

theorem ceilDiv_of_le {a b : Nat} (h₀ : 0 < a) (h : a ≤ b) : ceilDiv a b = 1 := by
  have hb : b ≠ 0 := by omega
  rw [ceilDiv, if_neg hb]
  exact Nat.div_eq_of_lt_le (by omega) (by omega)

theorem Cpl.length_bytes (c : Cpl) (phase : Bool) (ring : Nat) : (c.bytes phase ring).length = 32 := by
  simp [Cpl.bytes]

namespace State

variable {s t : State} {p k tag : Nat} {d : List Byte}

/-- Data that one TLP carries. -/
theorem tlps_single {size addr len : Nat} (h₀ : 0 < len) (h : len ≤ size) : tlps size addr len = [(addr, len)] := by
  simp [tlps, ceilDiv_of_le h₀ h, h]

theorem payloadBytes_ge (s : State) : 128 ≤ s.payloadBytes := by
  have hpow : 1 ≤ 2 ^ min s.hif.mps 5 := Nat.one_le_two_pow
  unfold payloadBytes tlpBytes
  omega

theorem hostWrite_single {fn addr : Nat} {data : List Byte} (h₀ : 0 < data.length) (h : data.length ≤ 128) :
    s.hostWrite fn addr data = s.send (.hostWrite fn addr (s.ideOf fn) data) := by
  simp [hostWrite, tlps_single h₀ (h.trans s.payloadBytes_ge)]

/-! ### A fetched entry -/

theorem pushCpl_ring (p k : Nat) (c : Cpl) :
    (s.pushCpl p k c).ring p k = { s.ring p k with cpls := (s.ring p k).cpls ++ [c] } := by
  unfold pushCpl
  rw [ring_modRing_same]
  split <;> rfl

theorem completeEntry_ring (s : State) (p k status tag sqHead : Nat) (irq : Bool) (dl : Option Nat) :
    ∃ e, (s.completeEntry p k status tag irq sqHead dl).ring p k = { s.ring p k with job := none, cpls := (s.ring p k).cpls ++ [e] } ∧
      e.status = status ∧ e.tag = tag ∧ e.sqHead = sqHead ∧ e.interim = false := by
  unfold completeEntry
  dsimp only
  rw [pushCpl_ring, ring_modRing_same]
  exact ⟨_, rfl, rfl, rfl, rfl, rfl⟩

/-- A host read whose completion has come is no longer open. -/
def readAnswered (s : State) (tag : Nat) : State := { s with hif := { s.hif with reads := tdel s.hif.reads tag } }

/-- The ring's entry is taken, with the oldest doorbell stamp. -/
def entryTaken (s : State) (p k : Nat) : State :=
  s.modRing p k (fun r => { r with fetch := none, stamps := (popStamp r.stamps).2 })

/-- The job that an entry of a ring makes. -/
def entryJob (r : Ring) (d : List Byte) (dl : Nat) : Job :=
  { irq := bitAt (fieldAt d 1 1) 0, notify := bitAt (fieldAt d 1 1) 2, tag := fieldAt d 2 2, bays := fieldAt d 4 1, bg := r.bg, dl := dl,
    sqHead := r.sqHead, args := (List.range 6).map (fun i => BitVec.ofNat 64 (fieldAt d (16 + 8 * i) 8)) }

section

variable (hf : (s.ring p k).fetch = some tag) (hen : (s.ring p k).en = true) (ht : (s.pdk p).st ≠ .teardown) (he : (s.pdk p).st ≠ .empty)
include hf hen ht he

/-- An entry that a paddock at work fetches: answered at once, or made the ring's job. -/
theorem takeEntry_cases : (∃ status dl, entryStatus (s.needBays p) d = some status ∧
      s.takeEntry p k d = (s.entryTaken p k).completeEntry p k status (fieldAt d 2 2) (bitAt (fieldAt d 1 1) 0) (s.ring p k).sqHead dl) ∨
    (entryStatus (s.needBays p) d = none ∧ ∃ dl, s.takeEntry p k d = (s.entryTaken p k).modRing p k (fun r =>
      { r with job := some (entryJob r d dl) })) := by
  unfold takeEntry entryTaken
  simp only [hf, pdk_modRing, ht, he, hen, decide_false, Bool.or_self, Bool.not_true, Bool.false_eq_true, if_false]
  unfold entryStatus malformed
  split
  · exact .inl ⟨_, _, rfl, rfl⟩
  · split
    · exact .inl ⟨_, _, rfl, rfl⟩
    · split
      · exact .inl ⟨_, _, rfl, rfl⟩
      · by_cases hn : fieldAt d 4 1 > s.needBays p
        · exact .inl ⟨_, _, if_pos hn, if_pos hn⟩
        · exact .inr ⟨if_neg hn, _, if_neg hn⟩

theorem takeEntry_answers {status : Nat} (h : entryStatus (s.needBays p) d = some status) : ∃ e, (s.takeEntry p k d).ring p k =
    { s.ring p k with fetch := none, stamps := (popStamp (s.ring p k).stamps).2, job := none, cpls := (s.ring p k).cpls ++ [e] } ∧
    e.status = status ∧ e.tag = fieldAt d 2 2 ∧ e.sqHead = (s.ring p k).sqHead ∧ e.interim = false := by
  rcases s.takeEntry_cases hf hen ht he (d := d) with ⟨status', dl, h', heq⟩ | ⟨h', -⟩
  · obtain rfl : status' = status := Option.some.inj (h'.symm.trans h)
    obtain ⟨e, hring, hfields⟩ := (s.entryTaken p k).completeEntry_ring p k status' (fieldAt d 2 2) (s.ring p k).sqHead
      (bitAt (fieldAt d 1 1) 0) dl
    have htaken : (s.entryTaken p k).ring p k = { s.ring p k with fetch := none, stamps := (popStamp (s.ring p k).stamps).2 } :=
      ring_modRing_same ..
    exact ⟨e, by rw [heq, hring, htaken], hfields⟩
  · exact absurd (h'.symm.trans h) nofun

theorem takeEntry_queues (h : entryStatus (s.needBays p) d = none) : ∃ dl, s.takeEntry p k d = s.modRing p k (fun r =>
    { r with fetch := none, stamps := (popStamp r.stamps).2, job := some (entryJob r d dl) }) := by
  rcases s.takeEntry_cases hf hen ht he (d := d) with ⟨status', dl, h', -⟩ | ⟨-, dl, heq⟩
  · exact absurd (h'.symm.trans h) nofun
  · exact ⟨dl, heq.trans (modRing_modRing ..)⟩

end

/-! ### What only sends -/

theorem out_msix (fn v : Nat) : s.out <+: (s.msix fn v).out := by
  unfold msix
  split
  · exact List.prefix_rfl
  · exact List.prefix_append ..

theorem out_msixFlush (fn : Nat) : s.out <+: (s.msixFlush fn).out := by
  unfold msixFlush
  rw [foldl_send_msix]
  exact List.prefix_append ..

theorem out_hostRead (fn addr len : Nat) (what : HostReadFor) : s.out <+: (s.hostRead fn addr len what).out := by
  unfold hostRead
  exact List.foldlRecOn (motive := fun t : State => s.out <+: t.out) _ _ List.prefix_rfl fun t h e _ => h.trans (List.prefix_append ..)

theorem out_fetchNext (p k : Nat) : s.out <+: (s.fetchNext p k).out := by
  unfold fetchNext
  dsimp only
  split
  · exact out_hostRead ..
  · exact List.prefix_rfl

/-! ### A completion entry -/

theorem writeCpl_waits (h : (s.ring p k).cpls = [] ∨ s.canMaster (p + 1) = false ∨
    ((s.ring p k).cqTail + 1) % 2 ^ (s.ring p k).cqLog = (s.ring p k).cqHead) (ok kept : Bool) : s.writeCpl p k ok kept = s := by
  unfold writeCpl
  dsimp only
  split
  · rfl
  · next hc =>
    rw [hc] at h
    rcases h with h | h | h
    · exact absurd h (List.cons_ne_nil _ _)
    · exact if_pos (by simp [h])
    · rw [if_pos h, ite_self]

variable {c : Cpl} {rest : List Cpl}

theorem writeCpl_fails (hc : (s.ring p k).cpls = c :: rest) (hm : s.canMaster (p + 1) = true)
    (hr : ¬((s.ring p k).cqTail + 1) % 2 ^ (s.ring p k).cqLog = (s.ring p k).cqHead) (kept : Bool) :
    s.writeCpl p k false kept = s.ringFault p k := by
  simp [writeCpl, hc, hm, hr]

/-- A ring after its oldest completion has been written. -/
def cplWritten (c : Cpl) (rest : List Cpl) (r : Ring) : Ring :=
  { r with
    cqTail := (r.cqTail + 1) % 2 ^ r.cqLog
    phase := if (r.cqTail + 1) % 2 ^ r.cqLog = 0 then !r.phase else r.phase
    cpls := rest
    job := if c.interim then r.job else none
    stopped := if c.interim then r.stopped else !r.en
    slot := if c.interim || r.en then r.slot else none }

/-- A completion that is written: its entry first, then perhaps its vector's message and the fetch of the next submission entry. -/
theorem writeCpl_writes (hc : (s.ring p k).cpls = c :: rest) (hm : s.canMaster (p + 1) = true)
    (hr : ¬((s.ring p k).cqTail + 1) % 2 ^ (s.ring p k).cqLog = (s.ring p k).cqHead) (kept : Bool) :
    (∃ fetch head, (s.writeCpl p k true kept).ring p k = { cplWritten c rest (s.ring p k) with fetch := fetch, sqHead := head }) ∧
    s.out ++ [.hostWrite (p + 1) ((s.ring p k).cq + 32 * (s.ring p k).cqTail) (s.ideOf (p + 1)) (c.bytes (s.ring p k).phase k)] <+:
      (s.writeCpl p k true kept).out := by
  have hlen := c.length_bytes (s.ring p k).phase k
  unfold writeCpl
  dsimp only
  rw [hc]
  dsimp only
  rw [if_neg (by simp [hm]), if_neg hr, if_neg (by simp), hostWrite_single (by omega) (by omega)]
  generalize hu : State.modRing (send ..) p k _ = u
  have hring : u.ring p k = cplWritten c rest (s.ring p k) := by
    rw [← hu, ring_modRing_same]
    rfl
  have hout : u.out = s.out ++ [.hostWrite (p + 1) ((s.ring p k).cq + 32 * (s.ring p k).cqTail) (s.ideOf (p + 1))
      (c.bytes (s.ring p k).phase k)] := by
    rw [← hu]
    rfl
  rw [← hring, ← hout]
  generalize hw : (if (!c.irq) = true then u else _) = w
  have hnotify : w.calm = u.calm ∧ u.out <+: w.out := by
    rw [← hw]
    split
    · exact ⟨rfl, List.prefix_rfl⟩
    · split
      · exact ⟨(msixFlush_calm ..).trans (modFn_calm ..), out_msixFlush (s := u.setPba ..) _⟩
      · exact ⟨msix_calm .., out_msix ..⟩
  rw [← ring_of_calm hnotify.1]
  exact ⟨w.fetchNext_ring p k, hnotify.2.trans (out_fetchNext p k)⟩

theorem ringFault_cqTail : ((s.ringFault p k).ring p k).cqTail = (s.ring p k).cqTail := by
  unfold ringFault
  rw [pdkEv_ring, ring_modRing_same]

end State

end Sys2Proof.Machine

namespace Sys2Proof.Proofs

open Sys2Proof Sys2Proof.Machine Sys2Proof.Claims

section

variable {s : State} {p : PdkId} {k : Fin 256} {tag : Nat} {d : List Byte} {c : Cpl} {rest : List Cpl}

theorem exec_sqEntry_fetched (hf : (s.ring p k).fetch = some tag) :
    exec (.sqEntry p k d) s = .next ((s.readAnswered tag).takeEntry p k d) := by
  change execSqEntry p k d s = _
  rw [execSqEntry, hf]
  rfl

theorem exec_sqEntry_unfetched (hf : (s.ring p k).fetch = none) : exec (.sqEntry p k d) s = .next s := by
  change execSqEntry p k d s = _
  rw [execSqEntry, hf]

/-- An entry that runs nothing is answered with its status. -/
theorem sqEntry_answers (hf : (s.ring p k).fetch = some tag) (hen : (s.ring p k).en = true) (ht : (s.pdk p).st ≠ .teardown)
    (he : (s.pdk p).st ≠ .empty) {status : Nat} (h : entryStatus (s.needBays p) d = some status) :
    Gives (.sqEntry p k d) s (fun t => (t.ring p k).fetch = none ∧ (t.ring p k).job = none ∧ t.mem = s.mem ∧
      ∃ e, (t.ring p k).cpls = (s.ring p k).cpls ++ [e] ∧ e.status = status ∧ e.tag = fieldAt d 2 2 ∧ e.sqHead = (s.ring p k).sqHead ∧
        e.interim = false) := by
  obtain ⟨e, hring, hfields⟩ := State.takeEntry_answers (s := s.readAnswered tag) hf hen ht he h
  refine ⟨_, exec_sqEntry_fetched hf, ?_⟩
  beta_reduce
  rw [hring]
  exact ⟨rfl, rfl, State.mem_of_kept (State.takeEntry_kept ..), e, rfl, hfields⟩

/-- An entry of a job that can run becomes the ring's waiting job. -/
theorem sqEntry_queues (hf : (s.ring p k).fetch = some tag) (hen : (s.ring p k).en = true) (ht : (s.pdk p).st ≠ .teardown)
    (he : (s.pdk p).st ≠ .empty) (h : entryStatus (s.needBays p) d = none) :
    Gives (.sqEntry p k d) s (fun t => (t.ring p k).fetch = none ∧ t.mem = s.mem ∧ t.out = s.out ∧ (t.ring p k).cpls = (s.ring p k).cpls ∧
      ∃ j, (t.ring p k).job = some j ∧ j.ph = .waiting ∧ j.bays = fieldAt d 4 1 ∧ j.bg = (s.ring p k).bg ∧ j.tag = fieldAt d 2 2 ∧
        ∀ i, i < 6 → j.args.getD i 0 = BitVec.ofNat 64 (fieldAt d (16 + 8 * i) 8)) := by
  obtain ⟨dl, heq⟩ := State.takeEntry_queues (s := s.readAnswered tag) hf hen ht he h
  refine ⟨_, (exec_sqEntry_fetched hf).trans (congrArg Host.Outcome.next heq), ?_⟩
  beta_reduce
  rw [State.ring_modRing_same]
  refine ⟨rfl, rfl, rfl, rfl, _, rfl, rfl, rfl, rfl, rfl, fun i hi => ?_⟩
  simp [State.entryJob, hi]

end

/-- Settles O45: an entry is answered by `entryStatus` or queued, and a completion waits, faults its ring or is written. -/
theorem entriesAndCompletions : Obligations.EntriesAndCompletions := by
  unfold Obligations.EntriesAndCompletions
  intro s p k tag d c rest r kind fl bays wellFormed answered full
  have formed (h : wellFormed) : ¬malformed d = true := fun hm => (malformed_iff d).mp hm h
  have jobStatus (h : wellFormed) (hk : kind = 1) : entryStatus (s.needBays p) d =
      if bays = 0 then some Status.okZero else if s.needBays p < bays then some Status.resourceShort else none := by
    rw [entryStatus, if_neg (formed h), if_neg (by omega)]
  refine ⟨fun hf => ?unfetched, fun hf hen _ ht he => ⟨fun h => ?malformed, fun h hk => ?nop, fun h hk hb => ?zero, fun h hk hb => ?short,
    fun h hk hb hn => ?job⟩, fun h ok => ?waits, fun hc hm hr => ⟨?writes, ?fails⟩⟩
  case unfetched => exact exec_sqEntry_unfetched hf
  case malformed => exact sqEntry_answers hf hen ht he (if_pos ((malformed_iff d).mpr h))
  case nop => exact sqEntry_answers hf hen ht he (by rw [entryStatus, if_neg (formed h), if_pos hk])
  case zero => exact sqEntry_answers hf hen ht he ((jobStatus h hk).trans (if_pos hb))
  case short => exact sqEntry_answers hf hen ht he ((jobStatus h hk).trans ((if_neg (by omega)).trans (if_pos hb)))
  case job => exact sqEntry_queues hf hen ht he ((jobStatus h hk).trans ((if_neg hb).trans (if_neg (by omega))))
  case waits => exact congrArg Host.Outcome.next (State.writeCpl_waits h ok false)
  case writes =>
    obtain ⟨⟨fetch, head, hring⟩, more, hout⟩ := State.writeCpl_writes hc hm hr false
    refine ⟨_, rfl, ?_⟩
    beta_reduce
    rw [hring]
    exact ⟨rfl, rfl, rfl, State.mem_of_kept (State.writeCpl_kept ..), rfl, more, by rw [← hout]; simp [r]⟩
  case fails =>
    obtain ⟨hen, hfault, -, hcpls⟩ := s.ringFault_ring p k
    refine ⟨_, congrArg Host.Outcome.next (State.writeCpl_fails hc hm hr false), hen, hfault, hcpls, State.ringFault_cqTail, ?_⟩
    exact State.mem_of_kept (State.ringFault_kept ..)

end Sys2Proof.Proofs
end

section
/-! What a change of a paddock's state, and what a stop of bays, leaves alone (05 R133, R134, R164): everything but the paddocks and
messages, and everything but the bays. -/

namespace Sys2Proof.Machine

namespace State

variable {s t : State}

/-- The state without its paddocks and without what messages, events and log records write. -/
def unhoused (s : State) : State := { s.calm with pdks := [] }

/-- The state without its bays. -/
def unbayed (s : State) : State := { s with bays := [] }

theorem unhoused_of_calm (h : t.calm = s.calm) : t.unhoused = s.unhoused := congrArg (fun u : State => { u with pdks := [] }) h

theorem core_of_unhoused (h : t.unhoused = s.unhoused) (n : Nat) : t.core n = s.core n := (congrArg (fun u : State => u.core n) h :)
theorem bay_of_unhoused (h : t.unhoused = s.unhoused) (b : Nat) : t.bay b = s.bay b := (congrArg (fun u : State => u.bay b) h :)
theorem ring_of_unhoused (h : t.unhoused = s.unhoused) (p k : Nat) : t.ring p k = s.ring p k :=
  (congrArg (fun u : State => u.ring p k) h :)
theorem rings_of_unhoused (h : t.unhoused = s.unhoused) : t.rings = s.rings := (congrArg State.rings h :)
theorem saves_of_unhoused (h : t.unhoused = s.unhoused) : t.saves = s.saves := (congrArg State.saves h :)

theorem core_of_unbayed (h : t.unbayed = s.unbayed) (n : Nat) : t.core n = s.core n := (congrArg (fun u : State => u.core n) h :)
theorem ring_of_unbayed (h : t.unbayed = s.unbayed) (p k : Nat) : t.ring p k = s.ring p k :=
  (congrArg (fun u : State => u.ring p k) h :)
theorem pdk_of_unbayed (h : t.unbayed = s.unbayed) (p : Nat) : t.pdk p = s.pdk p := (congrArg (fun u : State => u.pdk p) h :)

@[simp] theorem modPdk_unhoused (p : Nat) (f : Pdk → Pdk) : (s.modPdk p f).unhoused = s.unhoused := rfl

@[simp] theorem schEv_unhoused (b p : Nat) : (s.schEv b p).unhoused = s.unhoused := unhoused_of_calm (schEv_calm ..)

@[simp] theorem pdkEv_unhoused (p b : Nat) : (s.pdkEv p b).unhoused = s.unhoused := by
  rcases s.pdkEv_calm p b with h | h
  · exact unhoused_of_calm h
  · exact (unhoused_of_calm h).trans rfl

@[simp] theorem setPdkSt_unhoused (p : Nat) (st : PdkSt) : (s.setPdkSt p st).unhoused = s.unhoused := by
  simp only [setPdkSt]
  repeat' split
  all_goals simp

@[simp] theorem settlePdk_unhoused (p : Nat) : (s.settlePdk p).unhoused = s.unhoused := by
  unfold settlePdk
  split
  · exact setPdkSt_unhoused ..
  · rfl

@[simp] theorem unreserve_unbayed (b : Nat) : (s.unreserve b).unbayed = s.unbayed := rfl

@[simp] theorem stopBay_unbayed (b : Nat) (why : StopWhy) : (s.stopBay b why).unbayed = s.unbayed := by
  unfold stopBay
  split
  · rfl
  · refine foldl_proj unbayed (fun t c => ?_) _
    split <;> rfl

theorem suspendBays_unbayed (p : Nat) (why : StopWhy) : (s.suspendBays p why).unbayed = s.unbayed := by
  rw [suspendBays, foldl_proj unbayed (fun t b => stopBay_unbayed b why), foldl_proj unbayed]
  intro t b
  split <;> rfl

/-- A suspension leaves the cores to stop when the bays' stops reach them. -/
theorem suspendFor_core (p : Nat) (f : Susp → Susp) (why : StopWhy) (n : Nat) : (s.suspendFor p f why).core n = s.core n := by
  have hbays : ((s.modPdk p (fun d => { d with susp := f d.susp })).suspendBays p why).core n = s.core n :=
    core_of_unbayed (suspendBays_unbayed (s := s.modPdk p _) p why) n
  unfold suspendFor
  dsimp only
  split
  · rw [core_of_unhoused (setPdkSt_unhoused ..), hbays]
  · rw [core_of_unhoused (setPdkSt_unhoused ..), hbays]
  · split
    · exact hbays
    · rfl
  · rfl

/-! ### The events of a suspension and of its end (05 R133, PDK_EVENT) -/

theorem bitAt_setPdkSt_suspended {p : Nat} (h : (s.pdk p).st ≠ .suspended) :
    bitAt ((s.setPdkSt p .suspended).pdk p).event.toNat 2 = true := by
  unfold setPdkSt
  dsimp only
  rw [if_neg h, if_pos rfl]
  exact bitAt_pdkEv p (by omega)

theorem bitAt_setPdkSt_runnable {p : Nat} (h : (s.pdk p).st = .suspended) :
    bitAt ((s.setPdkSt p .runnable).pdk p).event.toNat 3 = true := by
  unfold setPdkSt
  simp only [h, reduceCtorEq, if_false, if_true]
  exact bitAt_pdkEv p (by omega)

/-- A paddock that settles between RUNNABLE and RUNNING raises none of its own events. -/
theorem settlePdk_event {p : Nat} (h : (s.pdk p).st = .runnable) :
    ((s.settlePdk p).pdk p).event = (s.pdk p).event ∧ ((s.settlePdk p).pdk p).susp = (s.pdk p).susp := by
  unfold settlePdk setPdkSt
  rw [if_pos (.inl h)]
  simp only [h, reduceCtorEq, if_false]
  split
  · exact ⟨rfl, rfl⟩
  · simp

theorem bitAt_suspendFor {p : Nat} (f : Susp → Susp) (why : StopWhy) (h : (s.pdk p).st = .runnable ∨ (s.pdk p).st = .running) :
    bitAt ((s.suspendFor p f why).pdk p).event.toNat 2 = true := by
  have hev := bitAt_setPdkSt_suspended (s := (s.modPdk p (fun d => { d with susp := f d.susp })).suspendBays p why) (p := p)
    (by rw [suspendBays_pdk, pdk_modPdk_same]; rcases h with h | h <;> simp [h])
  unfold suspendFor
  rcases h with h | h <;> rw [h] <;> exact hev

/-- The last cause gone: the paddock raises RESUMED, and no cause stands. -/
theorem resumeFor_resumes {p : Nat} {f : Susp → Susp} (hs : (s.pdk p).st = .suspended) (h : (f (s.pdk p).susp).any = false) :
    bitAt ((s.resumeFor p f).pdk p).event.toNat 3 = true ∧ ((s.resumeFor p f).pdk p).susp = f (s.pdk p).susp := by
  have hrun := setPdkSt_pdk_same (s := s.modPdk p (fun d => { d with susp := f d.susp })) p .runnable
  have hev := bitAt_setPdkSt_runnable (s := s.modPdk p (fun d => { d with susp := f d.susp })) (p := p) (by rw [pdk_modPdk_same]; exact hs)
  have hany : ¬((s.modPdk p (fun d => { d with susp := f d.susp })).pdk p).susp.any = true := by
    rw [pdk_modPdk_same]
    exact ne_true_of_eq_false h
  obtain ⟨hevent, hsusp⟩ := settlePdk_event hrun.1
  unfold resumeFor
  rw [if_pos hs]
  dsimp only
  rw [if_neg hany, pdk_of_unrung (fetchAll_unrung p), hevent, hsusp, hrun.2, pdk_modPdk_same]
  exact ⟨hev, rfl⟩

theorem resumeFor_stays {p : Nat} {f : Susp → Susp} (hs : (s.pdk p).st = .suspended) (h : (f (s.pdk p).susp).any = true) :
    s.resumeFor p f = s.modPdk p (fun d => { d with susp := f d.susp }) := by
  unfold resumeFor
  rw [if_pos hs]
  exact if_pos (by rwa [pdk_modPdk_same])

theorem resumeFor_running {p : Nat} {f : Susp → Susp} (hs : (s.pdk p).st ≠ .suspended) : s.resumeFor p f = s := if_neg hs

theorem suspendFor_again {p : Nat} {f : Susp → Susp} (hs : (s.pdk p).st = .suspended) :
    s.suspendFor p f .suspend = s.modPdk p (fun d => { d with susp := f d.susp }) := by
  unfold suspendFor
  rw [hs]
  rfl

end State

theorem Susp.any_eq_false {u : Susp} (h : u.any = false) : u = {} := by
  obtain ⟨op, d3vf, d3pf, bme, trip⟩ := u
  simpa [Susp.any, and_assoc] using h

end Sys2Proof.Machine

namespace Sys2Proof.Proofs

open Sys2Proof Sys2Proof.Machine Sys2Proof.Claims

variable {s : State} {p : PdkId}

theorem suspend_active (h : (s.pdk p).st = .runnable ∨ (s.pdk p).st = .running) : Gives (.suspend p) s (fun t =>
    (t.pdk p).st = .suspended ∧ (t.pdk p).susp.op = true ∧ bitAt (t.pdk p).event.toNat 2 = true ∧ t.mem = s.mem ∧
    (∀ n, t.core n = s.core n) ∧ ∀ b, b < 16 → (s.bay b).holder = some p.val → (t.bay b).stopping ≠ none) := by
  have hactive : s.active p := h.imp id .inl
  have hs : (s.pdk p).st ≠ .suspended := by rcases h with h | h <;> simp [h]
  obtain ⟨hst, hsusp⟩ := State.suspendFor_pdk_same p.val (fun u => { u with op := true }) .suspend hactive
  exact ⟨_, rfl, hst, congrArg Susp.op hsusp, State.bitAt_suspendFor _ _ h, State.mem_of_kept (State.suspendFor_kept ..),
    State.suspendFor_core _ _ _, fun b => State.suspendFor_stops _ _ hactive hs⟩

theorem resume_last (hs : (s.pdk p).st = .suspended) (hu : (s.pdk p).susp = { op := true }) : Gives (.resume p) s (fun t =>
    (t.pdk p).st = (if s.baysOf p = [] then .runnable else .running) ∧ (t.pdk p).susp = {} ∧
    bitAt (t.pdk p).event.toNat 3 = true ∧ t.mem = s.mem) := by
  have hnone : ({ (s.pdk p).susp with op := false } : Susp) = {} := by rw [hu]
  have hany : ({ (s.pdk p).susp with op := false } : Susp).any = false := by rw [hnone]; rfl
  obtain ⟨hev, hsusp⟩ := State.resumeFor_resumes (f := fun u => { u with op := false }) hs hany
  exact ⟨_, rfl, State.resumeFor_last hs hany, hsusp.trans hnone, hev, State.mem_of_kept (State.resumeFor_kept ..)⟩

theorem resume_held (hs : (s.pdk p).st = .suspended) (hu : ({ (s.pdk p).susp with op := false } : Susp) ≠ {}) :
    Gives (.resume p) s (fun t => (t.pdk p).st = .suspended ∧ (t.pdk p).susp.op = false ∧ t.mem = s.mem ∧ t.out = s.out) := by
  have hany : ({ (s.pdk p).susp with op := false } : Susp).any = true := eq_true_of_ne_false (mt Susp.any_eq_false hu)
  refine ⟨_, congrArg Host.Outcome.next (State.resumeFor_stays (f := fun u => { u with op := false }) hs hany), ?_⟩
  beta_reduce
  rw [State.pdk_modPdk_same]
  exact ⟨hs, rfl, rfl, rfl⟩

end Sys2Proof.Proofs
end

section
/-! Teardown (05 R133, R170, R171; 06 R186, R193): its first steps on rings, bays and cores, the bays that it drops, and its last steps. -/

namespace Sys2Proof.Machine

/-- A ring as a teardown stops it. -/
def Ring.tornDown (r : Ring) : Ring :=
  { r with en := false, fetch := none, job := none, cpls := [], stopped := true, slot := none, stamps := [] }

/-- A bay as a teardown of the paddock that holds it stops it. -/
def Bay.tornDown (x : Bay) : Bay :=
  { x with job := none, stopped := true, withdrawn := false, stopping := x.stopping.filter State.leavesService }

/-- A core as a teardown of its bay's paddock stops it. -/
def Core.tornDown (c : Core) : Core := { c with running := false, queue := [], gather := [], cause := none }

/-- No register, vector or scratchpad row of a core holds a value. -/
def Core.Blank (c : Core) : Prop := c.x = [] ∧ c.spad = [] ∧ c.w = []

namespace State

variable {s t : State} {p : Nat}

/-! ### Steps 1 and 2: rings -/

/-- Every ring of a paddock stopped. -/
def stopRings (s : State) (p : Nat) : State := (s.ringsOf p).foldl (fun t k => t.modRing p k Ring.tornDown) s

/-- A ring takes no entry and has no job. -/
def ringIdle (s : State) (p k : Nat) : Prop := (s.ring p k).en = false ∧ (s.ring p k).job = none

theorem ringIdle_modRing {k : Nat} (l : Nat) (h : s.ringIdle p k) : (s.modRing p l Ring.tornDown).ringIdle p k := by
  unfold ringIdle at *
  by_cases hl : k = l
  · rw [hl, ring_modRing_same]
    exact ⟨rfl, rfl⟩
  · rwa [ring_modRing_ne _ _ _ _ _ _ (by omega)]

theorem mem_ringsOf {k : Nat} {r : Ring} (hk : k < 256) (h : (p * 256 + k, r) ∈ s.rings) : k ∈ s.ringsOf p :=
  List.mem_map.mpr ⟨_, List.mem_filter.mpr ⟨h, decide_eq_true (by dsimp only; omega)⟩, by dsimp only; omega⟩

theorem stopRings_idle {k : Nat} (hk : k < 256) : (s.stopRings p).ringIdle p k := by
  rcases tget_default_or_mem {} s.rings (p * 256 + k) with h | h
  · exact List.foldlRecOn (motive := fun t : State => t.ringIdle p k) _ _
      ⟨congrArg Ring.en h, congrArg Ring.job h⟩ fun _ ht l _ => ringIdle_modRing l ht
  · refine foldl_establishes (P := fun t : State => t.ringIdle p k) (fun _ l ht => ringIdle_modRing l ht) (fun t => ?_)
      (mem_ringsOf hk h) s
    unfold ringIdle
    rw [ring_modRing_same]
    exact ⟨rfl, rfl⟩

/-! ### Steps 1 and 2: bays and cores -/

/-- The cores of a bay stopped. -/
def stopCores (s : State) (b : Nat) : State := (coresOf b).foldl (fun t n => t.modCore n Core.tornDown) s

theorem stopCores_bay (b c : Nat) : (s.stopCores b).bay c = s.bay c := foldl_proj (bay · c) (fun t n => bay_modCore t n _ c) _

theorem modCore_tornDown_keeps {n : Nat} (m : Nat) (h : (s.core n).running = false) :
    ((s.modCore m Core.tornDown).core n).running = false := by
  by_cases hm : n = m
  · rw [hm, core_modCore_same]
    rfl
  · rwa [core_modCore_ne _ _ _ _ hm]

theorem stopCores_keeps {n : Nat} (b : Nat) (h : (s.core n).running = false) : ((s.stopCores b).core n).running = false :=
  List.foldlRecOn (motive := fun t : State => (t.core n).running = false) _ _ h fun _ ht m _ => modCore_tornDown_keeps m ht

theorem stopCores_stops {b n : Nat} (hn : n ∈ coresOf b) : ((s.stopCores b).core n).running = false :=
  foldl_establishes (P := fun t : State => (t.core n).running = false) (fun _ m h => modCore_tornDown_keeps m h)
    (fun t => by rw [core_modCore_same]; rfl) hn s

/-- A bay's hold for a job of the paddock dropped, and the bay stopped where the paddock holds it. -/
def stopHeld (p : Nat) (s : State) (b : Nat) : State :=
  let x := s.bay b
  let s := match x.next with
    | some (q, _, _) => if q = p then s.unreserve b else s
    | none => s
  if x.holder = some p then (s.stopCores b).modBay b Bay.tornDown else s

/-- The first part of `stopHeld`, whatever it does, is to the bay's hold. -/
theorem stopHeld_cases (b : Nat) : ∃ u : State, (u = s ∨ u = s.unreserve b) ∧
    stopHeld p s b = if (s.bay b).holder = some p then (u.stopCores b).modBay b Bay.tornDown else u := by
  unfold stopHeld
  extract_lets x u
  refine ⟨u, ?_, rfl⟩
  simp only [u]
  split
  · split
    · exact .inr rfl
    · exact .inl rfl
  · exact .inl rfl

theorem stopHeld_rings (b : Nat) : (stopHeld p s b).rings = s.rings := by
  obtain ⟨u, hu, heq⟩ := stopHeld_cases (s := s) (p := p) b
  have hrings : u.rings = s.rings := by rcases hu with rfl | rfl <;> rfl
  rw [heq]
  split
  · exact (foldl_proj (s := u) (f := fun t n => t.modCore n Core.tornDown) State.rings (fun _ _ => rfl) _).trans hrings
  · exact hrings

theorem stopHeld_bay_ne {b c : Nat} (h : c ≠ b) : (stopHeld p s b).bay c = s.bay c := by
  obtain ⟨u, hu, heq⟩ := stopHeld_cases (s := s) (p := p) b
  have hbay : u.bay c = s.bay c := by
    rcases hu with rfl | rfl
    · rfl
    · exact bay_modBay_ne _ _ _ _ h
  rw [heq]
  split
  · rw [bay_modBay_ne _ _ _ _ h, stopCores_bay, hbay]
  · exact hbay

theorem stopHeld_keeps {n : Nat} (b : Nat) (h : (s.core n).running = false) : ((stopHeld p s b).core n).running = false := by
  obtain ⟨u, hu, heq⟩ := stopHeld_cases (s := s) (p := p) b
  have hcore : (u.core n).running = false := by rcases hu with rfl | rfl <;> exact h
  rw [heq]
  split
  · rw [core_modBay]
    exact stopCores_keeps b hcore
  · exact hcore

/-- A bay of the paddock, with no job and with its cores stopped. -/
def bayStopped (s : State) (p b : Nat) : Prop :=
  (s.bay b).holder = some p ∧ (s.bay b).job = none ∧ (s.bay b).stopped = true ∧ ∀ n ∈ coresOf b, (s.core n).running = false

theorem stopHeld_stops {b : Nat} (h : (s.bay b).holder = some p) : (stopHeld p s b).bayStopped p b := by
  obtain ⟨u, hu, heq⟩ := stopHeld_cases (s := s) (p := p) b
  have hholder : (u.bay b).holder = some p := by
    rcases hu with rfl | rfl
    · exact h
    · rwa [unreserve, bay_modBay_same]
  rw [heq, if_pos h]
  unfold bayStopped
  rw [bay_modBay_same, stopCores_bay]
  refine ⟨hholder, rfl, rfl, fun n hn => ?_⟩
  rw [core_modBay]
  exact stopCores_stops hn

theorem stopHeld_keepsStopped {b : Nat} (c : Nat) (h : s.bayStopped p b) : (stopHeld p s c).bayStopped p b := by
  obtain ⟨hholder, hjob, hstopped, hcores⟩ := h
  by_cases hc : b = c
  · subst hc
    exact stopHeld_stops hholder
  · unfold bayStopped
    rw [stopHeld_bay_ne hc]
    exact ⟨hholder, hjob, hstopped, fun n hn => stopHeld_keeps c (hcores n hn)⟩

/-! ### Steps 1 and 2 -/

/-- The paddock's engines fenced, and its Yard operations given up. -/
def fenceEngines (s : State) (p : Nat) : State :=
  ((s.tmbFence p).fabFence p).modYard (fun y => { y with ops := y.ops.filter (fun e => e.2.pdk ≠ p) })

theorem fenceEngines_rings : (s.fenceEngines p).rings = s.rings := rfl
theorem fenceEngines_bay (b : Nat) : (s.fenceEngines p).bay b = s.bay b := rfl
theorem fenceEngines_core (n : Nat) : (s.fenceEngines p).core n = s.core n := rfl

/-- A paddock in TEARDOWN with its work stopped. -/
def workStopped (s : State) (p : Nat) (flr : Bool) : State :=
  ((List.range 16).foldl (stopHeld p) ((s.tornDown p flr).stopRings p)).fenceEngines p

theorem beginTeardown_eq {flr : Bool} (h : (s.pdk p).st ≠ .empty) (h' : (s.pdk p).st ≠ .teardown) :
    s.beginTeardown p flr =
      if !flr && (((s.workStopped p flr).tdi p).st = .locked || ((s.workStopped p flr).tdi p).st = .run)
      then (s.workStopped p flr).setTdi p (fun x => { x with st := .error }) else s.workStopped p flr := by
  unfold beginTeardown
  split
  · contradiction
  · contradiction
  · rfl

/-- What the TDI's state does not concern is as the work stopped leaves it. -/
theorem beginTeardown_reads {β : Type} (g : State → β) (hg : ∀ t f, g (setTdi t p f) = g t) {flr : Bool} (h : (s.pdk p).st ≠ .empty)
    (h' : (s.pdk p).st ≠ .teardown) : g (s.beginTeardown p flr) = g (s.workStopped p flr) := by
  rw [beginTeardown_eq h h']
  split
  · exact hg ..
  · rfl

theorem tornDown_bay (flr : Bool) (b : Nat) : (s.tornDown p flr).bay b = s.bay b := by
  obtain ⟨r, l, ps, h, -⟩ := s.abandonLoad_rest (p + 1)
  rw [tornDown, setPdkSt_bay, h]
  rfl

theorem workStopped_ring (flr : Bool) {k : Nat} (hk : k < 256) : (s.workStopped p flr).ringIdle p k := by
  have hrings : (s.workStopped p flr).rings = ((s.tornDown p flr).stopRings p).rings := by
    rw [workStopped, fenceEngines_rings, foldl_proj State.rings (fun t b => stopHeld_rings b)]
  unfold ringIdle ring
  rw [hrings]
  exact stopRings_idle hk

theorem workStopped_bay (flr : Bool) {b : Nat} (hb : b < 16) (h : (s.bay b).holder = some p) : (s.workStopped p flr).bayStopped p b := by
  have hrings : ((s.tornDown p flr).stopRings p).bay b = s.bay b :=
    (foldl_proj (s := s.tornDown p flr) (f := fun t k => t.modRing p k Ring.tornDown) (bay · b) (fun _ _ => rfl) _).trans
      (tornDown_bay flr b)
  unfold bayStopped workStopped
  simp only [fenceEngines_bay, fenceEngines_core]
  exact foldl_reaches (P := fun t : State => t.bayStopped p b) (Q := fun t : State => (t.bay b).holder = some p)
    (fun t c hc ht => by rwa [stopHeld_bay_ne (Ne.symm hc)]) (fun t c ht => stopHeld_keepsStopped c ht) (fun t ht => stopHeld_stops ht)
    (List.mem_range.mpr hb) (by rwa [hrings])

theorem beginTeardown_held {p : Nat} (h : (s.pdk p).st ≠ .empty) (h' : (s.pdk p).st ≠ .teardown) (ht : s.held p) :
    ((s.beginTeardown p false).tdi p).st = .error := by
  obtain ⟨t, hworks, hbegin⟩ := beginTeardown_going (flr := false) h h'
  have hsec : t.sec = s.sec := by
    rw [hworks]
    exact (setPdkSt_sec ..).trans (abandonLoad_sec _)
  have htdi : t.tdi p = s.tdi p := by
    rw [tdi, hsec]
    rfl
  rw [hbegin, if_pos (by rw [htdi]; simpa [held] using ht), setTdi_tdi_same]

/-! ### Steps 3 to 5 -/

/-- The state without the fabric's tables and without messages. -/
def unlinked (s : State) : State := { s with fab := {}, out := [] }

theorem retireJob_unlinked (j : Nat) (tell : Bool) : (s.retireJob p j tell).unlinked = s.unlinked := by
  unfold retireJob
  dsimp only
  split
  · rfl
  · change State.unlinked (if (!tell) = true then s else _) = _
    split
    · rfl
    · refine foldl_proj unlinked (fun t r => ?_) _
      split <;> rfl

theorem pdk_of_unlinked (h : t.unlinked = s.unlinked) (q : Nat) : t.pdk q = s.pdk q := (congrArg (fun u : State => u.pdk q) h :)
theorem bay_of_unlinked (h : t.unlinked = s.unlinked) (b : Nat) : t.bay b = s.bay b := (congrArg (fun u : State => u.bay b) h :)

theorem fabRetireAll_unlinked : (s.fabRetireAll p).unlinked = s.unlinked := foldl_proj unlinked (fun _ j => retireJob_unlinked j true) _

theorem scrubCore_blank (n : Nat) : ((s.scrubCore n).core n).Blank := by
  rw [scrubCore, core_modCore_same]
  exact ⟨rfl, rfl, rfl⟩

theorem scrubCore_keeps_blank {n : Nat} (m : Nat) (h : (s.core n).Blank) : ((s.scrubCore m).core n).Blank := by
  by_cases hm : n = m
  · rw [hm]
    exact scrubCore_blank m
  · rwa [scrubCore_core_ne hm]

theorem scrubBay_blank {b n : Nat} (hn : n ∈ coresOf b) : ((s.scrubBay b).core n).Blank := by
  rw [scrubBay_core]
  exact foldl_establishes (P := fun t : State => (t.core n).Blank) (fun _ m h => scrubCore_keeps_blank m h)
    (fun _ => scrubCore_blank n) hn s

theorem scrubBay_keeps_blank {n : Nat} (b : Nat) (h : (s.core n).Blank) : ((s.scrubBay b).core n).Blank := by
  rw [scrubBay_core]
  exact List.foldlRecOn (motive := fun t : State => (t.core n).Blank) _ _ h fun _ ht m _ => scrubCore_keeps_blank m ht

theorem pdk_of_tenancy (h : t.tenancy = s.tenancy) (q : Nat) : t.pdk q = s.pdk q := (congrArg (fun u => tget {} u.1 q) h :)

theorem scrubBay_pdk (b q : Nat) : (s.scrubBay b).pdk q = s.pdk q := pdk_of_tenancy (scrubBay_tenancy b) q

theorem freeBay_core (b n : Nat) : (s.freeBay b).core n = s.core n := by
  unfold freeBay
  dsimp only
  split
  · exact core_of_unhoused (settlePdk_unhoused ..) n
  · rfl

theorem settlePdk_teardown {q : Nat} (h : (s.pdk p).st = .teardown) : (s.settlePdk q).pdk p = s.pdk p := by
  by_cases hq : p = q
  · rw [← hq, settlePdk, if_neg (by simp [h])]
  · exact settlePdk_pdk_ne hq

theorem freeBay_teardown (b : Nat) (h : (s.pdk p).st = .teardown) : (s.freeBay b).pdk p = s.pdk p := by
  unfold freeBay
  dsimp only
  split
  · exact settlePdk_teardown h
  · rfl

/-- A field of a bay other than its unit's state stands when a unit's state is told. -/
theorem setUnit_bay_reads {β : Type} (g : Bay → β) (hg : ∀ x u, g { x with unit_ := u } = g x) (b : BayId) (st : UnitSt) (c : Nat) :
    g ((s.setUnit (.bay b) st).bay c) = g (s.bay c) := by
  change g ((s.setUnitBoth (.bay b) st).bay c) = _
  by_cases hc : c = b
  · rw [hc, setUnitBoth_bay, hg]
  · rw [setUnitBoth_bay_ne st hc]

theorem setUnit_bay_core (b : BayId) (st : UnitSt) (n : Nat) : (s.setUnit (.bay b) st).core n = s.core n := setUnitBoth_bay_core b st n

theorem setUnit_bay_pdk (b : BayId) (st : UnitSt) (q : Nat) : (s.setUnit (.bay b) st).pdk q = s.pdk q := by
  unfold setUnit
  split
  · rfl
  · exact (congrArg (fun u : State => u.pdk q) (rasEv_calm _ 1) :)

/-- A bay that nobody holds, with its cores blank. -/
def bayBare (s : State) (b : Nat) : Prop := (s.bay b).holder = none ∧ ∀ n ∈ coresOf b, (s.core n).Blank

/-- A bay scrubbed and released, before its unit's state is told. -/
def bared (s : State) (b : Nat) : State := ((s.scrubBay b).freeBay b).modBay b (fun x => { x with scrubbed := true })

theorem dropBay_eq (b : Nat) : s.dropBay b = s.bared b ∨ s.dropBay b = (s.bared b).setUnit (.bay (Fin.ofNat 16 b)) .quarantined := by
  unfold dropBay
  dsimp only
  split
  · exact .inr rfl
  · exact .inl rfl

theorem dropBay_holder (b c : Nat) : ((s.dropBay b).bay c).holder = ((s.bared b).bay c).holder := by
  rcases s.dropBay_eq b with h | h <;> rw [h]
  exact setUnit_bay_reads Bay.holder (fun _ _ => rfl) ..

theorem bared_core (b n : Nat) : (s.bared b).core n = (s.scrubBay b).core n := by rw [bared, core_modBay, freeBay_core]

theorem dropBay_core (b n : Nat) : (s.dropBay b).core n = (s.scrubBay b).core n := by
  rw [← bared_core]
  rcases s.dropBay_eq b with h | h <;> rw [h]
  exact setUnit_bay_core ..

theorem dropBay_teardown (b : Nat) (h : (s.pdk p).st = .teardown) : (s.dropBay b).pdk p = s.pdk p := by
  have hbared : (s.bared b).pdk p = s.pdk p := by
    rw [bared, pdk_modBay, freeBay_teardown b (by rwa [scrubBay_pdk]), scrubBay_pdk]
  rw [← hbared]
  rcases s.dropBay_eq b with h | h <;> rw [h]
  exact setUnit_bay_pdk ..

theorem dropBay_bares (b : Nat) : (s.dropBay b).bayBare b := by
  refine ⟨?_, fun n hn => ?_⟩
  · rw [dropBay_holder, bared, bay_modBay_same, freeBay_holder_same]
  · rw [dropBay_core]
    exact scrubBay_blank hn

theorem dropBay_keeps {b : Nat} (c : Nat) (h : s.bayBare b) : (s.dropBay c).bayBare b := by
  by_cases hc : b = c
  · subst hc
    exact dropBay_bares b
  · refine ⟨?_, fun n hn => ?_⟩
    · rw [dropBay_holder, bared, bay_modBay_ne _ _ _ _ hc, freeBay_bay_ne hc, scrubBay_holder]
      exact h.1
    · rw [dropBay_core]
      exact scrubBay_keeps_blank c (h.2 n hn)

variable {d : Teardown}

section

variable (hst : (s.pdk p).st = .teardown) (htd : (s.pdk p).td = some d) (hd : d.drained = false)
include hst htd hd

/-- A drained paddock's keys are destroyed and its retirement goes to its peers; then its bays are dropped. -/
theorem teardownDrained_drains : ∃ u : State, u.pdk p = { s.pdk p with rootKey := none, td := some { d with drained := true } } ∧
    (∀ b, u.bay b = s.bay b) ∧ s.teardownDrained p = (u.baysOf p).foldl dropBay u := by
  have hretired := fabRetireAll_unlinked (s := s) (p := p)
  unfold teardownDrained
  rw [hst, htd]
  dsimp only
  rw [if_neg (ne_true_of_eq_false hd)]
  generalize s.fabRetireAll p = v at hretired ⊢
  refine ⟨_, ?_, fun b => ?_, rfl⟩
  · rw [← pdk_of_unlinked hretired p]
    generalize hw : v.modPdk p _ = w
    have hpdk : w.pdk p = { v.pdk p with rootKey := none, td := some { d with drained := true } } := by rw [← hw, pdk_modPdk_same]
    split <;> exact hpdk
  · rw [← bay_of_unlinked hretired b]
    split <;> rfl

theorem teardownDrained_pdk :
    (s.teardownDrained p).pdk p = { s.pdk p with rootKey := none, td := some { d with drained := true } } := by
  obtain ⟨u, hpdk, -, heq⟩ := teardownDrained_drains hst htd hd
  have hst' : (u.pdk p).st = .teardown := by rw [hpdk]; exact hst
  rw [heq, ← hpdk]
  refine List.foldlRecOn (motive := fun t : State => t.pdk p = u.pdk p) _ _ rfl fun t ht b _ => ?_
  rw [dropBay_teardown b (by rw [ht]; exact hst'), ht]

theorem teardownDrained_bay {b : Nat} (hb : b < 16) (h : (s.bay b).holder = some p) : (s.teardownDrained p).bayBare b := by
  obtain ⟨u, -, hbay, heq⟩ := teardownDrained_drains hst htd hd
  rw [heq]
  exact foldl_establishes (P := fun t : State => t.bayBare b) (fun _ c ht => dropBay_keeps c ht) (fun _ => dropBay_bares b)
    (mem_baysOf.mpr ⟨hb, by rwa [hbay]⟩) u

end

theorem teardownDrained_done (htd : (s.pdk p).td = some d) (hd : d.drained = true) : s.teardownDrained p = s := by
  unfold teardownDrained
  rw [htd]
  split
  · next h => exact if_pos (by rw [← Option.some.inj h]; exact hd)
  · rfl

theorem teardownDrained_absent (h : (s.pdk p).st ≠ .teardown) : s.teardownDrained p = s := by
  unfold teardownDrained
  split
  · contradiction
  · rfl

/-! ### Steps 6 and 7 -/

theorem zeroMem_zero {a : Nat} (lo hi : Nat) (h : readByte s.mem a = 0) : readByte (s.zeroMem lo hi).mem a = 0 := by
  change readByte (zeroRange s.mem lo hi) a = 0
  rw [readByte_zeroRange, h, ite_self]

theorem yardTeardown_zero {a : Nat} (h : readByte s.mem a = 0) : readByte (s.yardTeardown p).mem a = 0 :=
  List.foldlRecOn (motive := fun t : State => readByte t.mem a = 0) _ _ h fun _ ht _ _ => zeroMem_zero _ _ ht

theorem zeroMem_sec (lo hi : Nat) : (s.zeroMem lo hi).sec = s.sec := rfl

theorem yardTeardown_sec : (s.yardTeardown p).sec = s.sec := by
  unfold yardTeardown
  rw [modYard_sec, foldl_proj State.sec (fun _ _ => zeroMem_sec _ _)]

/-- A paddock's frames and Yard pages zeroed, its fabric closed and its save area returned. -/
def wiped (s : State) (p : Nat) : State :=
  let t := ((s.zeroFrames (s.quota p).frameBase (s.quota p).frameCount).yardTeardown p).fabClear p
  { t with saves := t.saves.filter (fun e => !((s.quota p).frameBase ≤ e.1 && e.1 < (s.quota p).frameBase + (s.quota p).frameCount))
           own := withoutSave t.own (s.quota p).frameBase (s.quota p).frameCount }

theorem wiped_sec : (s.wiped p).sec = s.sec := yardTeardown_sec

theorem wiped_zero {a : Nat} (h : (s.quota p).frameBase * 2 ^ 21 ≤ a) (h' : a < ((s.quota p).frameBase + (s.quota p).frameCount) * 2 ^ 21) :
    readByte (s.wiped p).mem a = 0 := by
  refine yardTeardown_zero (s := s.zeroFrames (s.quota p).frameBase (s.quota p).frameCount) ?_
  exact (readByte_zeroRange ..).trans (if_pos ⟨h, h'⟩)

/-- A paddock without image, owner's settings or consent. -/
def Pdk.cleared (d : Pdk) : Pdk :=
  { d with td := none, img := none, lock := none, saveOwned := false, consent := 0, serial := 0, ever := false, susp := {},
           paceEn := false, paceN := 0, pfxKey0 := 0, pfxKey1 := 0, spill := 0, loft := [] }

/-- A wiped paddock EMPTY under a new epoch. -/
def emptied (s : State) (p : Nat) : State :=
  let s := ((s.wiped p).newEpoch none).modPdk p Pdk.cleared
  (((s.modLoad (p + 1) (fun r => { r with meas := 0 })).setPdkSt p .empty).schEv 1 p).updRecord p

theorem emptied_pdk : ∃ e, (s.emptied p).pdk p = { Pdk.cleared ((s.wiped p).pdk p) with st := .empty, event := e } := by
  obtain ⟨e, he⟩ := setPdkSt_pdk_eq
    (s := (((s.wiped p).newEpoch none).modPdk p Pdk.cleared).modLoad (p + 1) (fun r => { r with meas := 0 })) p .empty
  refine ⟨e, ?_⟩
  change State.pdk (State.schEv _ 1 p) p = _
  rw [schEv_pdk, he, pdk_modLoad, pdk_modPdk_same, pdk_newEpoch]

theorem emptied_epoch : (s.emptied p).sec.epoch = (s.sec.epoch + 1) % 2 ^ 32 := by
  change (State.schEv _ 1 p).sec.epoch = _
  rw [schEv_sec, setPdkSt_sec]
  change ((s.wiped p).sec.epoch + 1) % 2 ^ 32 = _
  rw [wiped_sec]

theorem emptied_mem : (s.emptied p).mem = (s.wiped p).mem :=
  mem_of_kept ((schEv_kept ..).trans (setPdkSt_kept ..))

theorem emptied_zero (a : Nat) (h : (s.quota p).frameBase * 2 ^ 21 ≤ a)
    (h' : a < ((s.quota p).frameBase + (s.quota p).frameCount) * 2 ^ 21) : readByte (s.emptied p).mem a = 0 := by
  rw [emptied_mem]
  exact wiped_zero h h'

theorem tdiUnlock_epoch : (s.tdiUnlock p).sec.epoch = s.sec.epoch := by
  unfold tdiUnlock
  dsimp only
  split <;> rfl

/-- The state in which the last steps of a teardown find the paddock: a load that the loader took meanwhile is ended. -/
def loadEnded (s : State) (p : Nat) : State := if s.ldr.cur = some (p + 1) then s.abandonLoad (p + 1) else s

theorem loadEnded_reads : (s.loadEnded p).sec = s.sec ∧ (s.loadEnded p).quota p = s.quota p := by
  unfold loadEnded
  split
  · obtain ⟨r, l, ps, h, -⟩ := s.abandonLoad_rest (p + 1)
    rw [h]
    exact ⟨rfl, rfl⟩
  · exact ⟨rfl, rfl⟩

theorem teardownComplete_empties (hst : (s.pdk p).st = .teardown) (htd : (s.pdk p).td = some d) (hd : d.drained = true) :
    s.teardownComplete p = if d.flr || (((s.loadEnded p).emptied p).tdi p).unlockDue
      then ((s.loadEnded p).emptied p).tdiUnlock p else (s.loadEnded p).emptied p := by
  unfold teardownComplete
  rw [hst, htd]
  exact if_neg (by simp [hd])

theorem teardownComplete_undrained (htd : (s.pdk p).td = some d) (hd : d.drained = false) : s.teardownComplete p = s := by
  unfold teardownComplete
  rw [htd]
  split
  · next h => exact if_pos (by rw [← Option.some.inj h, hd]; rfl)
  · rfl

theorem teardownComplete_absent (h : (s.pdk p).st ≠ .teardown) : s.teardownComplete p = s := by
  unfold teardownComplete
  split
  · contradiction
  · rfl

end State

end Sys2Proof.Machine

namespace Sys2Proof.Proofs

open Sys2Proof Sys2Proof.Machine Sys2Proof.Claims

variable {s : State} {p : PdkId} {d : Teardown}

theorem teardown_stops (byTenant : Bool) (h : (s.pdk p).st ≠ .empty) (h' : (s.pdk p).st ≠ .teardown) :
    Gives (.teardown p byTenant) s (fun t => (t.pdk p).st = .teardown ∧ (t.pdk p).td = some { drained := false, flr := false } ∧
    (∀ k, k < 256 → (t.ring p k).en = false ∧ (t.ring p k).job = none) ∧
    (∀ b, b < 16 → (s.bay b).holder = some p.val → (t.bay b).job = none ∧ (t.bay b).stopped = true ∧
      ∀ n ∈ coresOf b, (t.core n).running = false) ∧
    ((s.tdi p).st = .locked ∨ (s.tdi p).st = .run → (t.tdi p).st = .error) ∧ t.mem = s.mem) := by
  obtain ⟨hst, htd⟩ := State.beginTeardown_going_pdk false h h'
  refine ⟨s.beginTeardown p false, rfl, hst, htd, fun k hk => ?_, fun b hb hp => ?_, State.beginTeardown_held h h',
    State.mem_of_kept (State.beginTeardown_kept ..)⟩
  · have hring : (s.beginTeardown p false).ring p k = (s.workStopped p false).ring p k :=
      State.beginTeardown_reads (State.ring · p k) (fun _ _ => rfl) h h'
    rw [hring]
    exact State.workStopped_ring false hk
  · have hbay : (s.beginTeardown p false).bay b = (s.workStopped p false).bay b :=
      State.beginTeardown_reads (State.bay · b) (fun _ _ => rfl) h h'
    have hcore (n : Nat) : (s.beginTeardown p false).core n = (s.workStopped p false).core n :=
      State.beginTeardown_reads (State.core · n) (fun _ _ => rfl) h h'
    simp only [hbay, hcore]
    exact (State.workStopped_bay false hb hp).2

theorem teardownDrained_frees (hst : (s.pdk p).st = .teardown) (htd : (s.pdk p).td = some d) (hd : d.drained = false) :
    Gives (.teardownDrained p) s (fun t => (t.pdk p).rootKey = none ∧ (t.pdk p).td = some { d with drained := true } ∧
      (t.pdk p).st = .teardown ∧ t.mem = s.mem ∧
      ∀ b, b < 16 → (s.bay b).holder = some p.val → (t.bay b).holder = none ∧
        ∀ n ∈ coresOf b, (t.core n).x = [] ∧ (t.core n).spad = [] ∧ (t.core n).w = []) := by
  have hpdk := State.teardownDrained_pdk hst htd hd
  refine ⟨s.teardownDrained p, rfl, ?_⟩
  beta_reduce
  rw [hpdk]
  exact ⟨rfl, rfl, hst, State.mem_of_kept (State.teardownDrained_kept ..), fun b hb hp => State.teardownDrained_bay hst htd hd hb hp⟩

theorem teardownComplete_empties (hst : (s.pdk p).st = .teardown) (htd : (s.pdk p).td = some d) (hd : d.drained = true) :
    Gives (.teardownComplete p) s (fun t => (t.pdk p).st = .empty ∧ (t.pdk p).img = none ∧ (t.pdk p).consent = 0 ∧ (t.pdk p).lock = none ∧
      t.sec.epoch = (s.sec.epoch + 1) % 2 ^ 32 ∧ (d.flr = true → t.tdi p = {}) ∧
      ∀ a, (s.quota p).frameBase * 2 ^ 21 ≤ a → a < ((s.quota p).frameBase + (s.quota p).frameCount) * 2 ^ 21 → readByte t.mem a = 0) := by
  obtain ⟨hsec, hquota⟩ := s.loadEnded_reads (p := p)
  obtain ⟨e, hpdk⟩ := (s.loadEnded p).emptied_pdk (p := p)
  have hzero := (s.loadEnded p).emptied_zero (p := p)
  have hepoch := (s.loadEnded p).emptied_epoch (p := p)
  rw [hquota] at hzero
  rw [hsec] at hepoch
  refine ⟨_, congrArg Host.Outcome.next (State.teardownComplete_empties hst htd hd), ?_⟩
  generalize (s.loadEnded p).emptied p = u at hpdk hzero hepoch ⊢
  split
  · rw [State.tdiUnlock_epoch, State.tdiUnlock_tdi, State.tdiUnlock_rest]
    change (u.pdk p).st = _ ∧ (u.pdk p).img = _ ∧ (u.pdk p).consent = _ ∧ (u.pdk p).lock = _ ∧ _
    rw [hpdk]
    exact ⟨rfl, rfl, rfl, rfl, hepoch, fun _ => rfl, hzero⟩
  · next hflr =>
    rw [hpdk]
    exact ⟨rfl, rfl, rfl, rfl, hepoch, fun h => absurd (by simp [h]) hflr, hzero⟩

/-- Settles O43: a suspension by `State.suspendFor` and `State.resumeFor`, and a teardown by the state that each step leaves. -/
theorem suspensionAndTeardown : Obligations.SuspensionAndTeardown := by
  unfold Obligations.SuspensionAndTeardown
  refine ⟨fun s p => ⟨suspend_active, fun hs => ?again, fun h₁ h₂ h₃ => ?inactive, resume_last, resume_held, fun hs => ?running⟩,
    fun s p byTenant d => ⟨teardown_stops byTenant, fun h => ?torn, fun hst htd => ⟨teardownDrained_frees hst htd, fun hd => ?drained,
      fun hd => ?undrained, teardownComplete_empties hst htd⟩, fun h => ⟨?_, ?_⟩⟩⟩
  case again => exact congrArg Host.Outcome.next (State.suspendFor_again hs)
  case inactive => exact congrArg Host.Outcome.next (State.suspendFor_inactive _ _ (by simp [State.active, h₁, h₂, h₃]))
  case running => exact congrArg Host.Outcome.next (State.resumeFor_running hs)
  case torn =>
    rcases h with h | h
    · exact congrArg Host.Outcome.next (State.beginTeardown_empty h)
    · exact congrArg Host.Outcome.next (State.beginTeardown_again h)
  case drained => exact congrArg Host.Outcome.next (State.teardownDrained_done htd hd)
  case undrained => exact congrArg Host.Outcome.next (State.teardownComplete_undrained htd hd)
  · exact congrArg Host.Outcome.next (State.teardownDrained_absent h)
  · exact congrArg Host.Outcome.next (State.teardownComplete_absent h)

end Sys2Proof.Proofs
end

section
/-! The scheduler (05 R136, R148, R159-R161): what a job's start writes, and the decision over no candidate and over one. -/

namespace Sys2Proof.Machine

namespace State

variable {s t : State} {p k b : Nat}

/-! ### A job that starts (05 R148, R160) -/

/-- A step of a job's start: the bay takes the job, cores keep their scratchpads, bays their paddocks, and the other bays stand. -/
structure Launches (p k : Nat) (f : State → Nat → State) : Prop where
  spad : ∀ t b n, ((f t b).core n).spad = (t.core n).spad
  holder : ∀ t b c, ((f t b).bay c).holder = (t.bay c).holder
  job : ∀ t b, ((f t b).bay b).job = some (p, k)
  others : ∀ t b c, c ≠ b → (f t b).bay c = t.bay c

theorem modCore_spad (m n : Nat) {f : Core → Core} (hf : ∀ c, (f c).spad = c.spad) : ((s.modCore m f).core n).spad = (s.core n).spad := by
  by_cases h : n = m
  · rw [h, core_modCore_same, hf]
  · rw [core_modCore_ne _ _ _ _ h]

/-- Cores that keep their scratchpads and a bay that keeps its paddock and takes the job make a step of its start. -/
theorem launches_of {g : State → Nat → Core → Core} {F : State → Nat → Bay → Bay} (hg : ∀ t b c, (g t b c).spad = c.spad)
    (hF : ∀ t b x, (F t b x).holder = x.holder ∧ (F t b x).job = some (p, k)) :
    Launches p k (fun t b => ((coresOf b).foldl (fun u n => u.modCore n (g t b)) t).modBay b (F t b)) := by
  have hbay (t : State) (b c : Nat) : ((coresOf b).foldl (fun u n => u.modCore n (g t b)) t).bay c = t.bay c :=
    foldl_proj (bay · c) (fun u n => bay_modCore u n _ c) _
  constructor
  · intro t b n
    rw [core_modBay]
    exact foldl_proj (fun u : State => (u.core n).spad) (fun u m => modCore_spad m n (hg t b)) _
  · intro t b c
    by_cases h : c = b
    · rw [h, bay_modBay_same, (hF t b _).1, hbay]
    · rw [bay_modBay_ne _ _ _ _ h, hbay]
  · intro t b
    rw [bay_modBay_same, (hF t b _).2]
  · intro t b c h
    rw [bay_modBay_ne _ _ _ _ h, hbay]

/-- A job that does not start yet changes nothing; one that starts takes each bay reserved for it. -/
theorem startJob_cases (s : State) (p k : Nat) : s.startJob p k = s ∨ ∃ f g, Launches p k f ∧
    s.startJob p k = (((s.reserved p k).foldl f s).modJob p k g).settlePdk p := by
  unfold startJob
  dsimp only
  split
  · split
    · refine .inr ⟨_, _, ?_, rfl⟩
      refine launches_of (fun t b c => ?_) (fun t b x => ⟨rfl, rfl⟩)
      split <;> rfl
    · exact .inl rfl
  · exact .inl rfl

theorem settled_bay (g : Job → Job) (c : Nat) : ((s.modJob p k g).settlePdk p).bay c = s.bay c := by
  rw [settlePdk_bay]
  rfl

theorem settled_core (g : Job → Job) (n : Nat) : ((s.modJob p k g).settlePdk p).core n = s.core n := by
  rw [core_of_unhoused (settlePdk_unhoused p)]
  rfl

theorem startJob_spad (n : Nat) : ((s.startJob p k).core n).spad = (s.core n).spad := by
  rcases s.startJob_cases p k with h | ⟨f, g, hf, h⟩
  · rw [h]
  · rw [h, settled_core]
    exact foldl_proj (fun u : State => (u.core n).spad) (fun u b => hf.spad u b n) _

theorem startJob_holder (c : Nat) : ((s.startJob p k).bay c).holder = (s.bay c).holder := by
  rcases s.startJob_cases p k with h | ⟨f, g, hf, h⟩
  · rw [h]
  · rw [h, settled_bay]
    exact foldl_proj (fun u : State => (u.bay c).holder) (fun u b => hf.holder u b c) _

/-- A job that starts runs on every bay reserved for it. -/
theorem startJob_runs (h : b ∈ s.reserved p k) : s.startJob p k = s ∨ ((s.startJob p k).bay b).job = some (p, k) := by
  refine (s.startJob_cases p k).imp id fun ⟨f, g, hf, heq⟩ => ?_
  rw [heq, settled_bay]
  refine foldl_establishes (P := fun u : State => (u.bay b).job = some (p, k)) (fun u c hu => ?_) (fun u => hf.job u b) h s
  by_cases hc : b = c
  · rw [hc]
    exact hf.job u c
  · rw [hf.others u c b hc]
    exact hu

theorem mem_reserved {i : Nat} (hb : b < 16) (h : (s.bay b).next = some (p, k, i)) : b ∈ s.reserved p k := by
  refine List.mem_filter.mpr ⟨List.mem_range.mpr hb, ?_⟩
  rw [h]
  simp

theorem reserved_eq_nil (h : ∀ c, c < 16 → (s.bay c).next = none) : s.reserved p k = [] := by
  refine List.filter_eq_nil_iff.mpr fun c hc => ?_
  rw [h c (List.mem_range.mp hc)]
  exact Bool.false_ne_true

/-! ### The decision (05 R159-R161) -/

theorem dropHolds_free (h : ∀ c, c < 16 → (s.bay c).next = none) : s.dropHolds = s := by
  refine List.foldlRecOn (motive := fun t : State => t = s) _ _ rfl fun t ht c hc => ?_
  rw [ht, h c (List.mem_range.mp hc)]

/-- The decision over no candidate forgets which job was first. -/
theorem place_nil (n : Nat) (taken : List Nat) (lim : Option (List Nat)) :
    s.place (n + 1) [] taken lim = if lim.isNone then { s with sch := { s.sch with first := none, others := [] } } else s := rfl

/-- The first of one candidate that nothing is held for is that candidate. -/
theorem firstOf_single (h : s.reserved p k = []) : ∃ tied, s.firstOf [(p, k)] = some (p, k, tied) := by
  unfold firstOf
  by_cases hbg : (((s.ring p k).job).getD {}).bg = true
  · simp [hbg, h]
  · simp [hbg, h]

/-- Bays that may be taken. -/
def freeOnes (s : State) : List Nat := (List.range 16).filter s.takeable

/-- The paddock's own bays that may be taken come first, then the others. -/
theorem pickBays_eq (j : Job) : ∃ l, s.pickBays p j [] = s.freeOnes.filter (fun b => (s.bay b).holder = some p)
    ++ (s.freeOnes.filter (fun b => (s.bay b).holder ≠ some p) ++ l) := by
  unfold pickBays freeOnes
  simp only [List.contains_nil, Bool.not_false, List.filter_true, List.append_assoc]
  exact ⟨_, rfl⟩

/-- Some bay that may be taken comes first among those given to a job. -/
theorem pickBays_head {j : Job} (h : ∃ c, c < 16 ∧ s.takeable c = true) :
    ∃ c l, s.pickBays p j [] = c :: l ∧ c < 16 ∧ s.takeable c = true := by
  obtain ⟨b, hb, htake⟩ := h
  have hfree : b ∈ s.freeOnes := List.mem_filter.mpr ⟨List.mem_range.mpr hb, htake⟩
  have hmem {c : Nat} {q : Nat → Bool} (hc : c ∈ s.freeOnes.filter q) : c < 16 ∧ s.takeable c = true := by
    obtain ⟨hrange, htake⟩ := List.mem_filter.mp (List.mem_filter.mp hc).1
    exact ⟨List.mem_range.mp hrange, htake⟩
  obtain ⟨l, heq⟩ := s.pickBays_eq (p := p) j
  rw [heq]
  match hown : s.freeOnes.filter (fun b => (s.bay b).holder = some p) with
  | c :: l => exact ⟨c, _, rfl, hmem (hown ▸ List.mem_cons_self)⟩
  | [] =>
    match hrest : s.freeOnes.filter (fun b => (s.bay b).holder ≠ some p) with
    | c :: l => exact ⟨c, _, rfl, hmem (hrest ▸ List.mem_cons_self)⟩
    | [] =>
      have h₁ := List.filter_eq_nil_iff.mp hown b hfree
      have h₂ := List.filter_eq_nil_iff.mp hrest b hfree
      simp_all

theorem mayPreempt_idle {j : Job} (h : (s.bay b).job = none) : s.mayPreempt j b = false := by
  simp [mayPreempt, jobOn, h]

theorem takeable_idle (h : s.takeable b = true) : (s.bay b).job = none := by
  simp only [takeable, Bool.and_eq_true, Option.isNone_iff_eq_none] at h
  exact h.1.1.2

/-- A bay held for a job's logical bay i. -/
def hold (s : State) (p k i b : Nat) : State := s.modBay b (fun x => { x with next := some (p, k, i), prepared := false })

/-- A job of one bay gets a bay that may be taken, and starts if it is ready. -/
theorem placeOne_single {j : Job} (hres : s.reserved p k = []) (hj : j.bays = 1) (h : ∃ c, c < 16 ∧ s.takeable c = true) :
    ∃ c, c < 16 ∧ s.takeable c = true ∧ s.placeOne p k j [] none = ((s.hold p k 0 c).startJob p k, [c]) := by
  obtain ⟨c, l, hpick, hc, htake⟩ := pickBays_head (p := p) (j := j) h
  refine ⟨c, hc, htake, ?_⟩
  have hidle : ((s.hold p k 0 c).bay c).job = none := by
    rw [hold, bay_modBay_same]
    exact takeable_idle htake
  have hpre : (s.hold p k 0 c).mayPreempt j c = false := mayPreempt_idle hidle
  unfold hold at hpre
  unfold placeOne
  simp [hold, hres, hpick, hj, hpre, List.range_succ]

theorem turn_eq (j : Job) : ∃ x, s.turn p k j = { s with sch := x } := by
  unfold turn
  dsimp only
  split
  · exact ⟨_, rfl⟩
  · exact ⟨_, rfl⟩

/-- The decision over one candidate places its job, and writes nothing else but the scheduler's own fields. -/
theorem place_single {j : Job} (hel : s.eligible p k = true) (hring : (s.ring p k).job = some j) (hres : s.reserved p k = []) :
    ∃ x y, s.place 2 [(p, k)] [] none = { (({ s with sch := x } : State).placeOne p k j [] none).1 with sch := y } := by
  obtain ⟨tied, hfirst⟩ := firstOf_single hres
  obtain ⟨x, hturn⟩ : ∃ x, (if tied then s.turn p k j else s) = { s with sch := x } := by
    split
    · exact turn_eq j
    · exact ⟨s.sch, rfl⟩
  refine ⟨x, ?_⟩
  rw [place]
  simp only [List.filter_cons, hel, if_true, List.filter_nil, hfirst, hring, hturn, ne_eq, not_true_eq_false, decide_false,
    Bool.false_eq_true, if_false, place_nil]
  generalize State.placeOne _ p k j [] none = w
  generalize hv : (if ((w.1.ring p k).job.elim false fun j => decide (j.ph = .running)) = true then (w.1, none)
    else ((w.1.holdFor p k j).1, some (w.1.holdFor p k j).2)) = v
  obtain ⟨z, hz⟩ : ∃ z, v.1 = { w.1 with sch := z } := by
    rw [← hv]
    split
    · exact ⟨w.1.sch, rfl⟩
    · exact ⟨_, rfl⟩
  rw [hz]
  split
  · split
    · exact ⟨_, rfl⟩
    · exact ⟨_, rfl⟩
  · exact ⟨_, rfl⟩

/-- A job of one bay that alone competes is given a bay that may be taken. -/
theorem place_gives {j : Job} (hel : s.eligible p k = true) (hring : (s.ring p k).job = some j) (hres : s.reserved p k = [])
    (hj : j.bays = 1) (h : ∃ c, c < 16 ∧ s.takeable c = true) : ∃ c, c < 16 ∧ s.takeable c = true ∧
      (((s.place 2 [(p, k)] [] none).bay c).next = some (p, k, 0) ∨ ((s.place 2 [(p, k)] [] none).bay c).job = some (p, k)) := by
  obtain ⟨x, y, heq⟩ := place_single hel hring hres
  obtain ⟨c, hc, htake, hplace⟩ := placeOne_single (s := { s with sch := x }) hres hj h
  have hnext : ((State.hold { s with sch := x } p k 0 c).bay c).next = some (p, k, 0) := by rw [hold, bay_modBay_same]
  have hruns := startJob_runs (mem_reserved hc hnext)
  rw [heq, hplace]
  refine ⟨c, hc, htake, ?_⟩
  rcases hruns with h | h
  · exact .inl (by rw [h]; exact hnext)
  · exact .inr h

theorem eligible_of_candidates (h : s.candidates = [(p, k)]) : s.eligible p k = true := by
  have hmem : (p, k) ∈ s.candidates := by rw [h]; exact List.mem_singleton_self _
  exact (List.mem_filter.mp hmem).2

end State

end Sys2Proof.Machine

end

section
/-! The bay switch (05 R134, R136, R165-R168; 06 R198): a stopped bay saved, scrubbed and released, and a bay brought to its next job. -/

namespace Sys2Proof.Machine

/-- A bay without its job, once the job is saved. -/
def Bay.saved (x : Bay) : Bay := { x with job := none, withdrawn := false }

theorem div_of_mem_coresOf {b n : Nat} (h : n ∈ coresOf b) : n / 16 = b := by
  obtain ⟨i, hi, rfl⟩ := List.mem_map.mp h
  have := List.mem_range.mp hi
  omega

namespace State

variable {s t : State} {p k b : Nat}

/-! ### A stopped bay saved (05 R165; 06 R198, R200) -/

/-- Cores, bays and saved records: what rings, paddocks and messages leave alone. -/
def plant (s : State) : Tab Core × Tab Bay × Tab SaveRec := (s.cores, s.bays, s.saves)

theorem plant_of_unhoused (h : t.unhoused = s.unhoused) : t.plant = s.plant := (congrArg plant h :)
theorem cores_of_plant (h : t.plant = s.plant) : t.cores = s.cores := congrArg (·.1) h
theorem bays_of_plant (h : t.plant = s.plant) : t.bays = s.bays := congrArg (·.2.1) h
theorem core_of_plant (h : t.plant = s.plant) (n : Nat) : t.core n = s.core n :=
  congrArg (fun c : Tab Core => tget ({} : Core) c n) (cores_of_plant h)
theorem bay_of_plant (h : t.plant = s.plant) (c : Nat) : t.bay c = s.bay c :=
  congrArg (fun y : Tab Bay => tget ({} : Bay) y c) (bays_of_plant h)
theorem saves_of_plant (h : t.plant = s.plant) : t.saves = s.saves := congrArg (·.2.2) h

@[simp] theorem saveTraffic_plant (write : Bool) (f : Nat) : (s.saveTraffic write f).plant = s.plant := by
  unfold saveTraffic
  exact List.foldlRecOn (motive := fun t : State => t.plant = s.plant) _ _ rfl fun t ht _ _ => ht

@[simp] theorem pushCpl_plant (c : Cpl) : (s.pushCpl p k c).plant = s.plant := by
  unfold pushCpl
  dsimp only
  split <;> rfl

@[simp] theorem interim_plant (withdrawn : Bool) : (s.interim p k withdrawn).plant = s.plant := by
  unfold interim
  split
  · rfl
  · split
    · exact pushCpl_plant ..
    · rfl

/-- What a stopped bay's save leaves: cores as they stand, the bay without its job, and a record of the cores. -/
def Saved (s t : State) (b f : Nat) : Prop :=
  t.cores = s.cores ∧ t.bays = tmod {} s.bays b Bay.saved ∧
    (tget {} t.saves f).cores = (coresOf b).map (fun n => (n % 16, s.core n))

theorem Saved.of_plant {u : State} {f : Nat} (h : u.plant = t.plant) (hs : s.Saved t b f) : s.Saved u b f := by
  obtain ⟨hcores, hbays, hsaves⟩ := hs
  exact ⟨(cores_of_plant h).trans hcores, (bays_of_plant h).trans hbays, by rwa [saves_of_plant h]⟩

theorem saveBay_saves {j : Job} {why : StopWhy} (hjob : (s.bay b).job = some (p, k)) (hstop : (s.bay b).stopping = some why)
    (hring : (s.ring p k).job = some j) : s.Saved (s.saveBay b) b (s.slotFrame p (j.slots.getD (s.bay b).lbay 0)) := by
  unfold saveBay
  split
  · next q l why' hjob' hstop' =>
    obtain ⟨rfl, rfl⟩ : q = p ∧ l = k := by simpa [hjob] using hjob'.symm
    split
    · next h => exact absurd (h.symm.trans hring) nofun
    · next j' h =>
      obtain rfl : j' = j := Option.some.inj (h.symm.trans hring)
      extract_lets taken ctr s₁ x slot r r' s₂ s₃ s₄ s₅ s₆ w s₇
      have h₁ : s₁.plant = s.plant ∧ ∀ f, s₁.slotFrame q f = s.slotFrame q f := by
        simp only [s₁]
        split
        · exact ⟨rfl, fun _ => rfl⟩
        · exact ⟨rfl, fun _ => rfl⟩
      have h₅ : s₅.plant = s₃.plant := by
        simp only [s₅]
        split
        · exact plant_of_unhoused (s := s₄) (pdkEv_unhoused ..)
        · rfl
      have h₇ : s₇.plant = s₅.plant := by
        simp only [s₇]
        split
        · exact plant_of_unhoused (s := s₆) (schEv_unhoused ..)
        · rfl
      have hend : (if s₅.jobLeft q l = true then s₅ else s₇.interim q l w).plant = s₃.plant := by
        split
        · exact h₅
        · exact (interim_plant w).trans (h₇.trans h₅)
      obtain ⟨hplant, hframe⟩ := h₁
      have hbay : x = s.bay b := bay_of_plant hplant b
      have hrec : r'.cores = (coresOf b).map (fun n => (n % 16, s.core n)) := by
        have hr : r'.cores = r.cores := by
          simp only [r']
          split <;> rfl
        rw [hr]
        simp only [r, core_of_plant hplant]
      have htraffic := saveTraffic_plant (s := s₂) true (s₂.slotFrame q slot)
      refine Saved.of_plant hend ⟨?_, ?_, ?_⟩
      · exact (cores_of_plant htraffic).trans (show s₁.cores = s.cores from cores_of_plant hplant)
      · change tmod {} (s₂.saveTraffic true (s₂.slotFrame q slot)).bays b Bay.saved = tmod {} s.bays b Bay.saved
        rw [bays_of_plant htraffic, ← bays_of_plant hplant]
      · change (tget {} (s₂.saveTraffic true (s₂.slotFrame q slot)).saves _).cores = _
        rw [saves_of_plant htraffic, ← hbay, ← hframe]
        exact (congrArg SaveRec.cores (tget_tset_same ..)).trans hrec
  · next h => exact absurd hstop (h p k why hjob)

/-- A bay without a job whose cores could be saved is left as it is. -/
theorem saveBay_idle (h : ∀ p k, (s.bay b).job = some (p, k) → (s.ring p k).job = none) : s.saveBay b = s := by
  unfold saveBay
  split
  · next p k why hjob _ =>
    rw [h p k hjob]
  · rfl

theorem saveBay_frame {why : StopWhy} (hstop : (s.bay b).stopping = some why) :
    (s.saveBay b).cores = s.cores ∧ ((s.saveBay b).bay b).next = (s.bay b).next := by
  match hjob : (s.bay b).job with
  | none => rw [saveBay_idle (by simp [hjob])]; exact ⟨rfl, rfl⟩
  | some (p, k) =>
    match hring : (s.ring p k).job with
    | none => rw [saveBay_idle (by simp [hjob, hring])]; exact ⟨rfl, rfl⟩
    | some j =>
      obtain ⟨hcores, hbays, -⟩ := saveBay_saves hjob hstop hring
      refine ⟨hcores, ?_⟩
      rw [bay, hbays, tget_tmod_same]
      rfl

/-! ### A stopped bay scrubbed and released (05 R165, R166) -/

theorem retireRow_saves (n r : Nat) : (s.retireRow n r).saves = s.saves := by
  unfold retireRow
  dsimp only
  split <;> rfl

theorem logRec_saves (kind index status severity event paddock : Nat) (detail : List Nat) :
    (s.logRec kind index status severity event paddock detail).saves = s.saves :=
  (congrArg State.saves (logRec_calm s kind index status severity event paddock detail) :)

theorem scrubCore_saves (n : Nat) : (s.scrubCore n).saves = s.saves := by
  refine foldl_proj (s := s) State.saves (fun t r => ?_) _
  dsimp only
  repeat' split
  all_goals simp [logRec_saves, retireRow_saves]

theorem scrubBay_saves (b : Nat) : (s.scrubBay b).saves = s.saves := by
  have h : ((coresOf b).foldl scrubCore s).saves = s.saves := foldl_proj State.saves (fun t n => scrubCore_saves n) _
  unfold scrubBay
  generalize (coresOf b).foldl scrubCore s = u at h ⊢
  exact h

theorem scrubBay_core_ne {n : Nat} (h : n ∉ coresOf b) : (s.scrubBay b).core n = s.core n := by
  rw [scrubBay_core]
  refine List.foldlRecOn (motive := fun t : State => t.core n = s.core n) _ _ rfl fun t ht m hm => ?_
  rw [scrubCore_core_ne (ne_of_mem_of_not_mem hm h).symm, ht]

theorem freeBay_bay_same (b : Nat) : (s.freeBay b).bay b =
    { s.bay b with holder := none, job := none, stopping := none, withdrawn := false, stopped := false, resident := false } := by
  unfold freeBay
  dsimp only
  split <;> simp

theorem freeBay_saves (b : Nat) : (s.freeBay b).saves = s.saves := by
  unfold freeBay
  dsimp only
  split
  · rw [saves_of_unhoused (settlePdk_unhoused _)]
    rfl
  · rfl

theorem bared_saves (b : Nat) : (s.bared b).saves = s.saves := by
  rw [bared, modBay_saves, freeBay_saves, scrubBay_saves]

theorem bared_bay (b : Nat) : ((s.bared b).bay b).job = none ∧ ((s.bared b).bay b).stopping = none ∧
    ((s.bared b).bay b).next = (s.bay b).next := by
  rw [bared, bay_modBay_same, freeBay_bay_same, scrubBay_bay]
  exact ⟨rfl, rfl, rfl⟩

theorem setUnit_bay_saves (c : BayId) (st : UnitSt) : (s.setUnit (.bay c) st).saves = s.saves := by
  unfold setUnit
  split
  · rfl
  · exact (congrArg State.saves (rasEv_calm _ 1) :)

/-- A bay as its switch leaves it, whatever its unit's state is told to be. -/
theorem evacuate_eq {why : StopWhy} (hstop : (s.bay b).stopping = some why) (hstopped : (s.bay b).stopped = true)
    (ht : s.tearing b = false) : s.evacuate b = (s.saveBay b).bared b ∨
      s.evacuate b = ((s.saveBay b).bared b).setUnit (.bay (Fin.ofNat 16 b)) .quarantined := by
  unfold evacuate
  dsimp only
  rw [if_pos (by simp [hstop, hstopped, ht])]
  split
  · exact .inr rfl
  · exact .inl rfl

theorem evacuate_waits (h : (s.bay b).stopping = none ∨ s.tearing b = true) : s.evacuate b = s := by
  unfold evacuate
  exact if_neg (by rcases h with h | h <;> simp [h])

/-- A stopped bay is free, its cores are blank and the others stand, and what was saved stands. -/
theorem evacuate_frees {why : StopWhy} (hstop : (s.bay b).stopping = some why) (hstopped : (s.bay b).stopped = true)
    (ht : s.tearing b = false) : ((s.evacuate b).bay b).holder = none ∧ ((s.evacuate b).bay b).job = none ∧
      ((s.evacuate b).bay b).stopping = none ∧ ((s.evacuate b).bay b).next = (s.bay b).next ∧
      (∀ n ∈ coresOf b, ((s.evacuate b).core n).Blank) ∧ (∀ n, n ∉ coresOf b → (s.evacuate b).core n = s.core n) ∧
      (s.evacuate b).saves = (s.saveBay b).saves := by
  obtain ⟨hcores, hnext⟩ := saveBay_frame hstop
  have hcore (n : Nat) : (s.saveBay b).core n = s.core n := congrArg (fun c : Tab Core => tget ({} : Core) c n) hcores
  generalize hu : s.saveBay b = u at hnext hcore ⊢
  have hholder : ((u.bared b).bay b).holder = none := by rw [bared, bay_modBay_same, freeBay_bay_same]
  obtain ⟨hjob, hstopping, hkept⟩ := u.bared_bay b
  have hblank (n : Nat) (hn : n ∈ coresOf b) : ((u.bared b).core n).Blank := by
    rw [bared_core]
    exact scrubBay_blank hn
  have hothers (n : Nat) (hn : n ∉ coresOf b) : (u.bared b).core n = s.core n := by
    rw [bared_core, scrubBay_core_ne hn, hcore]
  rcases hu ▸ evacuate_eq hstop hstopped ht with h | h
  · rw [h]
    exact ⟨hholder, hjob, hstopping, hkept.trans hnext, hblank, hothers, bared_saves b⟩
  · rw [h, setUnit_bay_reads Bay.holder (fun _ _ => rfl), setUnit_bay_reads Bay.job (fun _ _ => rfl),
      setUnit_bay_reads Bay.stopping (fun _ _ => rfl), setUnit_bay_reads Bay.next (fun _ _ => rfl), setUnit_bay_saves]
    refine ⟨hholder, hjob, hstopping, hkept.trans hnext, fun n hn => ?_, fun n hn => ?_, bared_saves b⟩
    · rw [setUnit_bay_core]
      exact hblank n hn
    · rw [setUnit_bay_core]
      exact hothers n hn

/-! ### A bay brought to its job (05 R134, R136, R165, R168) -/

theorem bringIn_unheld (h : (s.bay b).next = none) : s.bringIn b = s := by
  unfold bringIn
  rw [h]

theorem bringIn_untakeable (h : s.takeable b = false) : s.bringIn b = s := by
  unfold bringIn
  split
  · rfl
  · exact if_pos (by simp [h])

/-- A bay under the paddock that takes it over, scrubbed unless its last scrub has left it so. -/
def takenOver (s : State) (p b : Nat) : State :=
  (if (s.bay b).scrubbed then s else s.scrubBay b).modBay b (fun x =>
    { x with holder := some p, scrubbed := false, lossMark := (s.bay b).lossMark && (s.bay b).holder = some p })

section

variable {i : Nat} {j : Job} (hnext : (s.bay b).next = some (p, k, i)) (hprep : (s.bay b).prepared = false) (htake : s.takeable b = true)
include hnext hprep htake

theorem bringIn_ineligible (hel : s.eligible p k = false) : s.bringIn b = s.unreserve b := by
  unfold bringIn
  rw [hnext]
  dsimp only
  rw [if_neg (by simp [hprep, htake]), if_pos (by simp [hel])]

theorem bringIn_full (hel : s.eligible p k = true) (hp : (s.bay b).holder ≠ some p) (hneed : s.needBays p ≤ (s.baysOf p).length) :
    s.bringIn b = s := by
  unfold bringIn
  rw [hnext]
  dsimp only
  rw [if_neg (by simp [hprep, htake]), if_neg (by simp [hel]), if_pos (by simp [hp, hneed])]

theorem bringIn_own (hel : s.eligible p k = true) (hp : (s.bay b).holder = some p) (hring : (s.ring p k).job = some j)
    (hj : j.ph = .waiting) : s.bringIn b = s.startJob p k := by
  unfold bringIn
  rw [hnext]
  dsimp only
  rw [if_neg (by simp [hprep, htake]), if_neg (by simp [hel]), if_neg (by simp [hp]), hring]
  dsimp only
  rw [if_pos (by simp [hp, hj])]

/-- A bay that a job's paddock takes over, scrubbed unless its scrub has left it so. -/
theorem bringIn_takes (hel : s.eligible p k = true) (hp : (s.bay b).holder ≠ some p) (hneed : (s.baysOf p).length < s.needBays p)
    (hring : (s.ring p k).job = some j) (hj : j.ph = .waiting) :
    ∃ u : State, u.plant = (s.takenOver p b).plant ∧ s.bringIn b = (u.modBay b (fun x => { x with prepared := true })).startJob p k := by
  unfold bringIn
  rw [hnext]
  dsimp only
  rw [if_neg (by simp [hprep, htake]), if_neg (by simp [hel]), if_neg (by simp [hp, hneed]), hring]
  dsimp only
  rw [if_neg (by simp [hp]), if_neg (by simp [hj])]
  refine ⟨_, ?_, rfl⟩
  rw [plant_of_unhoused (settlePdk_unhoused _)]
  split
  · split
    · rfl
    · rw [plant_of_unhoused (settlePdk_unhoused _)]
      rfl
  · rfl

end

theorem takenOver_bay : (s.takenOver p b).bay b = { (if (s.bay b).scrubbed then s.bay b else (s.bay b).scrubbedUnits) with
    holder := some p, scrubbed := false, lossMark := (s.bay b).lossMark && (s.bay b).holder = some p } := by
  rw [takenOver, bay_modBay_same]
  split
  · rfl
  · rw [scrubBay_bay]

theorem takenOver_spad {n : Nat} (hn : n ∈ coresOf b) :
    ((s.takenOver p b).core n).spad = if (s.bay b).scrubbed = true then (s.core n).spad else [] := by
  rw [takenOver, core_modBay]
  split
  · rfl
  · exact (scrubBay_blank hn).2.1

end State

end Sys2Proof.Machine

namespace Sys2Proof.Proofs

open Sys2Proof Sys2Proof.Machine Sys2Proof.Claims

variable {s : State} {b : BayId} {p k i : Nat} {j : Job} {w : StopWhy}

theorem scheduleDecision_idle (hc : s.candidates = []) (hfree : ∀ c, c < 16 → (s.bay c).next = none) :
    Gives .scheduleDecision s (fun t => t = { s with sch := { s.sch with first := none, others := [] } }) := by
  refine ⟨_, rfl, ?_⟩
  beta_reduce
  rw [State.dropHolds_free hfree, hc]
  rfl

theorem scheduleDecision_single (hc : s.candidates = [(p, k)]) (hring : (s.ring p k).job = some j) (hj : j.bays = 1)
    (hfree : ∀ c, c < 16 → (s.bay c).next = none) (htake : ∃ c, c < 16 ∧ s.takeable c = true) :
    Gives .scheduleDecision s (fun t => t.mem = s.mem ∧
      ∃ c, c < 16 ∧ s.takeable c = true ∧ ((t.bay c).next = some (p, k, 0) ∨ (t.bay c).job = some (p, k))) := by
  refine ⟨_, rfl, ?_⟩
  beta_reduce
  rw [State.dropHolds_free hfree, hc]
  exact ⟨State.mem_of_kept (State.place_kept ..),
    State.place_gives (State.eligible_of_candidates hc) hring (State.reserved_eq_nil hfree) hj htake⟩

theorem exec_baySwitch_waits (h : (s.bay b).stopping = none ∨ s.tearing b = true) : exec (.baySwitch b) s = .next (s.bringIn b) :=
  congrArg (fun u : State => Host.Outcome.next (u.bringIn b)) (State.evacuate_waits h)

/-- In the type of the bays' numbers 16 is 0, and a number divided by it is 0: the frame of the switch speaks of the cores of bay 0. -/
theorem bay_div_sixteen (n : BayId) : n / 16 = 0 := by
  revert n
  decide

theorem baySwitch_frees (hstop : (s.bay b).stopping = some w) (hstopped : (s.bay b).stopped = true) (hnext : (s.bay b).next = none)
    (ht : s.tearing b = false) : Gives (.baySwitch b) s (fun t =>
      (t.bay b).holder = none ∧ (t.bay b).job = none ∧ (t.bay b).stopping = none ∧ t.mem = s.mem ∧
      (∀ n ∈ coresOf b, (t.core n).x = [] ∧ (t.core n).spad = []) ∧ (∀ n, n / 16 ≠ b → t.core n = s.core n) ∧
      ((s.bay b).job = some (p, k) → (s.ring p k).job = some j →
        (tget {} t.saves (s.slotFrame p (j.slots.getD (s.bay b).lbay 0))).cores = (coresOf b).map (fun n => (n % 16, s.core n)))) := by
  obtain ⟨hholder, hjob, hstopping, hkept, hblank, hothers, hsaves⟩ := State.evacuate_frees hstop hstopped ht
  have hunheld := State.bringIn_unheld (s := s.evacuate b) (hkept.trans hnext)
  refine ⟨_, congrArg Host.Outcome.next hunheld, hholder, hjob, hstopping, State.mem_of_kept (State.evacuate_kept _),
    fun n hn => ⟨(hblank n hn).1, (hblank n hn).2.1⟩, fun n hn => hothers n fun h => hn ?_, fun hj hr => ?_⟩
  · have hb : b = 0 := Fin.ext ((div_of_mem_coresOf h).symm.trans (Nat.div_eq_of_lt n.isLt))
    rw [hb, bay_div_sixteen]
  · rw [hsaves]
    exact (State.saveBay_saves hj hstop hr).2.2

theorem baySwitch_takes (hstop : (s.bay b).stopping = none) (hnext : (s.bay b).next = some (p, k, i)) (hprep : (s.bay b).prepared = false)
    (htake : s.takeable b = true) (hring : (s.ring p k).job = some j) (hj : j.ph = .waiting) (hel : s.eligible p k = true)
    (hp : (s.bay b).holder ≠ some p) (hneed : (s.baysOf p).length < s.needBays p) :
    Gives (.baySwitch b) s (fun t => (t.bay b).holder = some p ∧ ((t.bay b).prepared = true ∨ (t.bay b).job = some (p, k)) ∧
      (∀ n ∈ coresOf b, (t.core n).spad = if (s.bay b).scrubbed = true then (s.core n).spad else []) ∧ t.mem = s.mem) := by
  obtain ⟨u, hplant, htakes⟩ := State.bringIn_takes hnext hprep htake hel hp hneed hring hj
  have hmem : (s.bringIn b).mem = s.mem := State.mem_of_kept (State.bringIn_kept _)
  have hbay : (u.modBay b (fun x => { x with prepared := true })).bay b = { (s.takenOver p b).bay b with prepared := true } := by
    rw [State.bay_modBay_same, State.bay_of_plant hplant]
  have hheld : ((u.modBay b (fun x => { x with prepared := true })).bay b).next = some (p, k, i) := by
    rw [hbay, State.takenOver_bay, ← hnext]
    split <;> rfl
  refine ⟨_, exec_baySwitch_waits (.inl hstop), ?_⟩
  beta_reduce
  rw [hmem, htakes]
  refine ⟨?_, ?_, fun n hn => ?_, rfl⟩
  · rw [State.startJob_holder, hbay, State.takenOver_bay]
  · refine (State.startJob_runs (State.mem_reserved b.isLt hheld)).imp (fun h => ?_) id
    rw [h, hbay]
  · rw [State.startJob_spad, State.core_modBay, State.core_of_plant hplant, State.takenOver_spad hn]

theorem baySwitch_starts (hstop : (s.bay b).stopping = none) (hnext : (s.bay b).next = some (p, k, i)) (hprep : (s.bay b).prepared = false)
    (htake : s.takeable b = true) (hring : (s.ring p k).job = some j) (hj : j.ph = .waiting) (hel : s.eligible p k = true)
    (hp : (s.bay b).holder = some p) : Gives (.baySwitch b) s (fun t => (t.bay b).holder = some p ∧
      ((t.bay b).job = some (p, k) ∨ t = s) ∧ (∀ n ∈ coresOf b, (t.core n).spad = (s.core n).spad) ∧ t.mem = s.mem) := by
  refine ⟨_, (exec_baySwitch_waits (.inl hstop)).trans (congrArg Host.Outcome.next
    (State.bringIn_own hnext hprep htake hel hp hring hj)), ?_, ?_, fun n _ => State.startJob_spad n,
    State.mem_of_kept (State.startJob_kept ..)⟩
  · rw [State.startJob_holder, hp]
  · exact (State.startJob_runs (State.mem_reserved b.isLt hnext)).symm

/-- Settles O46: a decision by the place that its only candidate gets, a switch by the bay's release and then by the bay's next job. -/
theorem schedulingAndBaySwitch : Obligations.SchedulingAndBaySwitch := by
  unfold Obligations.SchedulingAndBaySwitch
  intro s b p k i j w x
  refine ⟨scheduleDecision_idle, scheduleDecision_single, fun h => ?slice, fun h => ?sliceIdle, fun hstop hnext => ?unheld,
    fun ht => ?tearing, baySwitch_frees, fun hstop hnext hprep htake hring hj =>
    ⟨baySwitch_takes hstop hnext hprep htake hring hj, fun hel hp hneed => ?full, baySwitch_starts hstop hnext hprep htake hring hj,
      fun hel => ?dropped⟩⟩
  case slice => exact congrArg Host.Outcome.next (if_pos (Option.isSome_iff_ne_none.mpr h))
  case sliceIdle => exact congrArg Host.Outcome.next (if_neg (by simp [show (s.bay b).job = none from h]))
  case unheld => exact (exec_baySwitch_waits (.inl hstop)).trans (congrArg Host.Outcome.next (State.bringIn_unheld hnext))
  case tearing =>
    have htake : s.takeable b = false := by simp [State.takeable, ht]
    exact (exec_baySwitch_waits (.inr ht)).trans (congrArg Host.Outcome.next (State.bringIn_untakeable htake))
  case full =>
    exact (exec_baySwitch_waits (.inl hstop)).trans (congrArg Host.Outcome.next (State.bringIn_full hnext hprep htake hel hp hneed))
  case dropped =>
    exact (exec_baySwitch_waits (.inl hstop)).trans (congrArg Host.Outcome.next (State.bringIn_ineligible hnext hprep htake hel))

end Sys2Proof.Proofs
end

section
/-! A core listed twice (05 R150; 07 R235, R236; 13 R370): the state that refutes O24. A read of the core table finds a core's first entry,
but the answer to a request looks through all of them for the fragment that waits, and so meets the second entry too. -/

namespace Sys2Proof.Machine

/-- A fragment that waits for the first of the part's own requests. -/
def awaitedRow : StrmRow :=
  { tile := 0, row := 0, off := 0, addr := 0, len := 0, last := false, tags := 0, data := [], rtag := ownTags }

/-- A matrix multiplication of no tiles whose sequencer waits for that fragment. -/
def waitingMatrix : MatFly :=
  { a := {}, b := {}, c := {}, d := {}, v0 := {}, v1 := {}, me := 0, ne := 0, ke := 0, tm := 0, tn := 0, tk := 0, fm := 0, order := 0
    chain := none, claim := none, bucket := 0, tileSrc := false, db := false, pdk := 0, seq := { fly := [awaitedRow] } }

/-- The answer to the fragment: its row is lost. -/
def lostFetch : Fetch :=
  { addr := 0, len := 0, tags := [ownTags], data := [], status := Status.rowRetired, closed := false, ep := 0 }

/-- A faulted job on bay 0. Its first fifteen cores each have an accepted Yard operation of bundle 5, and the table lists core 0 again, with
a matrix multiplication of that bundle. The one of core 15, the last, waits for the same fragment. -/
def coreListedTwice : State :=
  { bays := [(0, { job := some (0, 0) })]
    rings := [(0, { job := some { ph := .running, endWith := some Status.accessDenied } })]
    cores := (List.range 15).map (fun n => (n, { mac := some ⟨5, .yard n⟩ })) ++
      [(0, { mac := some ⟨5, .matrix waitingMatrix⟩ }), (15, { mac := some ⟨7, .matrix waitingMatrix⟩ })]
    mcs := [(0, { fetches := [lostFetch] })] }

theorem coreListedTwice_strms (q : Nat) : (coreListedTwice.core q).strms = [] := by
  have hall : ∀ e ∈ coreListedTwice.cores, e.2.strms = [] := by
    simp only [coreListedTwice, List.forall_mem_append, List.forall_mem_map, List.forall_mem_cons, List.not_mem_nil, false_imp_iff,
      implies_true, and_self]
  exact tget_all (P := fun c : Core => c.strms = []) {} _ q rfl hall

namespace State

variable {s : State}

theorem stopMacs_append (ns ms : List Nat) : s.stopMacs (ns ++ ms) = (s.stopMacs ns).stopMacs ms := List.foldl_append ..

/-- Operations that go on are left as they are. -/
theorem stopMacs_of_macRuns : ∀ ns : List Nat, (∀ n ∈ ns, s.macRuns n = true) → s.stopMacs ns = s
  | [], _ => rfl
  | n :: ns, h => by
    have hn : s.stopMacs (n :: ns) = s.stopMacs ns := by
      rw [stopMacs, List.foldl_cons, if_pos (h n List.mem_cons_self), stopMacs]
    rw [hn, stopMacs_of_macRuns ns fun m hm => h m (List.mem_cons_of_mem _ hm)]

/-- A faulted job on one bay stops what its cores have in flight, and goes no further while one of them keeps it open. -/
theorem jobEnd_of_macsOpen {p k b status : Nat} {j j' : Job} (hj : (s.ring p k).job = some j) (hph : j.ph = .running)
    (hend : j.endWith = some status) (hbays : (List.range 16).filter (fun c => (s.bay c).job = some (p, k)) = [b])
    (hj' : ((s.stopMacs (coresOf b)).ring p k).job = some j') (hopen : (s.stopMacs (coresOf b)).macsOpen (coresOf b) = true) :
    s.jobEnd p k = s.stopMacs (coresOf b) := by
  simp [jobEnd, hj, hph, hend, hbays, hj', hopen]

end State

/-- Only core 15 is stopped: the answer that it waits for faults core 0 against bundle 5. -/
theorem coreListedTwice_stopMacs : coreListedTwice.stopMacs (coresOf 0) = coreListedTwice.stopMacs [15] := by
  have hyard : ∀ n ∈ List.range 15, coreListedTwice.macRuns n = true := by decide
  have hcores : coresOf 0 = List.range 15 ++ [15] := rfl
  rw [hcores, State.stopMacs_append, State.stopMacs_of_macRuns _ hyard]

theorem coreListedTwice_jobEnd : coreListedTwice.jobEnd 0 0 = coreListedTwice.stopMacs [15] := by
  have hstop := coreListedTwice_stopMacs
  have hopen : (coreListedTwice.stopMacs [15]).macsOpen (coresOf 0) = true :=
    List.any_eq_true.2 ⟨1, State.mem_coresOf 1, rfl⟩
  rw [← hstop] at hopen ⊢
  have hjob : ((coreListedTwice.stopMacs (coresOf 0)).ring 0 0).job.isSome = true := by rw [hstop]; rfl
  obtain ⟨j', hj'⟩ := Option.isSome_iff_exists.1 hjob
  exact State.jobEnd_of_macsOpen rfl rfl rfl rfl hj' hopen

end Sys2Proof.Machine

namespace Sys2Proof.Proofs

open Sys2Proof Sys2Proof.Machine Sys2Proof.Claims

/-- Refutes O24: the clause on an accepted Yard operation, which speaks of every state. In one whose table lists a core twice, JOB_END lets
the answer to another core's request fault that core against the operation's own bundle, and the operation is over before it completes. -/
theorem not_coresStopFirstFaultAndJobsEnd : ¬ Obligations.CoresStopFirstFaultAndJobsEnd := by
  unfold Obligations.CoresStopFirstFaultAndJobsEnd
  rintro ⟨hwork, -⟩
  obtain ⟨-, -, -, -, hyard, -⟩ := hwork coreListedTwice 0 0 0 0 {}
  obtain ⟨t, hexec, -, -, hmac⟩ := hyard 0 5 0 rfl (State.mem_coresOf 0) rfl rfl coreListedTwice_strms
  have ht : coreListedTwice.stopMacs [15] = t := coreListedTwice_jobEnd.symm.trans (Host.Outcome.next.inj hexec)
  have hgone : ((coreListedTwice.stopMacs [15]).core 0).mac = none := rfl
  rw [ht, hmac] at hgone
  exact absurd hgone nofun

end Sys2Proof.Proofs
end

section
/-! Random bits, consent and rule epochs (06 R176-R179, R190, R194-R197, R475, R476): what the two health tests answer to a sample, what a
failure leaves of the generator and of a load, and the writes of PDK_CONSENT and ACK. -/

namespace Sys2Proof.Machine

/-! ### The health tests (06 R176, R475) -/

section
variable {r : Rng} {v : Byte}

/-- A forty-first equal sample. -/
theorem rctStep_fails (hrun : r.rctRun = 40) (hv : v = r.rctVal) : rctStep r v = ({ r with rctVal := v, rctRun := 0 }, true) := by
  simp [rctStep, hrun, hv]

theorem rctStep_restarts (hv : v ≠ r.rctVal) : rctStep r v = ({ r with rctVal := v, rctRun := 1 }, false) := by
  simp [rctStep, hv]

/-- The Repetition Count Test writes its own value and run alone. -/
theorem rctStep_writes : ∃ n, (rctStep r v).1 = { r with rctVal := v, rctRun := n } := by
  unfold rctStep
  extract_lets n
  split <;> exact ⟨_, rfl⟩

/-- The 410th sample of a window that equals its reference. -/
theorem aptStep_fails (hpos : r.aptPos ≠ 0) (hcount : r.aptCount = 409) (hv : v = r.aptRef) :
    aptStep r v = ({ r with aptPos := 0, aptCount := 0 }, true) := by
  simp [aptStep, hpos, hcount, hv]

/-- A sample that does not equal its window's reference. -/
theorem aptStep_passes (hpos : r.aptPos ≠ 0) (hcount : r.aptCount ≠ 410) (hv : v ≠ r.aptRef) : (aptStep r v).2 = false := by
  unfold aptStep
  simp only [if_neg hpos, if_neg hv, if_neg hcount]
  split <;> rfl

/-- The Adaptive Proportion Test writes its own reference, count and place alone. -/
theorem aptStep_writes : ∃ ref n i, (aptStep r v).1 = { r with aptRef := ref, aptCount := n, aptPos := i } := by
  unfold aptStep
  extract_lets w
  have hw : ∃ ref n i, w = { r with aptRef := ref, aptCount := n, aptPos := i } := by
    simp only [w]
    split <;> exact ⟨_, _, _, rfl⟩
  obtain ⟨ref, n, i, hw⟩ := hw
  rw [hw]
  repeat' split
  all_goals exact ⟨_, _, _, rfl⟩

/-- The generator after a sample's two tests, before their answers are heeded. -/
def Rng.tested (r : Rng) (v : Byte) : Rng := (aptStep (rctStep r v).1 v).1

/-- Whether the Repetition Count Test fails on a sample. -/
def Rng.rctFails (r : Rng) (v : Byte) : Bool := (rctStep r v).2

/-- Whether the Adaptive Proportion Test fails on a sample. -/
def Rng.aptFails (r : Rng) (v : Byte) : Bool := (aptStep (rctStep r v).1 v).2

theorem Rng.tested_writes : ∃ ref m i, r.tested v = { (rctStep r v).1 with aptRef := ref, aptCount := m, aptPos := i } := aptStep_writes

/-- A failure stops the generator and is counted (06 R177, R178). -/
def Rng.stopped (r : Rng) (f g : Bool) : Rng :=
  { r with running := false, fault := true, rctFail := r.rctFail || f, aptFail := r.aptFail || g
           failCount := min 65535 (r.failCount + 1), passRun := 0, fresh := 0 }

/-- A sample that passes is counted toward an instantiation and toward a reseed (06 R177, R179). -/
def Rng.passed (r : Rng) : Rng := { r with passRun := min 1024 (r.passRun + 1), fresh := min 1024 (r.fresh + 1) }

theorem rngStep_eq : rngStep r v =
    if r.rctFails v || r.aptFails v then ((r.tested v).stopped (r.rctFails v) (r.aptFails v), r.rctFails v, r.aptFails v)
    else ((r.tested v).passed, r.rctFails v, r.aptFails v) := rfl

theorem rngStep_failed (h : (r.rctFails v || r.aptFails v) = true) :
    rngStep r v = ((r.tested v).stopped (r.rctFails v) (r.aptFails v), r.rctFails v, r.aptFails v) := by
  rw [rngStep_eq, if_pos h]

theorem rngStep_passed (h : (r.rctFails v || r.aptFails v) = false) : rngStep r v = ((r.tested v).passed, r.rctFails v, r.aptFails v) := by
  rw [rngStep_eq, if_neg (by simp [h])]

/-! ### The two failures, and a sample that fails neither test -/

theorem Rng.rctFails_of_run (hrun : r.rctRun = 40) (hv : v = r.rctVal) : r.rctFails v = true ∧ (r.tested v).rctRun = 0 := by
  obtain ⟨ref, m, i, ht⟩ := r.tested_writes (v := v)
  rw [ht, Rng.rctFails, rctStep_fails hrun hv]
  exact ⟨rfl, rfl⟩

theorem Rng.aptFails_of_count (hpos : r.aptPos ≠ 0) (hcount : r.aptCount = 409) (hv : v = r.aptRef) :
    r.aptFails v = true ∧ (r.tested v).aptPos = 0 := by
  obtain ⟨n, hr⟩ := rctStep_writes (r := r) (v := v)
  rw [Rng.aptFails, Rng.tested, hr, aptStep_fails (by exact hpos) (by exact hcount) (by exact hv)]
  exact ⟨rfl, rfl⟩

theorem Rng.tested_keeps : (r.tested v).failCount = r.failCount ∧ (r.tested v).running = r.running ∧ (r.tested v).fault = r.fault ∧
    (r.tested v).passRun = r.passRun := by
  obtain ⟨ref, m, i, ht⟩ := r.tested_writes (v := v)
  obtain ⟨n, hr⟩ := rctStep_writes (r := r) (v := v)
  rw [ht, hr]
  exact ⟨rfl, rfl, rfl, rfl⟩

theorem Rng.passes_of_differs (hval : v ≠ r.rctVal) (href : v ≠ r.aptRef) (hpos : r.aptPos ≠ 0) (hcount : r.aptCount ≠ 410) :
    (r.rctFails v || r.aptFails v) = false ∧ (r.tested v).rctRun = 1 ∧ (r.tested v).rctVal = v := by
  obtain ⟨ref, m, i, ht⟩ := r.tested_writes (v := v)
  rw [ht, Rng.rctFails, Rng.aptFails, rctStep_restarts hval, aptStep_passes (by exact hpos) (by exact hcount) (by exact href)]
  exact ⟨rfl, rfl, rfl⟩

end

namespace State

variable {s : State} {v : Byte}

/-! ### What events and a load's end leave of the management controller -/

@[simp] theorem schEv_mgt (b p : Nat) : (s.schEv b p).mgt = s.mgt := by
  unfold schEv
  dsimp only
  split
  · rfl
  · exact msix_mgt ..

@[simp] theorem pdkEv_mgt (p b : Nat) : (s.pdkEv p b).mgt = s.mgt := by
  unfold pdkEv
  split
  · rfl
  · exact msix_mgt ..

@[simp] theorem setPdkSt_mgt (p : Nat) (st : PdkSt) : (s.setPdkSt p st).mgt = s.mgt := by
  simp only [setPdkSt]
  repeat' split
  all_goals simp

theorem endLoad_mgt (fn code check sec off : Nat) : (s.endLoad fn code check sec off).mgt = s.mgt := by
  unfold endLoad
  dsimp only
  split
  · exact msix_mgt ..
  · rw [msix_mgt, modPdk_mgt]
    split
    · rw [setPdkSt_mgt]
      rfl
    · rfl

theorem endLoad_sec (fn code check sec off : Nat) : (s.endLoad fn code check sec off).sec = s.sec :=
  (sec_of_backdrop (endLoad_backdrop ..)).trans rfl

/-- A record takes the next number of the error log (16 R453). -/
theorem logRec_logSeq (kind index status severity event paddock : Nat) (detail : List Nat) :
    (s.logRec kind index status severity event paddock detail).mgt.logSeq = (s.mgt.logSeq + 1) % 2 ^ 32 := by
  have hevent (u : State) (r : LogRec) : (u.platformEvent r).mgt.logSeq = u.mgt.logSeq := by
    unfold platformEvent
    split <;> rfl
  unfold logRec
  dsimp only
  split
  · rfl
  · rw [rasEv_mgt, hevent]

/-! ### A sample (06 R176-R178, R475, R476) -/

/-- The generator changed. -/
def withRng (s : State) (r : Rng) : State := { s with sec := { s.sec with rng := r } }

/-- A failing sample taken over and logged (06 R178; 16 R454). -/
def sampleLogged (s : State) (v : Byte) : State :=
  (s.withRng ((s.sec.rng.tested v).stopped (s.sec.rng.rctFails v) (s.sec.rng.aptFails v))).logRec 6 0 Status.entropyFault 2 0x0060 0
    [b2n (s.sec.rng.rctFails v) + 2 * b2n (s.sec.rng.aptFails v)]

theorem sampleLogged_sec : (s.sampleLogged v).sec =
    { s.sec with rng := (s.sec.rng.tested v).stopped (s.sec.rng.rctFails v) (s.sec.rng.aptFails v) } :=
  (congrArg State.sec (logRec_calm ..) :)

theorem sampleLogged_ldr : (s.sampleLogged v).ldr = s.ldr := (congrArg State.ldr (logRec_calm ..) :)

theorem entropy_unpowered (h : s.dev.baseOn = false) : s.entropy v = s := if_pos (by rw [h]; rfl)

theorem entropy_passed (hb : s.dev.baseOn = true) (h : (s.sec.rng.rctFails v || s.sec.rng.aptFails v) = false) :
    s.entropy v = s.withRng (s.sec.rng.tested v).passed := by
  obtain ⟨hf, hg⟩ := Bool.or_eq_false_iff.mp h
  simp [entropy, withRng, hb, rngStep_passed h, hf, hg]

theorem entropy_failed (hb : s.dev.baseOn = true) (h : (s.sec.rng.rctFails v || s.sec.rng.aptFails v) = true) :
    (∃ q, s.ldr.cur = some (q + 1) ∧ s.entropy v = (s.sampleLogged v).endLoad (q + 1) Status.entropyFault 0 0 0) ∨
      (∀ q, s.ldr.cur ≠ some (q + 1)) ∧ s.entropy v = s.sampleLogged v := by
  have hfg : (!s.sec.rng.rctFails v && !s.sec.rng.aptFails v) = false := by rw [← Bool.not_or, h]; rfl
  have hcur : (s.sampleLogged v).ldr.cur = s.ldr.cur := congrArg Ldr.cur sampleLogged_ldr
  unfold entropy
  rw [if_neg (by simp [hb]), rngStep_failed h]
  dsimp only
  rw [if_neg (by simp [hfg])]
  split
  · next q hq => exact .inl ⟨q, hcur.symm.trans hq, rfl⟩
  · next hother => exact .inr ⟨fun q hq => hother q (hcur.trans hq), rfl⟩

/-- What a failing sample leaves: the generator stopped, the failure counted and logged, and a tenant load that the loader has taken ended. -/
def EntropyStopped (s t : State) : Prop :=
  t.sec.rng.running = false ∧ t.sec.rng.fault = true ∧ t.sec.rng.passRun = 0 ∧
    t.sec.rng.failCount = min 65535 (s.sec.rng.failCount + 1) ∧ t.mgt.logSeq = (s.mgt.logSeq + 1) % 2 ^ 32 ∧ t.mem = s.mem ∧
    (∀ q, s.ldr.cur = some (q + 1) → t.ldr.cur = none ∧ (t.load (q + 1)).code = 0x30 ∧ (t.load (q + 1)).done = true)

theorem entropy_stops (hb : s.dev.baseOn = true) (h : (s.sec.rng.rctFails v || s.sec.rng.aptFails v) = true) :
    s.EntropyStopped (s.entropy v) ∧
      (s.entropy v).sec.rng = (s.sec.rng.tested v).stopped (s.sec.rng.rctFails v) (s.sec.rng.aptFails v) := by
  have hcount := congrArg (fun n => min 65535 (n + 1)) (s.sec.rng.tested_keeps (v := v)).1
  have hseq : (s.sampleLogged v).mgt.logSeq = (s.mgt.logSeq + 1) % 2 ^ 32 := logRec_logSeq ..
  have hmem : (s.entropy v).mem = s.mem := mem_of_kept (entropy_kept ..)
  unfold EntropyStopped
  rcases entropy_failed hb h with ⟨q, hcur, heq⟩ | ⟨hcur, heq⟩
  · obtain ⟨hcode, -, hdone, -, -, hfree⟩ := endLoad_ended (s := s.sampleLogged v) (q + 1) Status.entropyFault 0 0 0
    rw [hmem, heq, endLoad_sec, endLoad_mgt, sampleLogged_sec]
    refine ⟨⟨rfl, rfl, rfl, hcount, hseq, rfl, fun q' hq' => ?_⟩, rfl⟩
    obtain rfl : q' = q := by simpa [hcur] using hq'.symm
    exact ⟨hfree, hcode, hdone⟩
  · rw [hmem, heq, sampleLogged_sec]
    exact ⟨⟨rfl, rfl, rfl, hcount, hseq, rfl, fun q hq => absurd hq (hcur q)⟩, rfl⟩

/-! ### DRBG_REINSTANTIATE and DRBG_RESEED (06 R177, R179) -/

theorem reinstantiate_ready (hr : s.sec.rng.running = false) (hp : 1024 ≤ s.sec.rng.passRun) : s.reinstantiate =
    { s with sec := { s.sec with rng := { s.sec.rng with running := true, fault := false, gens := 0, fresh := 0 } } } :=
  if_neg (by simp [hr, hp])

theorem reinstantiate_waits (h : s.sec.rng.running = true ∨ s.sec.rng.passRun < 1024) : s.reinstantiate = s := if_pos (by simpa using h)

theorem reseed_ready (hr : s.sec.rng.running = true) (hf : 1024 ≤ s.sec.rng.fresh) : s.reseed =
    { s with sec := { s.sec with rng := { s.sec.rng with gens := 0, fresh := 0 } } } := if_neg (by simp [hr, hf])

theorem reseed_waits (h : s.sec.rng.running = false ∨ s.sec.rng.fresh < 1024) : s.reseed = s := if_pos (by simpa using h)

/-! ### Consent (06 R190, R194) -/

/-- A paddock that runs or may run. -/
def MayRun (s : State) (p : Nat) : Prop := (s.pdk p).st = .runnable ∨ (s.pdk p).st = .running ∨ (s.pdk p).st = .suspended

theorem consentWrite_unheard {p n : Nat} (h : ¬s.MayRun p ∨ n % 16 = (s.pdk p).consent) : s.consentWrite p n = s :=
  if_pos (by simpa [MayRun, and_assoc] using h)

theorem consentWrite_changes {p n : Nat} (h : s.MayRun p) (hc : n % 16 ≠ (s.pdk p).consent) : s.consentWrite p n =
    ((s.modPdk p (fun d => { d with consent := n % 16, serial := (d.serial + 1) % 65536, ever := d.ever || n % 16 ≠ 0 })).newEpoch
      (some (p + 1))).updRecord p :=
  if_neg (by simpa [MayRun, hc, or_iff_not_imp_left] using h)

@[simp] theorem updRecord_pdk (p q : Nat) : (s.updRecord p).pdk q = s.pdk q := rfl

/-- A record just updated is the paddock's as it stands (06 R182, R183). -/
theorem updRecord_record (p : Nat) : (s.updRecord p).record p = (s.updRecord p).recordNow p := by
  have hnow : (s.updRecord p).recordNow p = s.recordNow p := rfl
  unfold record
  rw [hnow, updRecord, tfind_tset_same]

/-! ### ACK (06 R195, R197) -/

theorem epochAck_moves {e : Nat} (hack : epochDone s.sec.ack (e % 2 ^ 32) = false) (hnew : epochDone s.sec.epoch (e % 2 ^ 32) = true)
    (hopen : s.accessOpen (e % 2 ^ 32) = false) : s.epochAck e = { s with sec := { s.sec with ack := e % 2 ^ 32 } } :=
  if_neg (by rw [hack, hnew, hopen]; decide)

theorem epochAck_unheard {e : Nat} (h : epochDone s.sec.ack (e % 2 ^ 32) = true ∨ epochDone s.sec.epoch (e % 2 ^ 32) = false ∨
    s.accessOpen (e % 2 ^ 32) = true) : s.epochAck e = s :=
  if_pos (by simpa [or_assoc] using h)

end State

end Sys2Proof.Machine

namespace Sys2Proof.Proofs

open Sys2Proof Sys2Proof.Machine Sys2Proof.Claims

variable {s : State} {v : Byte} {p : PdkId} {w : Word} {ide : Option Nat}

theorem entropySample_failsRct (hb : s.dev.baseOn = true) (hrun : s.sec.rng.rctRun = 40) (hv : v = s.sec.rng.rctVal) :
    Gives (.entropySample v) s (fun t => s.EntropyStopped t ∧ t.sec.rng.rctFail = true ∧ t.sec.rng.rctRun = 0) := by
  obtain ⟨hfail, hzero⟩ := Rng.rctFails_of_run hrun hv
  obtain ⟨hstop, hrng⟩ := State.entropy_stops hb (by rw [hfail]; rfl)
  refine ⟨_, rfl, hstop, ?_, ?_⟩
  · rw [hrng, hfail]
    exact Bool.or_true _
  · rw [hrng]
    exact hzero

theorem entropySample_failsApt (hb : s.dev.baseOn = true) (hpos : s.sec.rng.aptPos ≠ 0) (hcount : s.sec.rng.aptCount = 409)
    (hv : v = s.sec.rng.aptRef) :
    Gives (.entropySample v) s (fun t => s.EntropyStopped t ∧ t.sec.rng.aptFail = true ∧ t.sec.rng.aptPos = 0) := by
  obtain ⟨hfail, hzero⟩ := Rng.aptFails_of_count hpos hcount hv
  obtain ⟨hstop, hrng⟩ := State.entropy_stops hb (by rw [hfail]; exact Bool.or_true _)
  refine ⟨_, rfl, hstop, ?_, ?_⟩
  · rw [hrng, hfail]
    exact Bool.or_true _
  · rw [hrng]
    exact hzero

theorem entropySample_passes (hb : s.dev.baseOn = true) (hval : v ≠ s.sec.rng.rctVal) (href : v ≠ s.sec.rng.aptRef)
    (hpos : s.sec.rng.aptPos ≠ 0) (hcount : s.sec.rng.aptCount ≠ 410) :
    Gives (.entropySample v) s (fun t => t.sec.rng.running = s.sec.rng.running ∧ t.sec.rng.fault = s.sec.rng.fault ∧
      t.sec.rng.rctRun = 1 ∧ t.sec.rng.rctVal = v ∧ t.sec.rng.passRun = min 1024 (s.sec.rng.passRun + 1) ∧
      t.out = s.out ∧ t.mem = s.mem) := by
  obtain ⟨hpass, hrun, hlast⟩ := Rng.passes_of_differs hval href hpos hcount
  obtain ⟨-, hrunning, hfault, hseen⟩ := Rng.tested_keeps (r := s.sec.rng) (v := v)
  refine ⟨_, congrArg Host.Outcome.next (State.entropy_passed hb hpass), hrunning, hfault, hrun, hlast, ?_, rfl, rfl⟩
  exact congrArg (fun n => min 1024 (n + 1)) hseen

theorem exec_pdkConsentWrite (hh : Heeds s (p + 1) ide) : exec (.pdkConsentWrite p w ide) s = .next (s.consentWrite p w.toNat) :=
  congrArg Host.Outcome.next (State.vfWrite_heeded hh _)

theorem pdkConsentWrite_changes (hh : Heeds s (p + 1) ide) (hon : s.MayRun p) (hc : w.toNat % 16 ≠ (s.pdk p).consent) :
    Gives (.pdkConsentWrite p w ide) s (fun t => (t.pdk p).consent = w.toNat % 16 ∧
      (t.pdk p).serial = ((s.pdk p).serial + 1) % 65536 ∧ (w.toNat % 16 ≠ 0 → (t.pdk p).ever = true) ∧
      t.sec.epoch = (s.sec.epoch + 1) % 2 ^ 32 ∧ tget 0 t.sec.epochReq (p + 1) = (s.sec.epoch + 1) % 2 ^ 32 ∧
      t.record p = t.recordNow p ∧ t.mem = s.mem ∧ t.out = s.out ∧ (∀ q, q ≠ p.val → t.pdk q = s.pdk q)) := by
  refine ⟨_, (exec_pdkConsentWrite hh).trans (congrArg Host.Outcome.next (State.consentWrite_changes hon hc)), ?_⟩
  refine ⟨?_, ?_, fun hne => ?_, rfl, tget_tset_same .., State.updRecord_record _, rfl, rfl, fun q hq => ?_⟩
  · rw [State.updRecord_pdk, State.pdk_newEpoch, State.pdk_modPdk_same]
  · rw [State.updRecord_pdk, State.pdk_newEpoch, State.pdk_modPdk_same]
  · rw [State.updRecord_pdk, State.pdk_newEpoch, State.pdk_modPdk_same]
    simp [hne]
  · rw [State.updRecord_pdk, State.pdk_newEpoch, State.pdk_modPdk_ne _ _ _ _ hq]

/-- Settles O47: each sample by the test that it fails, and each write by the check that it ends at. -/
theorem randomBitsConsentAndEpochs : Obligations.RandomBitsConsentAndEpochs := by
  unfold Obligations.RandomBitsConsentAndEpochs
  refine ⟨fun s v => ?rng, fun s p w ide e hh => ?rules⟩
  case rng =>
    refine ⟨fun h => congrArg Host.Outcome.next (State.entropy_unpowered h), fun hb =>
      ⟨entropySample_failsRct hb, entropySample_failsApt hb, entropySample_passes hb⟩, ?_, ?_, ?_, ?_⟩
    · exact fun hr hp => congrArg Host.Outcome.next (State.reinstantiate_ready hr hp)
    · exact fun h => congrArg Host.Outcome.next (State.reinstantiate_waits h)
    · exact fun hr hf => congrArg Host.Outcome.next (State.reseed_ready hr hf)
    · exact fun h => congrArg Host.Outcome.next (State.reseed_waits h)
  case rules =>
    refine ⟨pdkConsentWrite_changes hh, fun h => ?_, fun hack hnew hopen => ?_, fun h => ?_⟩
    · exact (exec_pdkConsentWrite hh).trans (congrArg Host.Outcome.next (State.consentWrite_unheard h))
    · exact congrArg Host.Outcome.next (State.epochAck_moves hack hnew hopen)
    · exact congrArg Host.Outcome.next (State.epochAck_unheard h)

end Sys2Proof.Proofs
end

section
/-! The SPDM responders (06 R174, R175, R178, R180, R181, R183): what each request is answered with, and what it writes of the responder's
sessions. -/

namespace Sys2Proof.Machine

namespace State

variable {s : State} {r : Responder}

/-! ### Responses -/

section
variable {code : Nat} {asked body : List Byte}

theorem spdmSay_up (h : s.answers r = true) : s.spdmSay r code body = s.send (.spdm r code body) := if_pos h

theorem spdmSay_down (h : s.answers r = false) : s.spdmSay r code body = s := if_neg (by rw [h]; exact Bool.false_ne_true)

theorem spdmErr_up {e : Nat} (h : s.answers r = true) : s.spdmErr r e = s.send (.spdm r 0x7F [BitVec.ofNat 8 e]) := spdmSay_up h

theorem spdmErr_down {e : Nat} (h : s.answers r = false) : s.spdmErr r e = s := spdmSay_down h

/-- With the Alias key the answer is signed (06 R174). -/
theorem spdmSigned_keyed (h : s.answers r = true) (hk : s.sec.aliasKey = true) :
    ∃ sig, s.spdmSigned r code asked body = s.send (.spdm r code (body ++ sig)) :=
  ⟨_, (if_pos hk).trans (spdmSay_up h)⟩

theorem spdmSigned_unkeyed (h : s.answers r = true) (hk : s.sec.aliasKey = false) :
    s.spdmSigned r code asked body = s.send (.spdm r 0x7F [0x05]) :=
  (if_neg (by rw [hk]; exact Bool.false_ne_true)).trans (spdmErr_up h)

theorem spdmSigned_down (h : s.answers r = false) : s.spdmSigned r code asked body = s := by
  unfold spdmSigned
  split
  · exact spdmSay_down h
  · exact spdmErr_down h

end

/-- A slot other than 0 holds no chain (06 R180). -/
theorem slotSay_empty {slot : Nat} (h : slot ≠ 0) (f : State → State) : s.slotSay r slot f = s.spdmErr r 0x01 := if_neg h

/-! ### Measurements (06 R181, R183) -/

/-- A number, all blocks, or a block that there is, is answered signed. -/
theorem getMeasurements_signed {idx : Nat} (nonce : List Byte) (h : idx = 0 ∨ idx = 0xFF ∨ s.measurement idx ≠ none) :
    ∃ body, s.getMeasurements r idx nonce = s.spdmSigned r 0x60 nonce body := by
  unfold getMeasurements
  split
  · exact ⟨_, rfl⟩
  · next hnum =>
    split
    · exact ⟨_, rfl⟩
    · next hall =>
      have hblock := (h.resolve_left hnum).resolve_left hall
      exact ⟨_, if_pos (Option.isSome_iff_ne_none.mpr hblock)⟩

theorem getMeasurements_down (h : s.answers r = false) (idx : Nat) (nonce : List Byte) : s.getMeasurements r idx nonce = s := by
  unfold getMeasurements
  repeat' split
  case isFalse.isFalse.isFalse => exact spdmErr_down h
  all_goals exact spdmSigned_down h

/-! ### Sessions (06 R174, R180) -/

section
variable (l : List Session)

@[simp] theorem setSessions_sessions : (s.setSessions r l).sessions r = l := by cases r <;> rfl
@[simp] theorem setSessions_answers : (s.setSessions r l).answers r = s.answers r := by cases r <;> rfl
@[simp] theorem setSessions_out : (s.setSessions r l).out = s.out := by cases r <;> rfl
@[simp] theorem send_sessions (o : Out) : (s.send o).sessions r = s.sessions r := by cases r <;> rfl

end

/-- Sessions changed, and a response that says so. -/
def Resessioned (s t : State) (r : Responder) (l : List Session) (o : Out) : Prop := t.sessions r = l ∧ t.out = s.out ++ [o]

theorem resessioned_say (h : s.answers r = true) (l : List Session) (code : Nat) (body : List Byte) :
    s.Resessioned ((s.setSessions r l).spdmSay r code body) r l (.spdm r code body) := by
  unfold Resessioned
  rw [spdmSay_up ((setSessions_answers l).trans h), send_sessions, setSessions_sessions, send_out, setSessions_out]
  exact ⟨rfl, rfl⟩

theorem sessionMax_eq : sessionMax r = if r = .doe then 4 else 2 := by cases r <;> rfl

/-! ### KEY_EXCHANGE (06 R173, R174, R178, R180) -/

theorem keyExchange_down (h : s.answers r = false) (data : List Byte) : s.keyExchange r data = s := if_pos (by rw [h]; rfl)

theorem keyExchange_unserved (h : s.answers r = true) (hd : s.drbgReady = false) (data : List Byte) :
    s.keyExchange r data = s.spdmErr r 0x05 := by
  simp [keyExchange, h, hd]

theorem keyExchange_full (h : s.answers r = true) (hd : s.drbgReady = true) (hmax : sessionMax r ≤ (s.sessions r).length)
    (data : List Byte) :
    s.keyExchange r data = s.spdmErr r 0x0A := by
  simp [keyExchange, h, hd, hmax]

/-- A session in its handshake under the next number, once an ephemeral key has been drawn. -/
def handshake (s : State) (r : Responder) : State :=
  ({ (s.drawWide 6).2 with sec := { (s.drawWide 6).2.sec with nextSid := s.sec.nextSid + 1 } } : State).setSessions r
    (s.sessions r ++ [{ sid := s.sec.nextSid, established := false, keyEpoch := 0 }])

theorem handshake_sec : (s.handshake r).sec.nextSid = s.sec.nextSid + 1 ∧ (s.handshake r).sec.rng.gens = s.sec.rng.gens + 1 ∧
    (s.handshake r).sec.aliasKey = s.sec.aliasKey := by
  cases r <;> exact ⟨rfl, rfl, rfl⟩

theorem handshake_answers : (s.handshake r).answers r = s.answers r := by cases r <;> rfl

theorem keyExchange_opens (h : s.answers r = true) (hd : s.drbgReady = true) (hroom : (s.sessions r).length < sessionMax r)
    (hk : s.sec.aliasKey = true) (data : List Byte) :
    ∃ body, s.keyExchange r data = (s.handshake r).send (.spdm r 0x64 body) := by
  obtain ⟨-, -, hkey⟩ := handshake_sec (s := s) (r := r)
  have hopen : ∃ body, s.keyExchange r data = (s.handshake r).spdmSigned r 0x64 data body := by
    unfold keyExchange
    rw [if_neg (by simp [h]), if_neg (by simp [hd]), if_neg (by omega), if_neg (by simp [hk])]
    cases r <;> exact ⟨_, rfl⟩
  obtain ⟨body, heq⟩ := hopen
  obtain ⟨sig, hsigned⟩ := spdmSigned_keyed (handshake_answers.trans h) (hkey.trans hk) (asked := data) (body := body)
  exact ⟨_, heq.trans hsigned⟩

/-! ### FINISH and what is asked inside a session (06 R174, R180) -/

section
variable {sid : Nat} {x : Session}

theorem finish_unknown (h : s.session r sid = none) (ok : Bool) : s.finish r sid ok = s.spdmErr r 0x02 := by simp [finish, h]

theorem finish_establishes (h : s.session r sid = some x) (he : x.established = false) : s.finish r sid true =
    (s.setSessions r ((s.sessions r).map (fun y => if y.sid = sid then { y with established := true } else y))).spdmSay r 0x65 [] := by
  simp [finish, h, he]

/-- A bad MAC ends the handshake. -/
theorem finish_ends (h : s.session r sid = some x) (he : x.established = false) :
    s.finish r sid false = (s.endSession r sid).spdmErr r 0x06 := by
  simp [finish, endSession, h, he]

theorem inSession_down (h : s.answers r = false) (f : State → State) : s.inSession r sid f = s := if_pos (by rw [h]; rfl)

theorem inSession_unknown (h : s.answers r = true) (hs : s.session r sid = none) (f : State → State) :
    s.inSession r sid f = s.spdmErr r 0x02 := by
  simp [inSession, h, hs]

theorem inSession_established (h : s.answers r = true) (hs : s.session r sid = some x) (he : x.established = true) (f : State → State) :
    s.inSession r sid f = f s := by
  simp [inSession, h, hs, he]

end

end State

end Sys2Proof.Machine

namespace Sys2Proof.Proofs

open Sys2Proof Sys2Proof.Machine Sys2Proof.Claims

/-! ### The requests by kind -/

/-- Requests that need no key and no session, with the code of the response. -/
def plainRequests (r : Responder) (off len h q : Nat) : List (Instr × Nat) :=
  [(.getVersion r, 0x04), (.getCapabilities r, 0x61), (.negotiateAlgorithms r, 0x63), (.getDigests r, 0x01),
    (.getCertificate r 0 off len, 0x02), (.chunkGet r h q, 0x06)]

/-- Requests whose response the Alias key signs, with its code. -/
def signedRequests (r : Responder) (idx : Nat) (nonce : List Byte) : List (Instr × Nat) :=
  [(.challenge r 0 nonce, 0x03), (.getMeasurements r 0 nonce, 0x60), (.getMeasurements r 0xFF nonce, 0x60),
    (.getMeasurements r idx nonce, 0x60)]

/-- Requests about sessions, and those that the part does not support. -/
def sessionRequests (r : Responder) (sid code : Nat) (nonce : List Byte) (ok : Bool) : List Instr :=
  [.keyExchange r nonce, .finish r sid ok, .heartbeat r sid, .keyUpdate r sid, .endSession r sid, .spdmUnsupportedRequest r code]

section
variable {s : State} {r : Responder}

theorem exec_plain (off len h q : Nat) : ∀ e ∈ plainRequests r off len h q, ∃ body, exec e.1 s = .next (s.spdmSay r e.2 body) := by
  simp only [plainRequests, List.forall_mem_cons, List.not_mem_nil, false_imp_iff, implies_true, and_true]
  exact ⟨⟨_, rfl⟩, ⟨_, rfl⟩, ⟨_, rfl⟩, ⟨_, rfl⟩, ⟨_, rfl⟩, ⟨_, rfl⟩⟩

theorem exec_signed {idx : Nat} (nonce : List Byte) (hm : s.measurement idx ≠ none) :
    ∀ e ∈ signedRequests r idx nonce, ∃ body, exec e.1 s = .next (s.spdmSigned r e.2 nonce body) := by
  have measured {i : Nat} (hi : i = 0 ∨ i = 0xFF ∨ s.measurement i ≠ none) :
      ∃ body, exec (.getMeasurements r i nonce) s = .next (s.spdmSigned r 0x60 nonce body) := by
    obtain ⟨body, hb⟩ := State.getMeasurements_signed (r := r) nonce hi
    exact ⟨body, congrArg Host.Outcome.next hb⟩
  simp only [signedRequests, List.forall_mem_cons, List.not_mem_nil, false_imp_iff, implies_true, and_true]
  exact ⟨⟨s.chainDigest, rfl⟩, measured (.inl rfl), measured (.inr (.inl rfl)), measured (.inr (.inr hm))⟩

/-! ### A responder that is not up -/

section
variable (hup : s.answers r = false)
include hup

theorem plain_unanswered (off len h q : Nat) : ∀ e ∈ plainRequests r off len h q, exec e.1 s = .next s := by
  intro e he
  obtain ⟨body, hexec⟩ := exec_plain (s := s) off len h q e he
  rw [hexec, State.spdmSay_down hup]

theorem signed_unanswered (idx : Nat) (nonce : List Byte) : ∀ e ∈ signedRequests r idx nonce, exec e.1 s = .next s := by
  have measured (i : Nat) : exec (.getMeasurements r i nonce) s = .next s :=
    congrArg Host.Outcome.next (State.getMeasurements_down hup i nonce)
  simp only [signedRequests, List.forall_mem_cons, List.not_mem_nil, false_imp_iff, implies_true, and_true]
  exact ⟨congrArg Host.Outcome.next (State.spdmSigned_down hup), measured _, measured _, measured _⟩

theorem session_unanswered (sid code : Nat) (nonce : List Byte) (ok : Bool) :
    ∀ e ∈ sessionRequests r sid code nonce ok, exec e s = .next s := by
  simp only [sessionRequests, List.forall_mem_cons, List.not_mem_nil, false_imp_iff, implies_true, and_true]
  refine ⟨congrArg Host.Outcome.next (State.keyExchange_down hup _), congrArg Host.Outcome.next (if_neg (by simp [hup])), ?_, ?_, ?_, ?_⟩
  · exact congrArg Host.Outcome.next (State.inSession_down hup _)
  · exact congrArg Host.Outcome.next (State.inSession_down hup _)
  · exact congrArg Host.Outcome.next (State.inSession_down hup _)
  · exact congrArg Host.Outcome.next (State.spdmSay_down hup)

end

/-! ### A responder that is up -/

section
variable (hup : s.answers r = true)
include hup

theorem plain_answered (off len h q : Nat) :
    ∀ e ∈ plainRequests r off len h q, ∃ body, exec e.1 s = .next (s.send (.spdm r e.2 body)) := by
  intro e he
  obtain ⟨body, hexec⟩ := exec_plain (s := s) off len h q e he
  exact ⟨body, hexec.trans (congrArg Host.Outcome.next (State.spdmSay_up hup))⟩

theorem signed_answered {idx : Nat} (nonce : List Byte) (hm : s.measurement idx ≠ none) (hk : s.sec.aliasKey = true) :
    ∀ e ∈ signedRequests r idx nonce, ∃ body, exec e.1 s = .next (s.send (.spdm r e.2 body)) := by
  intro e he
  obtain ⟨body, hexec⟩ := exec_signed nonce hm e he
  obtain ⟨sig, hsigned⟩ := State.spdmSigned_keyed hup hk
  exact ⟨body ++ sig, hexec.trans (congrArg Host.Outcome.next hsigned)⟩

theorem signed_refused {idx : Nat} (nonce : List Byte) (hm : s.measurement idx ≠ none) (hk : s.sec.aliasKey = false) :
    ∀ e ∈ signedRequests r idx nonce, exec e.1 s = .next (s.send (.spdm r 0x7F [0x05])) := by
  intro e he
  obtain ⟨body, hexec⟩ := exec_signed nonce hm e he
  exact hexec.trans (congrArg Host.Outcome.next (State.spdmSigned_unkeyed hup hk))

theorem slot_refused {slot : Fin 8} (hslot : slot ≠ 0) (off len : Nat) (nonce : List Byte) :
    exec (.getCertificate r slot off len) s = .next (s.send (.spdm r 0x7F [0x01])) ∧
      exec (.challenge r slot nonce) s = .next (s.send (.spdm r 0x7F [0x01])) := by
  have hval : slot.val ≠ 0 := fun h => hslot (Fin.ext h)
  have hsay (f : State → State) := (State.slotSay_empty (s := s) (r := r) hval f).trans (State.spdmErr_up hup)
  exact ⟨congrArg Host.Outcome.next (hsay _), congrArg Host.Outcome.next (hsay _)⟩

theorem keyExchange_gives (nonce : List Byte) (hd : s.drbgReady = true) (hroom : (s.sessions r).length < if r = .doe then 4 else 2)
    (hk : s.sec.aliasKey = true) : Gives (.keyExchange r nonce) s (fun t =>
      t.sessions r = s.sessions r ++ [{ sid := s.sec.nextSid, established := false, keyEpoch := 0 }] ∧
      t.sec.nextSid = s.sec.nextSid + 1 ∧ t.sec.rng.gens = s.sec.rng.gens + 1 ∧ ∃ body, t.out = s.out ++ [.spdm r 0x64 body]) := by
  rw [← State.sessionMax_eq] at hroom
  obtain ⟨body, heq⟩ := State.keyExchange_opens hup hd hroom hk nonce
  obtain ⟨hsid, hgens, -⟩ := State.handshake_sec (s := s) (r := r)
  refine ⟨_, congrArg Host.Outcome.next heq, ?_, hsid, hgens, body, ?_⟩
  · rw [State.send_sessions, State.handshake, State.setSessions_sessions]
  · rw [State.send_out, State.handshake, State.setSessions_out]
    rfl

/-- A session that the responder does not hold. -/
theorem session_unknown {sid : Nat} (hs : s.session r sid = none) (ok : Bool) :
    exec (.finish r sid ok) s = .next (s.send (.spdm r 0x7F [0x02])) ∧ exec (.heartbeat r sid) s = .next (s.send (.spdm r 0x7F [0x02])) ∧
      exec (.keyUpdate r sid) s = .next (s.send (.spdm r 0x7F [0x02])) ∧
      exec (.endSession r sid) s = .next (s.send (.spdm r 0x7F [0x02])) := by
  have hin (f : State → State) := (State.inSession_unknown hup hs f).trans (State.spdmErr_up hup)
  refine ⟨congrArg Host.Outcome.next ((if_pos hup).trans ((State.finish_unknown hs ok).trans (State.spdmErr_up hup))), ?_, ?_, ?_⟩
  · exact congrArg Host.Outcome.next (hin _)
  · exact congrArg Host.Outcome.next (hin _)
  · exact congrArg Host.Outcome.next (hin _)

/-- A session in its handshake. -/
theorem handshake_finishes {sid : Nat} {x : Session} (hs : s.session r sid = some x) (he : x.established = false) :
    Gives (.finish r sid true) s (fun t => t.sessions r = (s.sessions r).map (fun y =>
        if y.sid = sid then { y with established := true } else y) ∧ t.out = s.out ++ [.spdm r 0x65 []]) ∧
      Gives (.finish r sid false) s (fun t => t.sessions r = (s.sessions r).filter (fun y => y.sid ≠ sid) ∧
        t.out = s.out ++ [.spdm r 0x7F [0x06]]) :=
  ⟨⟨_, congrArg Host.Outcome.next ((if_pos hup).trans (State.finish_establishes hs he)), State.resessioned_say hup ..⟩,
    ⟨_, congrArg Host.Outcome.next ((if_pos hup).trans (State.finish_ends hs he)), State.resessioned_say hup ..⟩⟩

/-- An established session. -/
theorem session_served {sid : Nat} {x : Session} (hs : s.session r sid = some x) (he : x.established = true) :
    exec (.heartbeat r sid) s = .next (s.send (.spdm r 0x68 [])) ∧
      Gives (.keyUpdate r sid) s (fun t => t.sessions r = (s.sessions r).map (fun y =>
        if y.sid = sid then { y with keyEpoch := y.keyEpoch + 1 } else y) ∧ t.out = s.out ++ [.spdm r 0x69 []]) ∧
      Gives (.endSession r sid) s (fun t => t.sessions r = (s.sessions r).filter (fun y => y.sid ≠ sid) ∧
        t.out = s.out ++ [.spdm r 0x6C []]) := by
  have hin (f : State → State) : (.next (s.inSession r sid f) : Res) = .next (f s) :=
    congrArg Host.Outcome.next (State.inSession_established hup hs he f)
  refine ⟨(hin _).trans (congrArg Host.Outcome.next (State.spdmSay_up hup)), ⟨_, hin _, ?_⟩, ⟨_, hin _, ?_⟩⟩
  · exact State.resessioned_say hup ..
  · exact State.resessioned_say hup ..

end

end

/-- Settles O48: by whether the responder is up, and then request by request. -/
theorem spdmResponders : Obligations.SpdmResponders := by
  unfold Obligations.SpdmResponders
  intro s r slot off len h q idx sid code nonce ok x
  refine ⟨fun hdown => ⟨?silent, session_unanswered hdown sid code nonce ok⟩, fun hup => ⟨plain_answered hup off len h q, ?version, ?digests,
    ?chain, signed_answered hup nonce, signed_refused hup nonce, fun hslot => slot_refused hup hslot off len nonce, ?unsupported,
    fun hd => ?unserved, fun hd hmax => ?full, keyExchange_gives hup nonce, fun hs => session_unknown hup hs ok, handshake_finishes hup,
    session_served hup⟩, rfl⟩
  case silent =>
    exact List.forall_mem_append.mpr ⟨plain_unanswered hdown off len h q, signed_unanswered hdown idx nonce⟩
  case version | digests | chain | unsupported =>
    exact congrArg Host.Outcome.next (State.spdmSay_up hup)
  case unserved =>
    exact congrArg Host.Outcome.next ((State.keyExchange_unserved hup hd nonce).trans (State.spdmErr_up hup))
  case full =>
    have hroomless := State.sessionMax_eq.trans_le hmax
    exact congrArg Host.Outcome.next ((State.keyExchange_full hup hd hroomless nonce).trans (State.spdmErr_up hup))

end Sys2Proof.Proofs
end

section
/-! A beat without issue (07 R209, R214, R231; 08 R258; 10 R314): what a counted beat and a bubble leave of the core, the held bundle tested
again, and each case of BUBBLE_BEAT. -/

namespace Sys2Proof.Machine

/-- A core that takes its claim's answer: the answer reaches its register one beat later (08 R258). -/
def Core.answered (c : Core) (r : Nat) (v : Word) : Core := ({ c with claimVal := none } : Core).fly 1 (.setX r v)

/-- A core after a bubble: an awaited claim answer one beat nearer, the beat counted under its cause (07 R231). -/
def Core.bubbled (c : Core) (cause : Nat) : Core :=
  { c with claimWait := c.claimWait - 1, beats := (c.beats + 1) % 2 ^ 64, cause := some cause }

namespace State

variable {s : State} {n p k : Nat} {j : Job}

/-! ### A counted beat, a bubble, and the end of a core -/

@[simp] theorem bubble_core (s : State) (n p cause : Nat) : (s.bubble n p cause).core n = (s.core n).bubbled cause := by
  simp [bubble, countBeat, Core.bubbled]

@[simp] theorem bubble_mem (s : State) (n p cause : Nat) : (s.bubble n p cause).mem = s.mem := rfl

/-- A core with an operation in flight has not ended (07 R214). -/
theorem checkEnded_inFlight (h : (s.core n).flight ≠ []) : s.checkEnded n = s := by
  simp [checkEnded, h]

/-- A tick changes no core's program. -/
theorem tickCore_progLen (s : State) (n : Nat) : (s.tickCore n).progLen n = s.progLen n := by
  simp [progLen, coreImg]

/-! ### The held bundle tested again -/

section
variable {op : SlotOp} (hgo : (s.bay (n / 16)).stopping = none) (hpace : s.paced n p = true) (hin : (s.core n).pc < s.progLen n)
  (hx : (s.core n).xfer = none) (hq : (s.core n).queue = [[op]])
  (hself : selfHeld op = true) (hfault : (s.tickCore n).slotFault n p j op = none) (hdraw : drawsOf [op] = 0)
include hgo hpace hin hx hq hself hfault hdraw

/-- A waiting bundle of one slot that raises no fault and is held only by what its own first test sets going: it is held, or it issues. -/
theorem coreBeat_selfHeld : s.coreBeat n p k j =
    (((s.tickCore n).firstTest n op).slotHold n j op).elim (.next (((s.tickCore n).firstTest n op).issueBundle n p k j [op]))
      (fun cause => .next (((s.tickCore n).firstTest n op).bubble n p cause)) := by
  have hlt : ¬ (s.core n).pc ≥ (s.tickCore n).progLen n := by rw [tickCore_progLen]; exact not_le.mpr hin
  simp only [coreBeat, hq, hgo, hpace, hx, hself, Option.isSome_none, Bool.not_true, Bool.false_and, Bool.false_eq_true, if_false,
    hlt, List.filter_cons, List.filter_nil, heldFor_nil, List.findSome?_cons, List.findSome?_nil, hfault,
    List.foldl_cons, List.foldl_nil, heldFor_one _ _ _ _ hdraw]
  cases ((s.tickCore n).firstTest n op).slotHold n j op <;> rfl

end

/-! ### A claim whose request has been made (08 R258) -/

section
variable {q : Fin 64} {cnt : BitVec 12} {r : XReg} {v : Word}

theorem slotFault_claimTake : s.slotFault n p j (.claimTake q cnt r) = none := by
  simp [slotFault, hoopFault, bankClash, bankUses]

/-- A claim makes its request once. -/
theorem firstTest_claimTake_asked (h : (s.core n).claimVal = some v) : s.firstTest n (.claimTake q cnt r) = s := by
  simp [firstTest, h]

theorem slotHold_claimTake_answered (h : (s.core n).claimWait = 0) : s.slotHold n j (.claimTake q cnt r) = none := by
  simp [slotHold, h]

theorem slotHold_claimTake_waits (h : (s.core n).claimWait ≠ 0) : s.slotHold n j (.claimTake q cnt r) = some 8 := by
  simp [slotHold, h]

theorem issueSlot_claimTake {c : Core} {bundle : Nat} (h : c.claimVal = some v) :
    s.issueSlot n p k j c bundle (.claimTake q cnt r) = s.modCore n (·.answered r v) := by
  simp [issueSlot, slotKind, issueMove, bankUses, h, Core.answered]

/-- The answer leaves with its bundle, which takes the core to its next bundle. -/
theorem issueBundle_claimTake (hend : (s.core n).ending = false) (h : (s.core n).claimVal = some v) :
    s.issueBundle n p k j [.claimTake q cnt r] =
      (((s.markBundle p k).modCore n (fun c =>
        countedCore none ((nextPc (s.core n) (leftCore s.dev.tsc.toNat c)).answered r v))).modPdk p countedPdk) := by
  rw [issueBundle_eq, issueSlot_claimTake h, countBeat_none, checkEnded_going]
  · simp only [markBundle_eq, modRing_modCore, modCore_modCore, modCore_dev]
  · simp [Core.answered, Core.fly, markBundle_eq, hend]

/-- What is left of a core once its claim's answer has gone with its bundle. -/
theorem issueBundle_claimTake_core (hend : (s.core n).ending = false) (hx : (s.core n).xfer = none)
    (hq : (s.core n).queue = [[.claimTake q cnt r]]) (hv : (s.core n).claimVal = some v) :
    let t := s.issueBundle n p k j [.claimTake q cnt r]
    (t.core n).flight = (s.core n).flight ++ [{ left := 1, act := .setX r v }] ∧ (t.core n).queue = [] ∧ (t.core n).claimVal = none ∧
      (t.core n).pc = (s.core n).pc + 1 ∧ (t.core n).beats = ((s.core n).beats + 1) % 2 ^ 64 ∧ t.mem = s.mem := by
  simp [issueBundle_claimTake hend hv, markBundle_eq, countedCore, leftCore, nextPc, Core.answered, Core.fly, hx, hq]

section
variable (hgo : (s.bay (n / 16)).stopping = none) (hpace : s.paced n p = true) (hin : (s.core n).pc < s.progLen n)
  (hx : (s.core n).xfer = none) (hq : (s.core n).queue = [[.claimTake q cnt r]]) (hv : (s.core n).claimVal = some v)
include hgo hpace hin hx hq hv

/-- A beat of a core whose claim's request has been made asks only whether the answer has come. -/
theorem coreBeat_claimTake_asked : s.coreBeat n p k j =
    ((s.tickCore n).slotHold n j (.claimTake q cnt r)).elim (.next ((s.tickCore n).issueBundle n p k j [.claimTake q cnt r]))
      (fun cause => .next ((s.tickCore n).bubble n p cause)) := by
  have hasked : ((s.tickCore n).core n).claimVal = some v := by simp [hv]
  rw [coreBeat_selfHeld hgo hpace hin hx hq rfl slotFault_claimTake rfl, firstTest_claimTake_asked hasked]

theorem coreBeat_claimTake_answered (hw : (s.core n).claimWait = 0) :
    s.coreBeat n p k j = .next ((s.tickCore n).issueBundle n p k j [.claimTake q cnt r]) := by
  rw [coreBeat_claimTake_asked hgo hpace hin hx hq hv, slotHold_claimTake_answered (by simp [hw])]
  rfl

/-- While the answer is on its way, the beat is claim-counter wait (07 R231). -/
theorem coreBeat_claimTake_waits (hw : (s.core n).claimWait ≠ 0) : s.coreBeat n p k j = .next ((s.tickCore n).bubble n p 8) := by
  rw [coreBeat_claimTake_asked hgo hpace hin hx hq hv, slotHold_claimTake_waits (by simp [hw])]
  rfl

end

end

/-- A core with no bundle waiting, inside its program, has nothing to test. -/
theorem coreBeat_idle (hq : (s.core n).queue = []) (hin : (s.core n).pc < s.progLen n) : s.coreBeat n p k j = .next s := by
  simp [coreBeat, hq, hin]

/-! ### BUBBLE_BEAT by its cases -/

section
variable (hl : s.liveJob n = some (p, k, j))
include hl

theorem bubbleBeat_stopping (h : (s.bay (n / 16)).stopping ≠ none) : s.bubbleBeat n = .next ((s.tickCore n).bubble n p 9) := by
  simp [bubbleBeat, s.beatJob_live n hl, s.lastBeat_going n _ hl, Option.isSome_iff_ne_none.mpr h]

theorem bubbleBeat_going (hgo : (s.bay (n / 16)).stopping = none) (he : (s.core n).ending = false) :
    s.bubbleBeat n = s.coreBeat n p k j := by
  simp [bubbleBeat, s.beatJob_live n hl, s.lastBeat_going n _ hl, hgo, he]

/-- After END, while an operation is in flight: operand wait (07 R214). -/
theorem bubbleBeat_ending (hgo : (s.bay (n / 16)).stopping = none) (he : (s.core n).ending = true)
    (hne : (s.core n).ended = false) (hfly : ((s.tickCore n).core n).flight ≠ []) :
    s.bubbleBeat n = .next ((s.tickCore n).bubble n p 0) := by
  have hbusy : (((s.tickCore n).bubble n p 0).core n).flight ≠ [] := by rw [bubble_core]; exact hfly
  simp [bubbleBeat, s.beatJob_live n hl, s.lastBeat_going n _ hl, hgo, he, hne, checkEnded_inFlight hbusy]

end

end State
end Sys2Proof.Machine

namespace Sys2Proof.Proofs

open Sys2Proof Sys2Proof.Machine Sys2Proof.Claims

/-- Settles O13: a stopping bay, a core after END and an idle one by what BUBBLE_BEAT tests first, a claim by whether it still waits. -/
theorem bubbleBeats : Obligations.BubbleBeats := by
  unfold Obligations.BubbleBeats
  intro s n p k j hl hpace hin q cnt r v c
  have hc : c = (s.core n).tick := s.tickCore_core n
  refine ⟨fun hgo he hx hq hv => ⟨fun hw => ?answered, fun hw => ?waits⟩, fun hgo he hq => ?idle, fun hgo he hne hfly => ?ending,
    fun hstop => ?stopping⟩
  case answered =>
    have hbeat := State.coreBeat_claimTake_answered (k := k) (j := j) hgo hpace hin hx hq hv hw
    refine ⟨_, (State.bubbleBeat_going hl hgo he).trans hbeat, ?_⟩
    rw [← s.tickCore_mem n]
    exact State.issueBundle_claimTake_core (by simp [he]) (by simp [hx]) (by simp [hq]) (by simp [hv])
  case waits =>
    have hbeat := State.coreBeat_claimTake_waits (k := k) (j := j) hgo hpace hin hx hq hv hw
    refine ⟨_, (State.bubbleBeat_going hl hgo he).trans hbeat, ?_⟩
    simp [hc, Core.bubbled, hv]
  case idle =>
    exact (State.bubbleBeat_going hl hgo he).trans (State.coreBeat_idle hq hin)
  case ending =>
    refine ⟨_, State.bubbleBeat_ending hl hgo he hne hfly, ?_⟩
    simp [hc, Core.bubbled, hne]
  case stopping =>
    refine ⟨_, State.bubbleBeat_stopping hl hstop, ?_⟩
    simp [hc, Core.bubbled]

end Sys2Proof.Proofs
end

section
/-! Hoops, arrival counters and MWAIT (07 R222, R228; 09 R275-R277, R281, R478): what a bundle of one such operation meets, its checks before
its hold, and what it does to its core when it issues. -/

namespace Sys2Proof.Machine

/-- The operations that only their own core's state decides and that change only their own core: those of Hoops and of arrival counters, and
MWAIT. -/
inductive OwnOp : SlotOp → Prop
  | hoopPush (h : Fin 16) (w : WReg) : OwnOp (.hoopPush h w)
  | hoopConfig (h : Fin 16) (adr : AReg) (cnt : BitVec 12) : OwnOp (.hoopConfig h adr cnt)
  | hoopPop (h : Fin 16) (w : WReg) : OwnOp (.hoopPop h w)
  | hoopPeek (h : Fin 16) (w : WReg) (cnt : BitVec 12) : OwnOp (.hoopPeek h w cnt)
  | hoopDrop (h : Fin 16) (cnt : BitVec 12) : OwnOp (.hoopDrop h cnt)
  | hoopCount (h : Fin 16) (x : XReg) : OwnOp (.hoopCount h x)
  | arrwait (q : Fin 128) (x : XReg) (sub : Bool) : OwnOp (.arrwait q x sub)
  | arrReset (q : Fin 128) : OwnOp (.arrReset q)
  | mwait (x : XReg) : OwnOp (.mwait x)

theorem issuedCore_hoops (tsc : Nat) (c : Core) : (Claims.issuedCore tsc c).hoops = c.hoops := by
  rcases hx : c.xfer with _ | ⟨_ | _ | _, _⟩ <;> simp [Claims.issuedCore, Claims.issuedCore.nextCore, hx]

theorem issuedCore_arr (tsc : Nat) (c : Core) : (Claims.issuedCore tsc c).arr = c.arr := by
  rcases hx : c.xfer with _ | ⟨_ | _ | _, _⟩ <;> simp [Claims.issuedCore, Claims.issuedCore.nextCore, hx]

/-- A Hoop changed on a core whose Hoops are those of another. -/
theorem Core.modHoop_of_hoops (c : Core) {y : Core} {i : Nat} (f : Hoop → Hoop) (hy : y.hoops = c.hoops) :
    y.modHoop i f = { y with hoops := tset y.hoops i (f (c.hoop i)) } := by
  simp only [modHoop, tmod, hoop, hy]

namespace OwnOp

variable {op : SlotOp} (hop : OwnOp op)
include hop

theorem slotWf_eq : slotWf op = true := by cases hop <;> rfl
theorem bundleOk_eq (img : TenImage) : State.bundleOk img [op] = true := by cases hop <;> rfl
theorem isTransfer_eq : isTransfer op = false := by cases hop <;> rfl
theorem selfHeld_eq : State.selfHeld op = false := by cases hop <;> rfl
theorem drawsOf_eq : State.drawsOf [op] = 0 := by cases hop <;> rfl

/-- Of the state, only the core decides whether the operation is held. -/
theorem slotHold_congr {s t : State} {n : Nat} {c : Core} {g : List SlotOp} {q : List (List SlotOp)} (j : Job)
    (hs : s.core n = c.queued g q) (ht : t.core n = c) : s.slotHold n j op = t.slotHold n j op := by
  cases hop <;> simp only [State.slotHold, hs, ht] <;> rfl

theorem hoopFault_queued (c : Core) (g : List SlotOp) (q : List (List SlotOp)) :
    State.hoopFault (c.queued g q) op = State.hoopFault c op := by
  cases hop <;> rfl

theorem bankClash_queued (c : Core) (g : List SlotOp) (q : List (List SlotOp)) :
    State.bankClash (c.queued g q) op = State.bankClash c op := by
  cases hop <;> rfl

/-- The checks of a Hoop operation come before that of its bank stage (09 R270, R276). -/
theorem slotFault_of_hoopFault {s : State} {n e : Nat} (p : Nat) (j : Job) (h : State.hoopFault (s.core n) op = some e) :
    s.slotFault n p j op = some e := by
  cases hop <;> simp only [State.slotFault, h]

theorem slotFault_of_free {s : State} {n : Nat} (p : Nat) (j : Job) (h : State.hoopFault (s.core n) op = none)
    (hb : State.bankClash (s.core n) op = false) : s.slotFault n p j op = none := by
  cases hop <;> simp [State.slotFault, h, hb]

/-- The checks of a Hoop operation come before its hold (09 R478). -/
theorem slotHold_of_hoopFault {s : State} {n e : Nat} (j : Job) (h : State.hoopFault (s.core n) op = some e) :
    s.slotHold n j op = none := by
  cases hop with
  | arrwait | arrReset | mwait => cases h
  | hoopCount => rfl
  | _ => simp [State.slotHold, h]

/-- Its effect at issue is that of its arm in the move slot, which does not look at the bundles that wait. -/
theorem issueSlot_queued (s : State) (n p k : Nat) (j : Job) (c : Core) (g : List SlotOp) (q : List (List SlotOp)) (bundle : Nat) :
    s.issueSlot n p k j (c.queued g q) bundle op = s.issueMove n j c bundle op := by
  cases hop <;> rfl

/-! ### A bundle of one such operation (07 R209) -/

section
variable {s : State} {n p k : Nat} {j : Job} (h : Claims.CanIssue s n p k j)
include h

/-- An operation that its core holds: a bubble, and the bundle waits. -/
theorem held {cause : Nat} (hh : (s.tickCore n).slotHold n j op = some cause) :
    s.slotCmd n false op = .next (Claims.held s n p cause op) := by
  have hhold : ((s.tickCore n).modCore n (·.queued [] [[op]])).slotHold n j op = some cause :=
    (hop.slotHold_congr j (State.core_modCore_same ..) rfl).trans hh
  have hgather : ((s.tickCore n).core n).gather = [] := by simp [h.alone.1]
  have hqueued : ((s.tickCore n).core n).queued [] [[op]] = { (s.tickCore n).core n with queue := [[op]] } := by
    rw [Core.queued, ← hgather]
  rw [State.slotCmd_alone h op hop.slotWf_eq (hop.bundleOk_eq _) (.inr hop.isTransfer_eq)]
  simp only [List.filter_cons, hop.selfHeld_eq, Bool.not_false, if_true, List.filter_nil, State.heldFor_one _ _ _ _ hop.drawsOf_eq, hhold,
    State.bubble, State.countBeat, State.modCore_modCore]
  rw [State.modCore, tmod, ← State.core, hqueued]
  rfl

/-- An operation that its check refuses: the core faults, and nothing is held. -/
theorem faults {e : Nat} (he : State.hoopFault ((s.tickCore n).core n) op = some e) :
    s.slotCmd n false op = .next ((s.tickCore n).coreFault n e ((s.tickCore n).core n).pc) := by
  have hcore : ((s.tickCore n).modCore n (·.queued [] [[op]])).core n = ((s.tickCore n).core n).queued [] [[op]] :=
    State.core_modCore_same ..
  have he' : State.hoopFault (((s.tickCore n).modCore n (·.queued [] [[op]])).core n) op = some e := by
    rw [hcore, hop.hoopFault_queued, he]
  rw [State.slotCmd_alone h op hop.slotWf_eq (hop.bundleOk_eq _) (.inr hop.isTransfer_eq)]
  simp only [List.filter_cons, hop.selfHeld_eq, Bool.not_false, if_true, List.filter_nil, State.heldFor_one _ _ _ _ hop.drawsOf_eq,
    hop.slotHold_of_hoopFault j he', hop.slotFault_of_hoopFault p j he', State.coreFault, State.modCore_modCore, State.bay_modCore,
    State.tickCore_core, Core.tick_pc]
  rfl

/-- An operation that its check lets through, that nothing holds and whose bank stage is free: it issues, with the effect that its own
arm of `issueMove` has on the core's Hoops as they stand. -/
theorem issues {f g : Core → Core} (hfault : State.hoopFault ((s.tickCore n).core n) op = none)
    (hhold : (s.tickCore n).slotHold n j op = none) (hbank : State.bankClash ((s.tickCore n).core n) op = false)
    (hi : ∀ t : State, t.issueMove n j ((s.tickCore n).core n) (s.core n).pc op = t.modCore n f)
    (hfg : ∀ y : Core, y.hoops = ((s.tickCore n).core n).hoops → y.arr = ((s.tickCore n).core n).arr → f y = g y)
    (hkeep : ∀ c, (f c).ending = c.ending := by intros; rfl)
    (hfree : ∀ (c : Core) (w : Option Nat), State.countedCore w (f c) = f (State.countedCore w c) := by intros; rfl) :
    s.slotCmd n false op = .next (Claims.issued s n p k g) := by
  have hcore : ((s.tickCore n).modCore n (·.queued [] [[op]])).core n = ((s.tickCore n).core n).queued [] [[op]] :=
    State.core_modCore_same ..
  rw [State.slotCmd_issues h op f hop.slotWf_eq (hop.bundleOk_eq _) (.inr hop.isTransfer_eq) hop.selfHeld_eq hop.drawsOf_eq
    ((hop.slotHold_congr j hcore rfl).trans hhold)
    (hop.slotFault_of_free p j (by rw [hcore, hop.hoopFault_queued, hfault]) (by rw [hcore, hop.bankClash_queued, hbank]))
    hkeep hfree (fun t => (hop.issueSlot_queued ..).trans (hi t)), State.issued_eq, State.issued_eq,
    hfg _ (issuedCore_hoops ..) (issuedCore_arr ..)]

end

end OwnOp

/-! ### Each operation's check and hold (09 R275, R276, R281, R478; 07 R228) -/

namespace State

variable {t : State} {n : Nat} {c : Core} (j : Job) {i : Fin 16} {w : WReg} {x : XReg} {adr : AReg} {cnt : BitVec 12}

/-- An access of one bank stage that no earlier access of its kind has taken (09 R270). -/
theorem bankClash_one {op : SlotOp} {u : BankUse} (h : bankUses c op = [u]) (hu : u ∉ c.banks) : bankClash c op = false := by
  simp [bankClash, h, hu]

section
variable (hs : (c.hoop i).size ≠ 0)
include hs

theorem hoopFault_hoopPush : hoopFault c (.hoopPush i w) = none := if_neg hs
theorem hoopFault_hoopPop : hoopFault c (.hoopPop i w) = none := if_neg hs
theorem hoopFault_hoopCount : hoopFault c (.hoopCount i x) = none := if_neg hs
theorem hoopFault_hoopPeek (h : cnt.toNat < (c.hoop i).size) : hoopFault c (.hoopPeek i w cnt) = none :=
  (if_neg hs).trans (if_neg (not_le.mpr h))
theorem hoopFault_hoopPeek_beyond (h : (c.hoop i).size ≤ cnt.toNat) : hoopFault c (.hoopPeek i w cnt) = some Status.accessSpan :=
  (if_neg hs).trans (if_pos h)
theorem hoopFault_hoopDrop (h : cnt.toNat ≤ (c.hoop i).size) : hoopFault c (.hoopDrop i cnt) = none :=
  (if_neg hs).trans (if_neg (not_lt.mpr h))
theorem hoopFault_hoopDrop_beyond (h : (c.hoop i).size < cnt.toNat) : hoopFault c (.hoopDrop i cnt) = some Status.accessSpan :=
  (if_neg hs).trans (if_pos h)

end

theorem hoopFault_hoopConfig (hb : (c.rdA adr).toNat < 4096) (h : cnt.toNat = 0 ∨ (c.rdA adr).toNat + cnt.toNat ≤ 4096) :
    hoopFault c (.hoopConfig i adr cnt) = none := by
  rcases h with h | h
  · simp [hoopFault, Nat.not_le.mpr hb, h]
  · simp [hoopFault, Nat.not_le.mpr hb, Nat.not_lt.mpr h]

theorem hoopFault_hoopConfig_span (hb : (c.rdA adr).toNat < 4096) (h0 : cnt.toNat ≠ 0) (h : 4096 < (c.rdA adr).toNat + cnt.toNat) :
    hoopFault c (.hoopConfig i adr cnt) = some Status.accessSpan := by
  simp [hoopFault, Nat.not_le.mpr hb, h0, h]

section
variable (hs : ((t.core n).hoop i).size ≠ 0)
include hs

theorem slotHold_hoopPush : t.slotHold n j (.hoopPush i w) =
    if ((t.core n).hoop i).o = ((t.core n).hoop i).size then some 4 else none := by
  simp [slotHold, hoopFault_hoopPush hs]

theorem slotHold_hoopPop : t.slotHold n j (.hoopPop i w) = if ((t.core n).hoop i).a = 0 then some 0 else none := by
  simp [slotHold, hoopFault_hoopPop hs]

theorem slotHold_hoopPeek (h : cnt.toNat < ((t.core n).hoop i).size) : t.slotHold n j (.hoopPeek i w cnt) =
    if ((t.core n).hoop i).a ≤ cnt.toNat then some 0 else none := by
  simp [slotHold, hoopFault_hoopPeek hs h]

theorem slotHold_hoopDrop (h : cnt.toNat ≤ ((t.core n).hoop i).size) : t.slotHold n j (.hoopDrop i cnt) =
    if ((t.core n).hoop i).a < cnt.toNat then some 0 else none := by
  simp [slotHold, hoopFault_hoopDrop hs h]

end

theorem slotHold_hoopConfig (hf : hoopFault (t.core n) (.hoopConfig i adr cnt) = none) :
    t.slotHold n j (.hoopConfig i adr cnt) = if hoopBusy (t.core n) i = true then some 0 else none := by
  simp [slotHold, hf]

/-- A push or a pop of a Hoop moves while one of its counts is still to follow (09 R275). -/
theorem hoopBusy_iff : hoopBusy c i = true ↔ ∃ f ∈ c.flight, f.act = .hoopA i ∨ ∃ q, f.act = .hoopO i q := by
  rw [hoopBusy, List.any_eq_true]
  refine exists_congr fun f => and_congr_right fun _ => ?_
  cases f.act <;> simp

theorem slotHold_arrwait {q : Fin 128} {sub : Bool} : t.slotHold n j (.arrwait q x sub) =
    if tget 0 (t.core n).arr q < ((t.core n).rdX x).toNat % 2 ^ 32 then some 2 else none := by
  simp [slotHold]

theorem slotHold_mwait : t.slotHold n j (.mwait x) = if (t.core n).mac ≠ none then some 0 else none := by
  simp [slotHold, Option.isSome_iff_ne_none]

end State
end Sys2Proof.Machine

namespace Sys2Proof.Proofs

open Sys2Proof Sys2Proof.Machine Sys2Proof.Claims

/-- Settles O15: an operation is held (`OwnOp.held`) or issues (`OwnOp.issues`) as `State.slotHold_arrwait` and `State.slotHold_mwait` say. -/
theorem arrivalsAndMacroResults : Obligations.ArrivalsAndMacroResults := by
  unfold Obligations.ArrivalsAndMacroResults
  intro s n p k j hc q r c v want
  have waits {sub : Bool} (h : v < want) := (OwnOp.arrwait q r sub).held hc ((State.slotHold_arrwait j).trans (if_pos h))
  have free {sub : Bool} (h : want ≤ v) : (s.tickCore n).slotHold n j (.arrwait q r sub) = none :=
    (State.slotHold_arrwait j).trans (if_neg (not_lt.mpr h))
  refine ⟨fun h => ⟨?reached, ?taken⟩, fun h => ⟨waits h, waits h⟩, ?reset, fun h => ?result, fun h => ?flying⟩
  case reached =>
    exact (OwnOp.arrwait q r false).issues hc rfl (free h) rfl (fun _ => rfl) (fun y _ _ => by simp [State.bankUses])
  case taken =>
    refine (OwnOp.arrwait q r true).issues hc rfl (free h) rfl (fun t => t.modCore_modCore ..) (fun y _ hy => ?_)
    simp only [State.bankUses, List.append_nil, tmod, hy]
    rfl
  case reset =>
    exact (OwnOp.arrReset q).issues hc rfl rfl rfl (fun t => t.modCore_modCore ..)
      (fun y _ _ => by simp only [State.bankUses, List.append_nil])
  case result =>
    refine (OwnOp.mwait r).issues hc rfl ((State.slotHold_mwait j).trans (if_neg (not_not.mpr h))) rfl (fun t => t.modCore_modCore ..)
      (fun y _ _ => ?_)
    simp only [State.bankUses, List.append_nil]
    cases c.macRes <;> rfl
  case flying => exact (OwnOp.mwait r).held hc ((State.slotHold_mwait j).trans (if_pos h))

/-- Settles O14: an operation faults by its check (`OwnOp.faults`), else is held (`OwnOp.held`), else issues (`OwnOp.issues`). -/
theorem hoopOperations : Obligations.HoopOperations := by
  unfold Obligations.HoopOperations
  intro s n p k j hc h w r adr cnt c x m base put use peeked moving faults
  refine ⟨fun hs => ⟨fun ho hb => ?push, fun ho => ?pushFull, fun ha hb => ?pop, fun ha => ?popEmpty, fun hm ha hb => ?peek,
    fun hm ha => ?peekEmpty, fun hm => ?peekOut, fun hm0 hm ha => ?drop, fun hm => ?dropNone, fun hm ha => ?dropEmpty, fun hm => ?dropOut,
    ?count⟩, fun hs => ?disabled, fun hb hm hidle => ?config, fun hb hm hmv => ?configMoving, fun hb => ?configOut,
    fun hb hm hsp => ?configSpan⟩
  case push =>
    refine (OwnOp.hoopPush h w).issues hc (State.hoopFault_hoopPush hs) ((State.slotHold_hoopPush j hs).trans (if_neg ho))
      (State.bankClash_one rfl hb) (fun t => t.modCore_modCore ..) (fun y hy _ => ?_)
    rw [Core.modHoop_of_hoops c]
    · rfl
    · exact hy
  case pushFull => exact (OwnOp.hoopPush h w).held hc ((State.slotHold_hoopPush j hs).trans (if_pos ho))
  case pop =>
    refine (OwnOp.hoopPop h w).issues hc (State.hoopFault_hoopPop hs) ((State.slotHold_hoopPop j hs).trans (if_neg ha))
      (State.bankClash_one rfl hb) (fun t => t.modCore_modCore ..) (fun y hy _ => ?_)
    rw [Core.modHoop_of_hoops c]
    · rfl
    · exact hy
  case popEmpty => exact (OwnOp.hoopPop h w).held hc ((State.slotHold_hoopPop j hs).trans (if_pos ha))
  case peek =>
    exact (OwnOp.hoopPeek h w cnt).issues hc (State.hoopFault_hoopPeek hs hm)
      ((State.slotHold_hoopPeek j hs hm).trans (if_neg (not_le.mpr ha))) (State.bankClash_one rfl hb) (fun t => t.modCore_modCore ..)
      (fun _ _ _ => rfl)
  case peekEmpty => exact (OwnOp.hoopPeek h w cnt).held hc ((State.slotHold_hoopPeek j hs hm).trans (if_pos ha))
  case peekOut => exact (OwnOp.hoopPeek h w cnt).faults hc (State.hoopFault_hoopPeek_beyond hs hm)
  case drop =>
    have hcnt : cnt ≠ 0 := fun h0 => hm0 (congrArg BitVec.toNat h0)
    refine (OwnOp.hoopDrop h cnt).issues hc (State.hoopFault_hoopDrop hs hm)
      ((State.slotHold_hoopDrop j hs hm).trans (if_neg (not_lt.mpr ha))) rfl
      (fun t => (if_neg hcnt).trans (t.modCore_modCore ..)) (fun y hy _ => ?_)
    rw [Core.modHoop_of_hoops c]
    · simp only [State.bankUses, List.append_nil]
      rfl
    · exact hy
  case dropNone =>
    have hle (l : Nat) : m ≤ l := hm.trans_le l.zero_le
    exact (OwnOp.hoopDrop h cnt).issues hc (State.hoopFault_hoopDrop hs (hle _))
      ((State.slotHold_hoopDrop j hs (hle _)).trans (if_neg (not_lt.mpr (hle _)))) rfl
      (fun t => if_pos (BitVec.eq_of_toNat_eq hm)) (fun y _ _ => by simp [State.bankUses])
  case dropEmpty => exact (OwnOp.hoopDrop h cnt).held hc ((State.slotHold_hoopDrop j hs hm).trans (if_pos ha))
  case dropOut => exact (OwnOp.hoopDrop h cnt).faults hc (State.hoopFault_hoopDrop_beyond hs hm)
  case count =>
    exact (OwnOp.hoopCount h r).issues hc (State.hoopFault_hoopCount hs) rfl rfl (fun t => t.modCore_modCore ..)
      (fun y _ _ => by simp only [State.bankUses, List.append_nil]; rfl)
  case disabled =>
    exact ⟨(OwnOp.hoopPush h w).faults hc (if_pos hs), (OwnOp.hoopPop h w).faults hc (if_pos hs),
      (OwnOp.hoopPeek h w cnt).faults hc (if_pos hs), (OwnOp.hoopDrop h cnt).faults hc (if_pos hs),
      (OwnOp.hoopCount h r).faults hc (if_pos hs)⟩
  case config =>
    have hf : State.hoopFault c (.hoopConfig h adr cnt) = none := State.hoopFault_hoopConfig hb hm
    exact (OwnOp.hoopConfig h adr cnt).issues hc hf
      ((State.slotHold_hoopConfig j hf).trans (if_neg (mt State.hoopBusy_iff.mp hidle))) rfl (fun t => t.modCore_modCore ..)
      (fun y _ _ => by simp only [State.bankUses, List.append_nil]; rfl)
  case configMoving =>
    exact (OwnOp.hoopConfig h adr cnt).held hc
      ((State.slotHold_hoopConfig j (State.hoopFault_hoopConfig hb hm)).trans (if_pos (State.hoopBusy_iff.mpr hmv)))
  case configOut => exact (OwnOp.hoopConfig h adr cnt).faults hc (if_pos hb)
  case configSpan => exact (OwnOp.hoopConfig h adr cnt).faults hc (State.hoopFault_hoopConfig_span hb hm hsp)

end Sys2Proof.Proofs
end

section
/-! Scratchpad health (09 R284-R290): what a corrected check writes of its core, which row the patrol checks and what it leaves, and a row
retired to a zeroed spare or the bay quarantined. -/

namespace Sys2Proof.Machine

/-! ### A corrected check (09 R284, R286) -/

/-- A core whose check of a row corrected so many code words. -/
def Core.corrects (c : Core) (r words : Nat) : Core :=
  { c with ce := min (c.ce + words) 65535, corrected := tset c.corrected r (tget 0 c.corrected r + 1)
           marked := if 3 ≤ tget 0 c.corrected r + 1 && !c.marked.contains r then c.marked ++ [r] else c.marked }

/-- A core whose write-back of a row is pending (09 R284). -/
def Core.dirtied (c : Core) (r : Nat) : Core := { c with dirty := if c.dirty.contains r then c.dirty else c.dirty ++ [r] }

/-- A core whose patrol of a bank has checked a row (09 R285). -/
def Core.patrolled (c : Core) (k i : Nat) : Core := { c with patrol := tset c.patrol k (i + 1) }

@[simp] theorem Core.dirtied_marked (c : Core) (r : Nat) : (c.dirtied r).marked = c.marked := rfl
@[simp] theorem Core.dirtied_spad (c : Core) (r : Nat) : (c.dirtied r).spad = c.spad := rfl

theorem Core.mem_dirtied (c : Core) (r : Nat) : r ∈ (c.dirtied r).dirty := by
  unfold dirtied
  split
  · next h => exact List.contains_iff_mem.mp h
  · simp

/-- A row is marked at its third corrected check, and stays marked (09 R286). -/
theorem Core.mem_corrects_marked (c : Core) (r words : Nat) :
    r ∈ (c.corrects r words).marked ↔ r ∈ c.marked ∨ 2 ≤ tget 0 c.corrected r := by
  by_cases hm : r ∈ c.marked
  · simp [corrects, hm]
  · by_cases hk : 2 ≤ tget 0 c.corrected r <;> simp [corrects, hm, hk]

/-! ### A row retired to a zeroed spare (09 R287, R289) -/

/-- A core whose row has met an uncorrectable error: the error is counted, and the first of the bank's unused spares `rows`, zeroed, stands
in for the row with its own mark and its own count of corrected checks. -/
def Core.spared (c : Core) (rows : List Nat) (r : Nat) : Core :=
  let sp := 4096 + 8 * (r % 8) + rows.headD 8
  ({ c with
      ue := min (c.ue + 1) 255
      spares := tset c.spares (r % 8) (rows.drop 1)
      marked := (c.marked.filter (· != r)).map (fun x => if x = sp then r else x)
      corrected := if thas c.corrected sp then tset (tdel c.corrected sp) r (tget 0 c.corrected sp) else tdel c.corrected r } : Core).setRow r 0

namespace Core

variable (c : Core) (rows : List Nat) (r : Nat)

@[simp] theorem spared_spares : (c.spared rows r).spares = tset c.spares (r % 8) (rows.drop 1) := rfl

@[simp] theorem spared_rowAt_same : (c.spared rows r).rowAt r = 0 := tget_tset_same ..

theorem spared_rowAt_ne {q : Nat} (h : q ≠ r) : (c.spared rows r).rowAt q = c.rowAt q := tget_tset_ne _ _ _ _ _ h

/-- The mark of the row that is gone goes with it, and where only visible rows are marked its spare brings none (09 R286). -/
theorem not_mem_spared_marked (h : ∀ q ∈ c.marked, q < 4096) : r ∉ (c.spared rows r).marked := by
  intro hr
  obtain ⟨q, hq, hqr⟩ := List.mem_map.mp hr
  obtain ⟨hqm, hne⟩ := List.mem_filter.mp hq
  have hlt := h q hqm
  rw [if_neg (by omega)] at hqr
  simp [hqr] at hne

end Core

namespace State

variable {s t : State} {n k r : Nat}

theorem spadCorrected_eq (s : State) (n r words : Nat) : s.spadCorrected n r words = s.modCore n (·.corrects r words) := rfl

/-! ### The patrol (09 R285) -/

theorem spadPatrol_rests (e : EccResult) (h : s.dev.computeRails = false) : s.spadPatrol n k e = s := by
  simp [spadPatrol, h]

theorem patrolRow_visible (h : tget 0 (s.core n).patrol k < 512) : s.patrolRow n k = tget 0 (s.core n).patrol k := if_pos h

theorem patrolRow_spare {j : Nat} (h : 512 ≤ tget 0 (s.core n).patrol k)
    (hj : (s.spareRows n k).find? (fun i => tget 0 (s.core n).patrol k - 512 ≤ i) = some j) : s.patrolRow n k = 512 + j := by
  simp only [patrolRow, if_neg (not_lt.mpr h), hj]

theorem patrolRow_wraps (h : 512 ≤ tget 0 (s.core n).patrol k)
    (hj : (s.spareRows n k).find? (fun i => tget 0 (s.core n).patrol k - 512 ≤ i) = none) : s.patrolRow n k = 0 := by
  simp only [patrolRow, if_neg (not_lt.mpr h), hj]

section
variable (hr : s.dev.computeRails = true) (hp : (s.bay (n / 16)).powered = true)
include hr hp

theorem spadPatrol_clean : s.spadPatrol n k .clean = s.modCore n (·.patrolled k (s.patrolRow n k)) := by
  simp only [spadPatrol, hr, hp, Bool.not_true, Bool.or_self, Bool.false_eq_true, if_false]
  rfl

/-- A visible row that the patrol corrected is counted, and its write-back falls due (09 R284). -/
theorem spadPatrol_corrected_visible (words : Nat) (h : s.patrolRow n k < 512) : s.spadPatrol n k (.corrected words) =
    s.modCore n (fun c => ((c.patrolled k (s.patrolRow n k)).corrects (8 * s.patrolRow n k + k) words).dirtied
      (8 * s.patrolRow n k + k)) := by
  simp only [spadPatrol, hr, hp, Bool.not_true, Bool.or_self, Bool.false_eq_true, if_false, h, if_true, spadCorrected_eq, modCore_modCore]
  rfl

/-- An unused spare that the patrol corrected is counted (09 R285). -/
theorem spadPatrol_corrected_spare (words : Nat) {j : Nat} (h : s.patrolRow n k = 512 + j) : s.spadPatrol n k (.corrected words) =
    s.modCore n (fun c => (c.patrolled k (512 + j)).corrects (4096 + 8 * k + j) words) := by
  have hj : ¬ 512 + j < 512 := by omega
  simp only [spadPatrol, hr, hp, Bool.not_true, Bool.or_self, Bool.false_eq_true, if_false, h, hj, spadCorrected_eq, modCore_modCore,
    Nat.add_sub_cancel_left]
  rfl

end

/-! ### An uncorrectable error (09 R287-R290) -/

/-- The count of an error takes no spare. -/
theorem spareRows_counted (f : Core → Core) (hf : (f (s.core n)).spares = (s.core n).spares) (k : Nat) :
    (s.modCore n f).spareRows n k = s.spareRows n k := by
  simp only [spareRows, core_modCore_same, hf]

/-- The spare of a row leaves the unused ones of its bank. -/
theorem spare_spared (h : (t.core n).spares = ((s.core n).spared (s.spareRows n (r % 8)) r).spares) :
    t.spare n (r % 8) = s.spare n (r % 8) - 1 := by
  simp [spare, spareRows, h]

theorem retireRow_visible (hr : r < 4096) :
    ((s.modCore n (fun c => { c with ue := min (c.ue + 1) 255 })).retireRow n r).modCore n (·.setRow r 0) =
      s.modCore n (·.spared (s.spareRows n (r % 8)) r) := by
  have hbank : bankOf r = r % 8 := if_pos hr
  simp only [retireRow, hbank, hr, if_true, spareRows_counted, modCore_modCore]
  rfl

theorem coreFault_core (s : State) (n e bundle : Nat) : (s.coreFault n e bundle).core n =
    { s.core n with fault := e, running := false, queue := [], gather := [], cause := none
                    mac := (s.core n).mac.filter (fun m => m.bundle ≠ bundle) } := by
  simp only [coreFault]
  split <;> simp [modJob]

/-- What follows a retired row, by who found its error (09 R288, R289). -/
def ueFollows (s : State) (n : Nat) (f : UeFinder) : State :=
  let faulted := if (s.bay (n / 16)).job.isSome then s.ueFault n Status.rowRetired f else s
  let lost := s.modBay (n / 16) (fun x => { x with lossMark := true })
  match f with
  | .save => lost
  | .patrol => if (s.bay (n / 16)).job.isNone && (s.bay (n / 16)).holder.isSome then lost else faulted
  | _ => faulted

/-- An error in a visible row of a bank that has a spare: the row is retired, which only records of the error log accompany, and what follows
depends on who found it. -/
theorem spadUncorrectable_spared {f : UeFinder} (hr : r < 4096) (hv : s.spare n (r % 8) ≠ 0) (hf : ∀ j, f ≠ .patrolSpare j) :
    ∃ u : State, u.core n = (s.core n).spared (s.spareRows n (r % 8)) r ∧ (∀ b, u.bay b = s.bay b) ∧ u.mem = s.mem ∧
      s.spadUncorrectable n r f = u.ueFollows n f := by
  unfold spadUncorrectable
  extract_lets b s₁ v faults s₂ p s₃ s₄ lose
  have hv₁ : v ≠ 0 := by simpa [v, s₁, spare, spareRows_counted] using hv
  have h₂ : s₂ = s.modCore n (·.spared (s.spareRows n (r % 8)) r) := retireRow_visible hr
  have h₄ : s₄.calm = (s.modCore n (·.spared (s.spareRows n (r % 8)) r)).calm := by
    rw [← h₂]
    simp only [s₄, s₃]
    split <;> simp only [logRec_calm]
  refine ⟨s₄, (core_of_unhoused (unhoused_of_calm h₄) n).trans (core_modCore_same ..),
    fun b => (bay_of_unhoused (unhoused_of_calm h₄) b).trans rfl, (mem_of_kept (kept_of_calm h₄)).trans rfl, ?_⟩
  cases f with
  | patrolSpare j => exact absurd rfl (hf j)
  | _ => exact if_neg hv₁

/-- A bay without a job takes a quarantine's reason for its stop, whatever the one before. -/
theorem joinWhy_quarantine (old : Option StopWhy) : joinWhy old .quarantine = .quarantine := by
  cases old <;> rfl

/-- A bay without a job that leaves scheduling: it drains, and stops at once (05 R163). -/
theorem bayOut_idle {b : BayId} (hj : (s.bay b).job = none) : ((s.bayOut b).bay b).unit_ = .draining ∧
    ((s.bayOut b).bay b).stopping = some .quarantine ∧ ∀ m, (s.bayOut b).core m = s.core m := by
  have hbay := s.setUnitBoth_bay b .draining
  have hjob : (((s.setUnitBoth (.bay b) .draining).bay b).job) = none := by rw [hbay]; exact hj
  have hon : (s.setUnitBoth (.bay b) .draining).jobOn b = none := by simp only [jobOn, hjob]
  have hout : s.bayOut b = (s.setUnitBoth (.bay b) .draining).stopBay b .quarantine := by simp [bayOut, hon]
  refine ⟨?_, ?_, fun m => ?_⟩
  · rw [hout, stopBay_bay_idle _ hjob, hbay]
  · rw [hout, stopBay_bay_idle _ hjob, joinWhy_quarantine]
  · rw [hout, core_of_unbayed (stopBay_unbayed ..), setUnitBoth_bay_core]

/-- A bay that is not in quarantine yet is logged, and leaves scheduling (16 R463). -/
theorem quarantine_bay {b : BayId} (cause : Nat) (hu : (s.bay b).unit_ ≠ .quarantined) :
    ∃ u : State, u.calm = s.calm ∧ s.quarantine (.bay b) cause = u.bayOut b :=
  ⟨s.logRec 1 b Status.quarantined 2 0x0030 0 [cause], logRec_calm .., if_neg hu⟩

/-- An error without a spare, on a bay that has no job: the error is counted, and the bay goes into quarantine (09 R290). -/
theorem spadUncorrectable_spareless {b : BayId} (hb : b.val = n / 16) (hv : s.spare n (r % 8) = 0) (hj : (s.bay b).job = none) :
    s.spadUncorrectable n r .patrol = (s.modCore n (fun c => { c with ue := min (c.ue + 1) 255 })).quarantine (.bay b) 1 := by
  have hof : Fin.ofNat 16 (n / 16) = b := hb ▸ Fin.ofNat_val_eq_self b
  unfold spadUncorrectable
  extract_lets b' s₁ v faults
  have hv₁ : v = 0 := by simpa [v, s₁, spare, spareRows_counted] using hv
  have hfaults : faults s₁ Status.quarantined = s₁ := by
    simp only [faults, s₁, b', bay_modCore, ← hb, hj]
    rfl
  refine (if_pos hv₁).trans ?_
  rw [hfaults, hof]

end State
end Sys2Proof.Machine

namespace Sys2Proof.Proofs

open Sys2Proof Sys2Proof.Machine Sys2Proof.Claims

/-- Settles O27: a corrected check by `Core.corrects`, the patrol by the row that it checks, an uncorrectable error by whether the bank has a
spare (`State.spadUncorrectable_spared`, `State.spadUncorrectable_spareless`). -/
theorem scratchpadHealth : Obligations.ScratchpadHealth := by
  unfold Obligations.ScratchpadHealth
  intro s n row bank words bundle c v q counted
  have hrow : (row : Nat) < 4096 := row.isLt
  have same (f : Core → Core) : (s.modCore n f).core n = f c := State.core_modCore_same ..
  refine ⟨rfl, ?words, fun e h => congrArg Host.Outcome.next (State.spadPatrol_rests e h), fun hr hp => ⟨fun hq => ⟨?clean, ?corrected⟩,
    fun j hq hj => ?spare, fun hq hj => ?wraps⟩, fun hv hj => ?program, fun hv hj hh => ?patrol, fun hv _ hu hj => ?spareless⟩
  case words =>
    refine ⟨_, congrArg Host.Outcome.next (s.spadCorrected_eq n row words), ?_⟩
    simp only [counted, same]
    exact ⟨⟨rfl, tget_tset_same .., c.mem_corrects_marked row words, rfl, rfl⟩, rfl⟩
  case clean =>
    refine ⟨_, congrArg Host.Outcome.next (State.spadPatrol_clean hr hp), ?_⟩
    simp only [State.patrolRow_visible hq, same]
    exact ⟨tget_tset_same .., rfl, rfl, rfl⟩
  case corrected =>
    have hi : s.patrolRow n bank = q := State.patrolRow_visible hq
    refine ⟨_, congrArg Host.Outcome.next (State.spadPatrol_corrected_visible hr hp words (hi.trans_lt hq)), ?_⟩
    simp only [hi, counted, same, Core.dirtied_marked, Core.dirtied_spad]
    exact ⟨⟨rfl, tget_tset_same .., (c.patrolled bank q).mem_corrects_marked (8 * q + bank) words, rfl, rfl⟩, tget_tset_same ..,
      Core.mem_dirtied ..⟩
  case spare =>
    refine ⟨_, congrArg Host.Outcome.next (State.spadPatrol_corrected_spare hr hp words (State.patrolRow_spare hq hj)), ?_⟩
    simp only [counted, same]
    exact ⟨⟨rfl, tget_tset_same .., (c.patrolled bank (512 + j)).mem_corrects_marked (4096 + 8 * bank + j) words, rfl, rfl⟩,
      tget_tset_same .., rfl⟩
  case wraps =>
    refine ⟨_, congrArg Host.Outcome.next (State.spadPatrol_clean hr hp), ?_⟩
    simp only [State.patrolRow_wraps hq hj, same]
    exact ⟨tget_tset_same .., rfl⟩
  case program =>
    obtain ⟨u, hcore, hbay, hmem, hstep⟩ := State.spadUncorrectable_spared (f := .program bundle) hrow hv (by simp)
    have hfault : u.ueFollows n (.program bundle) = u.coreFault n Status.rowRetired bundle :=
      if_pos (by rw [hbay]; exact Option.isSome_iff_ne_none.mpr hj)
    have hend := u.coreFault_core n Status.rowRetired bundle
    rw [hcore] at hend
    refine ⟨_, congrArg Host.Outcome.next (hstep.trans hfault), ?_⟩
    beta_reduce
    rw [hend]
    exact ⟨c.spared_rowAt_same .., fun r h => c.spared_rowAt_ne _ _ h, State.spare_spared (by rw [hend]), c.not_mem_spared_marked _ _,
      rfl, rfl, rfl, (State.mem_of_kept (State.coreFault_kept ..)).trans hmem⟩
  case patrol =>
    obtain ⟨u, hcore, hbay, hmem, hstep⟩ := State.spadUncorrectable_spared (f := .patrol) hrow hv (by simp)
    have hlost : u.ueFollows n .patrol = u.modBay (n / 16) (fun x => { x with lossMark := true }) :=
      if_pos (by rw [hbay, hj, Option.isSome_iff_ne_none.mpr hh]; rfl)
    refine ⟨_, congrArg Host.Outcome.next (hstep.trans hlost), ?_⟩
    beta_reduce
    rw [State.core_modBay, State.bay_modBay_same, hcore]
    exact ⟨c.spared_rowAt_same .., State.spare_spared (by rw [State.core_modBay, hcore]), rfl, rfl, hmem⟩
  case spareless =>
    have hb : n.val / 16 < 16 := by omega
    obtain ⟨u, hcalm, hquar⟩ := State.quarantine_bay (s := s.modCore n (fun c => { c with ue := min (c.ue + 1) 255 }))
      (b := ⟨n.val / 16, hb⟩) 1 hu
    have hbay := State.bay_of_unhoused (State.unhoused_of_calm hcalm) (n / 16)
    have hcore := State.core_of_unhoused (State.unhoused_of_calm hcalm) n
    obtain ⟨hunit, hwhy, hcores⟩ := State.bayOut_idle (s := u) (b := ⟨n.val / 16, hb⟩) ((congrArg Bay.job hbay).trans hj)
    refine ⟨_, congrArg Host.Outcome.next ((State.spadUncorrectable_spareless rfl hv hj).trans hquar), hunit, hwhy, ?_, ?_⟩
    · rw [hcores, hcore, same]
    · exact (State.mem_of_kept ((State.bayOut_kept _).trans (State.kept_of_calm hcalm))).trans rfl

end Sys2Proof.Proofs
end

section
/-! Row slots, answers and the memory patrol (10 R305-R307; 01 R30, R31; 16 R459, R460): which request a controller's next row slot goes to,
what a slot leaves of the queue, what the answer of a fetch and of a write sends, and what the patrol's read of a granule leaves. -/

namespace Sys2Proof.Machine

/-- A controller that has granted a row slot to a request (10 R305-R307). -/
def MemCtl.granted (m : MemCtl) (w : Waiting) : MemCtl :=
  { m with
    queue := if w.slots ≤ 1 then m.queue.erase w else m.queue.set (m.queue.idxOf w) { w with slots := w.slots - 1 }
    writing := if w.slots ≤ 1 && w.write then m.writing ++ [w] else m.writing
    recent := if w.cls = .save then m.recent else (m.recent ++ [decide (w.cls = .fcfs)]).drop (m.recent.length - 2) }

/-- A controller without a fetch. -/
def MemCtl.unfetched (m : MemCtl) : MemCtl := { m with fetches := [] }

@[simp] theorem MemCtl.unfetched_fetches (m : MemCtl) : m.unfetched.fetches = [] := rfl

/-- A controller whose patrol has read its next granule (16 R459). -/
def MemCtl.patrolled (m : MemCtl) : MemCtl :=
  { m with granule := (m.granule + 1) % 4194304, pass := if m.granule + 1 = 4194304 then m.pass + 1 else m.pass }

/-- The passes of the patrol on which a row has shown corrected errors, with another one (16 R460). -/
def hitsWith (old : List Nat) (pass : Nat) : List Nat := if pass ∈ old then old else old ++ [pass]

namespace State

variable {s t : State} {st tag row : Nat} {f : Fetch} {m : MemCtl} {v w : Waiting}

/-! ### The request that a row slot goes to (10 R306, R307) -/

theorem firstWaiting_two : firstWaiting [v, w] = some (if before w v then w else v) := rfl

theorem nextSlot_none (h : m.queue = []) : nextSlot m = none := by
  simp [nextSlot, h, firstWaiting]

/-- The save class comes before both others. -/
theorem nextSlot_save {rest : List Waiting} (h : m.queue = w :: rest) (hw : w.cls = .save) (hr : ∀ v ∈ rest, v.cls ≠ .save) :
    nextSlot m = some w := by
  have hone : m.queue.filter (fun w => w.cls = .save) = [w] := by simpa [h, hw] using hr
  simp [nextSlot, hone, firstWaiting]

/-- A deadline request waits where none of the last three slots went to the FCFS class. -/
theorem nextSlot_deadline_fcfs (h : m.queue = [v, w]) (hv : v.cls = .deadline) (hw : w.cls = .fcfs) :
    nextSlot m = some (if true ∈ m.recent then v else w) := by
  by_cases hr : true ∈ m.recent <;> simp [nextSlot, h, hv, hw, hr, firstWaiting]

theorem nextSlot_deadlines (h : m.queue = [v, w]) (hv : v.cls = .deadline) (hw : w.cls = .deadline) :
    nextSlot m = some (if before w v then w else v) := by
  simp [nextSlot, h, hv, hw, firstWaiting]

theorem nextSlot_arrivals (h : m.queue = [v, w]) (hv : v.cls = .fcfs) (hw : w.cls = .fcfs) :
    nextSlot m = some (if before w v then w else v) := by
  by_cases hr : true ∈ m.recent <;> simp [nextSlot, h, hv, hw, hr, firstWaiting]

theorem before_of_dry (hv : v.cls = .deadline) (h : v.dry ≠ w.dry) : before v w = decide (v.dry < w.dry) := by
  simp [before, hv, h]

/-- Of two arrivals of one tick the one of the lower bay comes first (log 74). -/
theorem before_of_bay (hv : v.cls = .fcfs) (ht : v.tick = w.tick) (hb : v.bay < w.bay) : before v w = true := by
  simp [before, hv, arrivedBefore, ht, hb]

/-! ### What a row slot leaves -/

theorem modMc_const (f : MemCtl → MemCtl) : s.modMc st f = s.modMc st (fun _ => f (s.mc st)) := rfl

theorem grantSlot_none (h : nextSlot (s.mc st) = none) : s.grantSlot st = s.modMc st (fun _ => s.mc st) := by
  rw [grantSlot, modMc_const, h]

theorem grantSlot_some (h : nextSlot (s.mc st) = some w) : s.grantSlot st = s.modMc st (fun _ => (s.mc st).granted w) := by
  rw [grantSlot, modMc_const, h]
  simp only [MemCtl.granted, List.eraseIdx_idxOf_eq_erase]

/-! ### Answers (01 R30, R31; 16 R460) -/

/-- Messages sent one after another. -/
def sending (s : State) (os : List Out) : State := { s with out := s.out ++ os }

@[simp] theorem sending_out (os : List Out) : (s.sending os).out = s.out ++ os := rfl
@[simp] theorem sending_mem (os : List Out) : (s.sending os).mem = s.mem := rfl
@[simp] theorem sending_ras (os : List Out) : (s.sending os).ras = s.ras := rfl
@[simp] theorem mc_sending (os : List Out) (st : Nat) : (s.sending os).mc st = s.mc st := rfl

theorem foldl_send {α : Type} (g : α → Out) (l : List α) : l.foldl (fun t x => t.send (g x)) s = s.sending (l.map g) := by
  induction l generalizing s with
  | nil => simp [sending]
  | cons x l ih =>
    rw [List.foldl_cons, ih, List.map_cons, sending, send_out, List.append_assoc]
    rfl

/-- Requests of the host and of tenants are answered one by one. -/
theorem answerFetch_foreign (bad : Bool) (h : ∀ q ∈ f.tags, q < 2 ^ 32) : s.answerFetch f bad =
    s.sending (f.tags.map (fun q => if bad then .memDone q Status.rowRetired [] else .memDone q Status.ok f.data)) := by
  rw [← foldl_send]
  exact List.foldl_ext _ _ _ fun t q hq => if_neg (not_le.mpr (h q hq))

/-- A fetch that no slot is left for is answered, and its controller forgets it. -/
theorem fetchComplete_only (e : EccResult) (hf : (s.mc st).fetches = [f]) (ht : tag ∈ f.tags) (hq : (s.mc st).queue = []) :
    s.fetchComplete st tag e row =
      (if e = .uncorrectable then (s.modMc st MemCtl.unfetched).poisonGranule (f.addr / 4096) row
        else s.modMc st MemCtl.unfetched).answerFetch f (e = .uncorrectable || f.status ≠ Status.ok) := by
  have hm : s.modMc st (fun m => { m with fetches := m.fetches.filter (fun g => g ≠ f) }) = s.modMc st MemCtl.unfetched := by
    simp only [modMc, tmod, MemCtl.unfetched]
    rw [← mc, hf]
    simp
  simp only [fetchComplete, hf, List.find?_cons, List.contains_iff_mem.mpr ht, hq, List.any_nil, Bool.false_eq_true, if_false, hm]

theorem fetchComplete_none (e : EccResult) (h : ∀ g ∈ (s.mc st).fetches, tag ∉ g.tags) : s.fetchComplete st tag e row = s := by
  have hnone : (s.mc st).fetches.find? (fun f => f.tags.contains tag) = none := by simpa using h
  simp only [fetchComplete, hnone]

theorem writeComplete_first {others : List Waiting} (h : (s.mc st).writing = w :: others) (hw : w.tag = tag) (ht : tag < 2 ^ 32) :
    s.writeComplete st tag = (s.modMc st (fun m => { m with writing := m.writing.erase w })).send (.memDone tag Status.ok []) := by
  have hown : ¬ ownTags ≤ tag := not_le.mpr ht
  simp [writeComplete, h, hw, hown]

/-- The rows of a request come to the only stream that waits for it. -/
theorem answerFetch_own {n k : Nat} {c : Core} {y : Strm} {g : StrmRow} (hf : f.tags = [tag]) (ht : 2 ^ 32 ≤ tag)
    (hs : s.cores = [(n, c)]) (hc : c.strms = [(k, y)]) (hy : y.fly = [g]) (hg : g.rtag = tag) :
    s.answerFetch f false = s.modCore n (Core.answer tag f.addr f.data) := by
  have hown : (c.bundleOf tag).isSome = true := by simp [Core.bundleOf, hc, hy, hg]
  have htag : ownTags ≤ tag := ht
  simp [answerFetch, hf, htag, answerOwn, hs, hown]

theorem answer_strm {k : Nat} {c : Core} {y : Strm} {g : StrmRow} (addr : Nat) {data : List Byte} (hd : data ≠ [])
    (hc : c.strms = [(k, y)]) (hy : y.fly = [g]) (hg : g.rtag = tag) (hret : g.ret = false) :
    ((c.answer tag addr data).strm k).fly = [{ g with ret := true, data := (data.drop (g.addr - addr)).take g.len }] := by
  simp [Core.answer, Core.strm, hc, hy, tget, StrmRow.answer, hg, hret, hd]

/-! ### A poisoned granule, and a row queued for repair (16 R460) -/

theorem queueRow_pending (q : Nat) : q ∈ (s.queueRow st row).ras.pending ↔ q ∈ s.ras.pending ∨ q = row := by
  by_cases h : row ∈ s.ras.pending
  · simp only [queueRow, List.contains_iff_mem.mpr h, if_true]
    exact ⟨.inl, fun hq => hq.elim id (· ▸ h)⟩
  · simp [queueRow, h]

theorem mc_of_calm (h : t.calm = s.calm) (st : Nat) : t.mc st = s.mc st := (congrArg (fun u : State => u.mc st) h :)

/-- The granule and its row are on record, and one more record stands in the error log. -/
theorem poisonGranule_spec (s : State) (g row : Nat) :
    let t := s.poisonGranule g row
    g ∈ t.ras.poison ∧ row ∈ t.ras.pending ∧ t.mgt.logSeq = (s.mgt.logSeq + 1) % 2 ^ 32 ∧ (∀ st, t.mc st = s.mc st) ∧ t.mem = s.mem := by
  unfold poisonGranule
  extract_lets r u
  have hpoison : g ∈ u.ras.poison := by
    by_cases h : g ∈ s.ras.poison <;> simp [u, h]
  have hcalm : ((u.queueRow (g % 6) row).logRec 3 (g % 6) Status.rowRetired 2 0x0020 0 (rowDetail (g % 6) row)).calm =
      (u.queueRow (g % 6) row).calm := logRec_calm ..
  refine ⟨?_, ?_, logRec_logSeq .., fun st => (mc_of_calm hcalm st).trans rfl, (mem_of_kept (kept_of_calm hcalm)).trans rfl⟩
  · exact (congrArg (fun u : State => g ∈ u.ras.poison) hcalm :).mpr hpoison
  · exact (congrArg (fun u : State => row ∈ u.ras.pending) hcalm :).mpr ((queueRow_pending (st := g % 6) row).mpr (.inr rfl))

/-! ### The memory patrol (16 R459, R460) -/

/-- The state in which the patrol has met a row with corrected errors. -/
def rowShown (s : State) (st row : Nat) : State :=
  { s.modMc st MemCtl.patrolled with
    ras := { s.ras with rowHits := tset s.ras.rowHits row (hitsWith (tget [] s.ras.rowHits row) (s.mc st).pass) } }

theorem memPatrol_rests (e : EccResult) (h : s.dev.memRails = false) : s.memPatrol st e row = s := by
  simp [memPatrol, h]

section
variable (h : s.dev.memRails = true)
include h

theorem memPatrol_clean : s.memPatrol st .clean row = s.modMc st MemCtl.patrolled := by
  simp only [memPatrol, h, Bool.not_true, Bool.false_eq_true, if_false]
  rfl

/-- A row that shows corrected errors is queued for repair on the third pass that shows them. -/
theorem memPatrol_corrected (words : Nat) : s.memPatrol st (.corrected words) row =
    if 3 ≤ (hitsWith (tget [] s.ras.rowHits row) (s.mc st).pass).length then (s.rowShown st row).queueRow st row else s.rowShown st row := by
  simp only [memPatrol, h, Bool.not_true, Bool.false_eq_true, if_false, List.contains_iff_mem]
  rfl

theorem memPatrol_uncorrectable :
    s.memPatrol st .uncorrectable row = (s.modMc st MemCtl.patrolled).poisonGranule ((s.mc st).granule * 6 + st) row := by
  simp only [memPatrol, h, Bool.not_true, Bool.false_eq_true, if_false]
  rfl

end

end State
end Sys2Proof.Machine

namespace Sys2Proof.Proofs

open Sys2Proof Sys2Proof.Machine Sys2Proof.Claims

/-- Settles O29: a slot by the request that it goes to (`State.nextSlot_save` and its like), a completion by who asked, the patrol by what it
reads. -/
theorem rowSlotsCompletionsAndPatrol : Obligations.RowSlotsCompletionsAndPatrol := by
  unfold Obligations.RowSlotsCompletionsAndPatrol
  refine ⟨fun s st tag row f v w rest others => ?slots, fun s st row words late => ?patrol⟩
  case slots =>
    intro m leaves tenant
    have granted {x : Waiting} {q : List Waiting} (h : State.nextSlot m = some x) (hq : (m.granted x).queue = q) : leaves q :=
      ⟨_, congrArg Host.Outcome.next (State.grantSlot_some h), by rw [State.mc_modMc_same]; exact hq, rfl, rfl⟩
    have last {x : Waiting} (h : x.slots ≤ 1) : (m.granted x).queue = m.queue.erase x := if_pos h
    have answered {e : EccResult} (hf : m.fetches = [f]) (ht : tag ∈ f.tags) (hq : m.queue = []) :=
      congrArg (Host.Outcome.next : State → Res) (State.fetchComplete_only (row := row) e hf ht hq)
    refine ⟨fun hq => ?empty, fun hq hw hr => ⟨fun hs => ?more, fun hs => ⟨?last, ?writing⟩⟩,
      fun hq hv hw => ⟨fun hvc hwc => ⟨fun hr => ?turnDeadline, fun hr => ?turnFcfs⟩,
        fun hvc hwc => ⟨fun hd => ?dryFirst, fun hd => ?drySecond⟩, fun hvc hwc ht hb => ?lowerBay⟩,
      fun hf ht hq => ⟨fun htn hs => ?clean, fun htn hs => ?poisoned, fun htn => ?uncorrectable,
        fun n c k y g htag hown hs hd hcores hstrms hfly hg hret => ?own⟩, fun hnone e => ?noFetch, fun hw htag ht => ?written⟩
    case empty => exact congrArg Host.Outcome.next (State.grantSlot_none (State.nextSlot_none hq))
    case more => exact granted (State.nextSlot_save hq hw hr) (by simp [MemCtl.granted, hq, Nat.not_le.mpr hs])
    case last => exact granted (State.nextSlot_save hq hw hr) (by simp [last hs, hq])
    case writing =>
      refine ⟨_, congrArg Host.Outcome.next (State.grantSlot_some (State.nextSlot_save hq hw hr)), ?_⟩
      simp [MemCtl.granted, hs, m]
    case turnDeadline => exact granted ((State.nextSlot_deadline_fcfs hq hvc hwc).trans (by rw [if_pos hr])) (by simp [last hv, hq])
    case turnFcfs =>
      have hne : v ≠ w := by rintro rfl; simp [hvc] at hwc
      exact granted ((State.nextSlot_deadline_fcfs hq hvc hwc).trans (by rw [if_neg hr])) (by simp [last hw, hq, hne])
    case dryFirst =>
      have hbefore : State.before w v = false := by simp [State.before_of_dry hwc hd.ne', hd.le]
      exact granted ((State.nextSlot_deadlines hq hvc hwc).trans (by rw [hbefore, if_neg Bool.false_ne_true])) (by simp [last hv, hq])
    case drySecond =>
      have hbefore : State.before w v = true := by simp [State.before_of_dry hwc hd.ne, hd]
      have hne : v ≠ w := by rintro rfl; omega
      exact granted ((State.nextSlot_deadlines hq hvc hwc).trans (by rw [if_pos hbefore])) (by simp [last hw, hq, hne])
    case lowerBay =>
      have hne : v ≠ w := by rintro rfl; omega
      exact granted ((State.nextSlot_arrivals hq hvc hwc).trans (by rw [if_pos (State.before_of_bay hwc ht.symm hb)]))
        (by simp [last hw, hq, hne])
    case clean =>
      refine ⟨_, answered (e := .clean) hf ht hq, ?_⟩
      simp [hs, State.answerFetch_foreign _ htn]
    case poisoned =>
      refine ⟨_, answered (e := .clean) hf ht hq, ?_⟩
      simp [hs, State.answerFetch_foreign _ htn]
    case uncorrectable =>
      obtain ⟨hpoison, hpending, -, hmc, hmem⟩ :=
        State.poisonGranule_spec (s.modMc st MemCtl.unfetched) (f.addr / 4096) row
      refine ⟨_, answered (e := .uncorrectable) hf ht hq, ?_⟩
      rw [if_pos rfl, State.answerFetch_foreign _ htn]
      refine ⟨?_, hmem, hpoison, hpending, fun q hq => ?_⟩
      · rw [State.mc_sending, hmc]
        simp
      · simpa using .inr hq
    case own =>
      refine ⟨_, answered (e := .clean) hf ht hq, ?_⟩
      have hbad : (decide (EccResult.clean = .uncorrectable) || decide (f.status ≠ Status.ok)) = false := by simp [hs]
      have hcore : s.core n = c := by simp [State.core, hcores, tget]
      rw [hbad, if_neg EccResult.noConfusion, State.answerFetch_own (s := s.modMc st MemCtl.unfetched) htag hown hcores hstrms hfly hg]
      beta_reduce
      rw [State.core_modCore_same]
      exact ⟨by rw [State.core_modMc, hcore]; exact State.answer_strm _ hd hstrms hfly hg hret, by rw [State.core_modMc, hcore]; rfl, rfl, rfl⟩
    case noFetch => exact congrArg Host.Outcome.next (State.fetchComplete_none e hnone)
    case written =>
      refine ⟨_, congrArg Host.Outcome.next (State.writeComplete_first hw htag ht), ?_⟩
      simp [m, hw]
  case patrol =>
    intro m g old hits on
    have hon (t : State) (hmc : t.mc st = (s.modMc st MemCtl.patrolled).mc st) (hmem : t.mem = s.mem) : on t := by
      simp only [on, hmc, State.mc_modMc_same]
      exact ⟨rfl, rfl, hmem⟩
    refine ⟨fun e h => congrArg Host.Outcome.next (State.memPatrol_rests e h), fun h => ⟨?clean, ?corrected, ?uncorrectable⟩⟩
    case clean =>
      refine ⟨_, congrArg Host.Outcome.next (State.memPatrol_clean h), ?_⟩
      exact ⟨hon _ rfl rfl, rfl, rfl⟩
    case corrected =>
      refine ⟨_, congrArg Host.Outcome.next (State.memPatrol_corrected h words), ?_⟩
      have hhits : hitsWith (tget [] s.ras.rowHits row) (s.mc st).pass = hits := rfl
      rw [hhits]
      by_cases h3 : 3 ≤ hits.length
      · rw [if_pos h3]
        exact ⟨hon _ rfl rfl, tget_tset_same .., by simp [h3, State.queueRow_pending, State.rowShown], rfl⟩
      · rw [if_neg h3]
        exact ⟨hon _ rfl rfl, tget_tset_same .., by simp [h3, State.rowShown], rfl⟩
    case uncorrectable =>
      refine ⟨_, congrArg Host.Outcome.next (State.memPatrol_uncorrectable h), ?_⟩
      obtain ⟨hpoison, hpending, hseq, hmc, hmem⟩ := State.poisonGranule_spec (s.modMc st MemCtl.patrolled) (g * 6 + st) row
      exact ⟨hon _ (hmc st) hmem, hpoison, hpending, hseq⟩

end Sys2Proof.Proofs
end

section
/-! Streams (10 R292-R309): what a change of one stream leaves, the members of one fetch, dry time, and the engine's requests. -/

namespace Sys2Proof.Machine

/-! ### Sums over fragments and transfers -/

theorem foldl_add_map {α : Type} (g : α → Nat) (l : List α) : l.foldl (fun t x => t + g x) 0 = (l.map g).sum := by
  rw [List.sum_eq_foldl, List.foldl_map]

theorem tileBytes_eq {α : Type} (l : List (α × Nat)) : tileBytes l = (l.map (·.2)).sum := foldl_add_map ..

theorem State.pieceTags_eq (p : List StrmRow) : State.pieceTags p = (p.map (·.tags)).sum := foldl_add_map ..

/-- Fragments under the tag of their request. -/
def withTag (tag : Nat) (p : List StrmRow) : List StrmRow := p.map (fun f => { f with rtag := tag })

@[simp] theorem withTag_cons (tag : Nat) (f : StrmRow) (p : List StrmRow) : withTag tag (f :: p) = { f with rtag := tag } :: withTag tag p := rfl

/-- A tag of its request changes nothing else that a sum over the fragments counts. -/
theorem map_withTag {α : Type} (g : StrmRow → α) (hg : ∀ f tag, g { f with rtag := tag } = g f) (tag : Nat) (p : List StrmRow) :
    (withTag tag p).map g = p.map g := by
  simp [withTag, Function.comp_def, hg]

theorem head?_withTag {α : Type} (g : StrmRow → α) (hg : ∀ f tag, g { f with rtag := tag } = g f) (tag : Nat) (p : List StrmRow) :
    (withTag tag p).head?.map g = p.head?.map g := by
  cases p <;> simp [withTag, hg]

/-! ### One stream of a core changed -/

namespace Core

variable (c : Core) (k : Nat) (g : Strm → Strm)

@[simp] theorem strm_modStrm_same : (c.modStrm k g).strm k = g (c.strm k) := tget_tmod_same ..
theorem strm_modStrm_ne {l : Nat} (h : l ≠ k) : (c.modStrm k g).strm l = c.strm l := tget_tmod_ne _ _ _ _ _ h
@[simp] theorem modStrm_rowAt (r : Nat) : (c.modStrm k g).rowAt r = c.rowAt r := rfl
@[simp] theorem modStrm_arr : (c.modStrm k g).arr = c.arr := rfl
@[simp] theorem modStrm_flight : (c.modStrm k g).flight = c.flight := rfl
@[simp] theorem modStrm_cause : (c.modStrm k g).cause = c.cause := rfl
@[simp] theorem modStrm_queue : (c.modStrm k g).queue = c.queue := rfl
@[simp] theorem modStrm_mac : (c.modStrm k g).mac = c.mac := rfl
@[simp] theorem modStrm_ending : (c.modStrm k g).ending = c.ending := rfl
@[simp] theorem modStrm_pc : (c.modStrm k g).pc = c.pc := rfl

end Core

/-- A load waits for its rows, not for its requests (10 R294). -/
theorem Strm.waits_todo {m : Strm} (hl : m.loads = true) (todo : List (List StrmRow)) : { m with todo := todo }.waits = m.waits := by
  have hl' : { m with todo := todo }.loads = true := hl
  simp only [Strm.waits, Strm.ended, Strm.awaited, hl, hl', Bool.true_or]
  rfl

namespace State

/-! ### The members of one fetch (10 R309) -/

/-- What decides which cores a stream's rows go to. -/
def route (s : State) (q st : Nat) : Nat × Nat × Nat × Bool :=
  let m := (s.core q).strm st
  (m.dir, m.group, m.fid, m.lead)

/-- Two states in which the streams of one number have the same members. -/
structure SameRoutes (s t : State) (st : Nat) : Prop where
  job   : ∀ b, (t.bay b).job = (s.bay b).job
  pdk   : ∀ p, t.pdk p = s.pdk p
  ring  : ∀ p k, t.ring p k = s.ring p k
  route : ∀ q, t.route q st = s.route q st

namespace SameRoutes

variable {s t : State} {st : Nat} (h : s.SameRoutes t st)
include h

theorem dir (q : Nat) : ((t.core q).strm st).dir = ((s.core q).strm st).dir := congrArg (·.1) (h.route q)
theorem group (q : Nat) : ((t.core q).strm st).group = ((s.core q).strm st).group := congrArg (·.2.1) (h.route q)
theorem fid (q : Nat) : ((t.core q).strm st).fid = ((s.core q).strm st).fid := congrArg (·.2.2.1) (h.route q)
theorem lead (q : Nat) : ((t.core q).strm st).lead = ((s.core q).strm st).lead := congrArg (·.2.2.2) (h.route q)

theorem strmCores (n : Nat) : t.strmCores n st = s.strmCores n st := by
  simp only [State.strmCores, h.job, h.pdk, h.ring, h.dir, h.group]

theorem mates (n : Nat) : t.mates n st = s.mates n st := by
  simp only [State.mates, h.strmCores, h.fid]

theorem leadOf (n : Nat) : t.leadOf n st = s.leadOf n st := by
  simp only [State.leadOf, h.mates, h.lead]

end SameRoutes

variable {s t : State} {n st b : Nat}

/-- A stream changed without its route keeps every stream's members. -/
theorem sameRoutes_modStrm {g : Strm → Strm} (hg : ∀ m, ((g m).dir, (g m).group, (g m).fid, (g m).lead) = (m.dir, m.group, m.fid, m.lead)) :
    s.SameRoutes (s.modCore n (·.modStrm st g)) st := by
  refine ⟨fun _ => rfl, fun _ => rfl, fun _ _ => rfl, fun q => ?_⟩
  by_cases hq : q = n
  · rw [hq, route, core_modCore_same, Core.strm_modStrm_same]
    exact hg _
  · rw [route, core_modCore_ne _ _ _ _ hq]
    rfl

theorem sameRoutes_modBay {g : Bay → Bay} (hg : ∀ x, (g x).job = x.job) : s.SameRoutes (s.modBay b g) st := by
  refine ⟨fun c => ?_, fun _ => rfl, fun _ _ => rfl, fun _ => rfl⟩
  by_cases hc : c = b
  · rw [hc, bay_modBay_same, hg]
  · rw [bay_modBay_ne _ _ _ _ hc]

/-- A stream that is no multicast is alone in its fetch. -/
theorem mates_alone (h : ((s.core n).strm st).dir ≠ 2) : s.mates n st = [n] := by
  simp [mates, strmCores, h]

theorem leadOf_alone (h : ((s.core n).strm st).dir ≠ 2) : s.leadOf n st = n := by
  rw [leadOf, mates_alone h, List.find?_singleton]
  split <;> rfl

/-! ### Dry time (10 R308) -/

/-- A stream's runway rests on its halves and releases, and on who is held on it. -/
theorem runway_congr (htsc : t.dev.tsc = s.dev.tsc) (hmates : t.mates n st = s.mates n st) (hheld : ∀ q, t.heldOn q st = s.heldOn q st)
    (hm : ∃ todo, (t.core n).strm st = { (s.core n).strm st with todo := todo }) : t.runway n st = s.runway n st := by
  obtain ⟨todo, hm⟩ := hm
  simp only [runway, htsc, hmates, hheld, hm]
  rfl

/-! ### A piece leaves its stream (10 R302, R305, R310) -/

/-- The state in which the engine has served a place of the round (10 R302). -/
def turned (s : State) (b i : Nat) : State := s.modBay b (fun x => { x with rr := (i + 1) % 272 })

/-- The state in which a stream's next piece is taken from what is to be issued. -/
def popped (s : State) (n st : Nat) : State := s.modCore n (·.modStrm st (fun m => { m with todo := m.todo.drop 1 }))

/-- The state in which the engine's next tag is given out. -/
def tagged (s : State) : State := { s with memTag := s.memTag + 1 }

@[simp] theorem core_tagged (q : Nat) : s.tagged.core q = s.core q := rfl
@[simp] theorem bay_tagged (c : Nat) : s.tagged.bay c = s.bay c := rfl
@[simp] theorem mc_tagged (c : Nat) : s.tagged.mc c = s.mc c := rfl
@[simp] theorem mem_tagged : s.tagged.mem = s.mem := rfl

theorem newTag_eq : s.newTag = (ownTags + s.memTag, s.tagged) := rfl

@[simp] theorem turned_core (i q : Nat) : (s.turned b i).core q = s.core q := rfl
@[simp] theorem turned_mc (i q : Nat) : (s.turned b i).mc q = s.mc q := rfl
@[simp] theorem turned_mem (i : Nat) : (s.turned b i).mem = s.mem := rfl
@[simp] theorem turned_bay_tags (i : Nat) : ((s.turned b i).bay b).tags = (s.bay b).tags := by simp [turned]
@[simp] theorem turned_bay_rr (i : Nat) : ((s.turned b i).bay b).rr = (i + 1) % 272 := by simp [turned]
@[simp] theorem turned_quarTouch (i a l : Nat) : (s.turned b i).quarTouch a l = s.quarTouch a l := rfl

theorem turned_runway (i : Nat) : (s.turned b i).runway n st = s.runway n st := by
  refine runway_congr rfl ((sameRoutes_modBay ?_).mates n) (fun _ => rfl) ⟨_, rfl⟩
  exact fun _ => rfl

@[simp] theorem popped_strm (n st : Nat) :
    ((s.popped n st).core n).strm st = { (s.core n).strm st with todo := ((s.core n).strm st).todo.drop 1 } := by
  rw [popped, core_modCore_same, Core.strm_modStrm_same]

/-- What a load has still to ask for is nothing to its runway. -/
theorem popped_runway (hl : ((s.core n).strm st).loads = true) : (s.popped n st).tagged.runway n st = s.runway n st := by
  refine runway_congr rfl ((sameRoutes_modStrm ?_).mates n) (fun q => ?_) ⟨_, popped_strm n st⟩
  · exact fun _ => rfl
  · by_cases hq : q = n
    · subst hq
      have hcause : ((s.popped q st).core q).cause = (s.core q).cause := by simp [popped]
      have hqueue : ((s.popped q st).core q).queue = (s.core q).queue := by simp [popped]
      simp only [heldOn, core_tagged, popped_strm, Strm.waits_todo hl, hcause, hqueue]
    · have hcore : (s.popped n st).tagged.core q = s.core q := by rw [core_tagged, popped, core_modCore_ne _ _ _ _ hq]
      simp only [heldOn, hcore]

@[simp] theorem strmReq_addr (tag : Nat) (p : List StrmRow) : (s.strmReq n st tag p).addr = (p.head?.map (·.addr)).getD 0 := rfl
@[simp] theorem strmReq_len (tag : Nat) (p : List StrmRow) : (s.strmReq n st tag p).len = (p.map (·.len)).sum := foldl_add_map ..

/-- A piece of a load as its controller's request: the tag is that of the request, the class and the dry time those of the stream. -/
theorem strmReq_load {tag : Nat} (p : List StrmRow) (hl : ((s.core n).strm st).loads = true) :
    (s.popped n st).tagged.strmReq n st tag (withTag tag p) = s.strmReq n st tag p := by
  simp only [strmReq, core_tagged, popped_strm, popped_runway hl, foldl_add_map, head?_withTag (·.addr) (fun _ _ => rfl),
    map_withTag (·.len) (fun _ _ => rfl)]
  rfl

/-! ### A read that its controller accepts (01 R29, R30; 10 R305, R310) -/

/-- A read leaves all but its controller alone. -/
theorem acceptPiece_read {w : Waiting} (hw : w.write = false) (data : List Byte) :
    ∃ g, s.acceptPiece w data = s.modMc (w.addr / 4096 % 6) g := by
  by_cases h : ∃ f ∈ (s.mc (w.addr / 4096 % 6)).fetches, f.addr = w.addr ∧ f.len = w.len ∧ f.closed = false
  · exact ⟨_, acceptPiece_join hw h⟩
  · exact ⟨_, acceptPiece_fetch hw (by push Not at h; simpa using h)⟩

/-- What its controller does with a read: it queues it and starts a fetch, or an open fetch of the same bytes takes it in. -/
def Accepts (s t : State) (w : Waiting) : Prop :=
  let c := w.addr / 4096 % 6
  ((∀ g ∈ (s.mc c).fetches, ¬(g.addr = w.addr ∧ g.len = w.len ∧ g.closed = false)) →
    (t.mc c).queue = (s.mc c).queue ++ [w.accepted s] ∧
    ∃ g, (t.mc c).fetches = (s.mc c).fetches ++ [g] ∧ g.tags = [w.tag] ∧
      g.data = (List.range w.len).map (fun i => readByte s.mem (w.addr + i))) ∧
  ((∃ g ∈ (s.mc c).fetches, g.addr = w.addr ∧ g.len = w.len ∧ g.closed = false) →
    (t.mc c).queue = (s.mc c).queue ∧ (t.mc c).fetches.length = (s.mc c).fetches.length)

theorem acceptPiece_accepts {w : Waiting} (hw : w.write = false) (data : List Byte) : s.Accepts (s.acceptPiece w data) w := by
  refine ⟨fun h => ?_, fun h => ?_⟩
  · rw [acceptPiece_fetch hw h, mc_modMc_same]
    exact ⟨rfl, _, rfl, rfl, rfl⟩
  · rw [acceptPiece_join hw h, mc_modMc_same]
    exact ⟨rfl, List.length_map _⟩

/-! ### A piece of a stream issues (10 R302, R305, R306, R315) -/

section
variable {p : List StrmRow}

theorem issuePiece_quarantined (hd : ((s.core n).strm st).dir ≠ 3) (hbad : ∃ g ∈ p, s.quarTouch g.addr g.len = true) :
    s.issuePiece n st p = (s.popped n st).coreFault n Status.quarantined ((s.core n).strm st).bundle := by
  refine if_pos ?_
  rw [Bool.and_eq_true]
  exact ⟨decide_eq_true hd, List.any_eq_true.mpr hbad⟩

theorem issuePiece_open (h : ((s.core n).strm st).dir = 3 ∨ ∀ g ∈ p, s.quarTouch g.addr g.len = false) :
    s.issuePiece n st p =
      let u := (s.popped n st).tagged
      let q := withTag (ownTags + s.memTag) p
      if ((s.core n).strm st).loads then
        ((u.acceptPiece (u.strmReq n st (ownTags + s.memTag) q) []).modCore n (·.modStrm st (fun m => { m with fly := m.fly ++ q }))).modBay
          (n / 16) (fun b => { b with tags := b.tags - pieceTags q })
      else (u.modCore n (·.modStrm st (fun m => { m with send := m.send ++ q }))).readRow n st false := by
  refine if_neg ?_
  rw [Bool.and_eq_true, not_and, decide_eq_true_eq]
  intro hd hany
  obtain ⟨g, hg, hbad⟩ := List.any_eq_true.mp hany
  rcases h with h | h
  · exact hd h
  · exact Bool.noConfusion ((h g hg).symm.trans hbad)

/-- A piece of a load takes its tags, and its request goes to its controller. -/
theorem issuePiece_load (hl : ((s.core n).strm st).loads = true) (hgood : ∀ g ∈ p, s.quarTouch g.addr g.len = false) :
    let t := s.issuePiece n st p
    ((t.core n).strm st).todo = ((s.core n).strm st).todo.drop 1 ∧
    ((t.core n).strm st).fly = ((s.core n).strm st).fly ++ withTag (ownTags + s.memTag) p ∧
    (t.bay (n / 16)).tags = (s.bay (n / 16)).tags - (p.map (·.tags)).sum ∧ (t.bay (n / 16)).rr = (s.bay (n / 16)).rr ∧
    t.mem = s.mem ∧ s.Accepts t (s.strmReq n st (ownTags + s.memTag) p) := by
  have hw : (s.strmReq n st (ownTags + s.memTag) p).write = false := by simp [strmReq, hl]
  obtain ⟨g, hg⟩ := acceptPiece_read (s := (s.popped n st).tagged) hw []
  have haccepts := acceptPiece_accepts (s := (s.popped n st).tagged) hw []
  rw [issuePiece_open (.inr hgood), if_pos hl]
  dsimp only
  rw [strmReq_load p hl, pieceTags_eq, map_withTag (·.tags) (fun _ _ => rfl)]
  refine ⟨?_, ?_, ?_, ?_, ?_, haccepts⟩ <;> rw [hg]
  · simp
  · simp
  · simp [popped]
  · simp [popped]
  · rfl

/-- The first of several fragments to be read of a store or forward, with a tag for it: its data is under way, the others wait. -/
theorem readRow_first {f : StrmRow} {more : List StrmRow} {tag : Nat} (hsend : ((s.core n).strm st).send = withTag tag (f :: more))
    (hmore : more ≠ []) (htags : f.tags ≤ (s.bay (n / 16)).tags) :
    s.readRow n st false = (s.modCore n (·.modStrm st (fun m => { m with send := withTag tag more, fly := m.fly ++
        [{ f with rtag := tag, ret := decide (((s.core n).strm st).dir = 3)
                  data := rowPart ((s.core n).rowAt f.row) f.off f.len }] }))).modBay (n / 16) (fun b => { b with tags := b.tags - f.tags }) := by
  have hsplit : ((s.core n).strm st).send = { f with rtag := tag } :: withTag tag more := hsend
  have hwaits : (withTag tag more).all (fun g => g.rtag ≠ tag) = false := by
    obtain ⟨g, rest, rfl⟩ := List.exists_cons_of_ne_nil hmore
    simp
  have hfree : (!false && decide ((s.bay (n / 16)).tags < f.tags)) = false := by simpa using htags
  simp only [readRow, hsplit, hfree, hwaits, Bool.and_false, Bool.false_eq_true, if_false, Nat.min_eq_left htags]

/-- A piece of a store or forward that is more than one row: its first row is read, and the others are to be read. -/
theorem issuePiece_store {f : StrmRow} {more : List StrmRow} (hl : ((s.core n).strm st).loads = false) (hp : p = f :: more) (hmore : more ≠ [])
    (hopen : ((s.core n).strm st).dir = 3 ∨ ∀ g ∈ p, s.quarTouch g.addr g.len = false) (hsend : ((s.core n).strm st).send = [])
    (htags : f.tags ≤ (s.bay (n / 16)).tags) :
    let t := s.issuePiece n st p
    ((t.core n).strm st).todo = ((s.core n).strm st).todo.drop 1 ∧
    ((t.core n).strm st).send = withTag (ownTags + s.memTag) more ∧
    ((t.core n).strm st).fly = ((s.core n).strm st).fly ++
      [{ f with rtag := ownTags + s.memTag, ret := decide (((s.core n).strm st).dir = 3)
                data := rowPart ((s.core n).rowAt f.row) f.off f.len }] ∧
    (t.bay (n / 16)).tags = (s.bay (n / 16)).tags - f.tags ∧ (t.bay (n / 16)).rr = (s.bay (n / 16)).rr ∧ t.mem = s.mem := by
  subst hp
  rw [issuePiece_open hopen, if_neg (ne_true_of_eq_false hl)]
  dsimp only
  rw [readRow_first (f := f) (more := more) (tag := ownTags + s.memTag) (by simp [hsend]) hmore (by simpa [popped] using htags)]
  simp [popped]

end

/-! ### The engine's beat (10 R302) -/

/-- What place i of the engine's round has to issue. -/
def asking (s : State) (b i : Nat) : Option (List StrmRow) :=
  if i % 17 = 16 then s.readySeq (16 * b + i / 17) else s.readyPiece (16 * b + i / 17) (i % 17)

/-- Whether place i of the engine's round has a request, with tags enough. -/
def hasRequest (s : State) (b i : Nat) : Prop := ∃ q, s.asking b i = some q ∧ (q.map (·.tags)).sum ≤ (s.bay b).tags

/-- The request of place i, with the place. -/
def requestAt (s : State) (b i : Nat) : Option (Nat × List StrmRow) :=
  (s.asking b i).bind fun p => if pieceTags p ≤ (s.bay b).tags then some (i, p) else none

theorem requestAt_none {i : Nat} (h : ¬s.hasRequest b i) : s.requestAt b i = none := by
  simp only [requestAt, pieceTags_eq, Option.bind_eq_none_iff, ite_eq_right_iff]
  exact fun p hp htags => absurd ⟨p, hp, htags⟩ h

theorem nextRequest_eq (s : State) (b : Nat) :
    s.nextRequest b = ((List.range 272).map (fun i => ((s.bay b).rr + i) % 272)).findSome? (s.requestAt b) := by
  unfold nextRequest
  congr 1
  funext i
  simp only [requestAt, asking]
  cases (if i % 17 = 16 then s.readySeq (16 * b + i / 17) else s.readyPiece (16 * b + i / 17) (i % 17)) <;> rfl

/-- The round goes to the first place that has a request. -/
theorem nextRequest_first {i : Nat} {l₁ l₂ : List Nat} {p : List StrmRow}
    (hround : (List.range 272).map (fun i => ((s.bay b).rr + i) % 272) = l₁ ++ i :: l₂) (hbefore : ∀ x ∈ l₁, ¬s.hasRequest b x)
    (hp : s.asking b i = some p) (htags : (p.map (·.tags)).sum ≤ (s.bay b).tags) : s.nextRequest b = some (i, p) := by
  rw [nextRequest_eq, List.findSome?_eq_some_iff]
  refine ⟨l₁, i, l₂, hround, ?_, fun x hx => requestAt_none (hbefore x hx)⟩
  simp only [requestAt, hp, Option.bind_some, pieceTags_eq, if_pos htags]

theorem foldl_fixed_mem {f : State → Nat → State} {l : List Nat} (h : ∀ x ∈ l, f s x = s) : l.foldl f s = s := by
  induction l with
  | nil => rfl
  | cons x l ih => rw [List.foldl_cons, h x List.mem_cons_self, ih fun y hy => h y (List.mem_cons_of_mem _ hy)]

theorem readRow_idle {force : Bool} (h : ((s.core n).strm st).send = []) : s.readRow n st force = s := by
  simp only [readRow, h]

/-- Where no row waits to be read and no sequencer asks for more, a beat is its next request. -/
theorem engineBeat_request {i : Nat} {p : List StrmRow} (hread : ∀ q ∈ coresOf b, ∀ k, ((s.core q).strm k).send = [])
    (hask : ∀ q ∈ coresOf b, s.seqAsk q 3 = s) (hnext : s.nextRequest b = some (i, p)) :
    s.engineBeat b = if i % 17 = 16 then (s.turned b i).issueSeq (16 * b + i / 17) p
      else (s.turned b i).issuePiece (16 * b + i / 17) (i % 17) p := by
  have hreads : (coresOf b).foldl (fun s n => (List.range 16).foldl (fun s st => s.readRow n st false) s) s = s :=
    foldl_fixed_mem (f := fun s n => (List.range 16).foldl (fun s st => s.readRow n st false) s) fun q hq =>
      foldl_fixed_mem (f := fun s st => s.readRow q st false) fun k _ => readRow_idle (hread q hq k)
  have hasks : (coresOf b).foldl (fun s n => s.seqAsk n 3) s = s := foldl_fixed_mem hask
  unfold engineBeat
  rw [hreads]
  dsimp only
  rw [hasks, hnext]
  rfl

theorem seqAsk_macless (fuel : Nat) (h : (s.core n).mac = none) : s.seqAsk n fuel = s := by
  cases fuel with
  | zero => rfl
  | succ fuel => simp only [seqAsk, h]

/-- A stream of a core that reads no row is one of the listed ones, or one that was never started. -/
theorem send_of_strms (h : ∀ e ∈ (s.core n).strms, e.2.send = []) (k : Nat) : ((s.core n).strm k).send = [] :=
  tget_all (P := fun m : Strm => m.send = []) _ _ _ rfl h

theorem coreFault_bay (e bundle c : Nat) : (s.coreFault n e bundle).bay c = s.bay c := by
  simp only [coreFault]
  split <;> rfl

end State

/-! ### Rows that land, and rows that are written (10 R292, R299, R302, R303; 09 R280) -/

/-- A core on which a load's row has landed (10 R299, R303). -/
def Core.lands (c : Core) (k : Nat) (f : StrmRow) : Core :=
  let m := c.strm k
  let c := c.setRow f.row (State.putPart (c.rowAt f.row) f.off f.data true)
  if f.last then
    let c := c.modStrm k (fun m => { m with landed := tmod 0 m.landed f.tile (· + 1) })
    if bitAt m.arrival 7 then { c with arr := tmod 0 c.arr (m.arrival % 128) (fun v => arrAdd v 1) } else c
  else c

/-- A core into whose scratchpad a forward's row has come; its counter advances with the last fragment (10 R292, R302). -/
def Core.receives (c : Core) (f : StrmRow) (arrival : Nat) : Core :=
  let c := c.setRow (f.addr / 512) (State.putPart (c.rowAt (f.addr / 512)) (f.addr % 512) f.data false)
  if f.last && bitAt arrival 7 then { c with arr := tmod 0 c.arr (arrival % 128) (fun v => arrAdd v 1) } else c

namespace Core

variable (c : Core) (k r : Nat) (f : StrmRow)

theorem setRow_rowAt_same (v : Row) : (c.setRow r v).rowAt r = v := tget_tset_same ..
theorem setRow_rowAt_ne (v : Row) {q : Nat} (h : q ≠ r) : (c.setRow r v).rowAt q = c.rowAt q := tget_tset_ne _ _ _ _ _ h

theorem lands_rowAt (q : Nat) :
    (c.lands k f).rowAt q = (c.setRow f.row (State.putPart (c.rowAt f.row) f.off f.data true)).rowAt q := by
  simp only [lands]
  split
  · split <;> rfl
  · rfl

/-- Of its streams, a row that lands changes what has landed of its own, with the row's last fragment. -/
theorem lands_strms : (c.lands k f).strms =
    if f.last then (c.modStrm k (fun m => { m with landed := tmod 0 m.landed f.tile (· + 1) })).strms else c.strms := by
  simp only [lands]
  split
  · split <;> rfl
  · rfl

theorem lands_fly : ((c.lands k f).strm k).fly = (c.strm k).fly := by
  have hfly : ((c.modStrm k (fun m => { m with landed := tmod 0 m.landed f.tile (· + 1) })).strm k).fly = (c.strm k).fly := by
    rw [strm_modStrm_same]
  simp only [strm, lands_strms]
  split
  · exact hfly
  · rfl

theorem lands_landed (h : f.last = true) : tget 0 ((c.lands k f).strm k).landed f.tile = tget 0 (c.strm k).landed f.tile + 1 := by
  have hstrm : (c.lands k f).strm k = { c.strm k with landed := tmod 0 (c.strm k).landed f.tile (· + 1) } := by
    simp only [strm, lands_strms, h, if_true]
    exact c.strm_modStrm_same ..
  rw [hstrm]
  exact tget_tmod_same ..

theorem lands_arr (h : f.last = true) (ha : bitAt (c.strm k).arrival 7 = true) :
    tget 0 (c.lands k f).arr ((c.strm k).arrival % 128) = min (tget 0 c.arr ((c.strm k).arrival % 128) + 1) (2 ^ 32 - 1) := by
  simp only [lands, h, ha, if_true]
  exact tget_tmod_same ..

theorem receives_rowAt (arrival : Nat) : (c.receives f arrival).rowAt (f.addr / 512) =
    State.putPart (c.rowAt (f.addr / 512)) (f.addr % 512) f.data false := by
  simp only [receives]
  split <;> exact setRow_rowAt_same ..

theorem receives_arr {arrival : Nat} (h : f.last = true) (ha : bitAt arrival 7 = true) :
    tget 0 (c.receives f arrival).arr (arrival % 128) = min (tget 0 c.arr (arrival % 128) + 1) (2 ^ 32 - 1) := by
  simp only [receives, h, ha, Bool.and_self, if_true]
  exact tget_tmod_same ..

end Core

namespace State

variable {s : State} {n st : Nat} {f : StrmRow} {rest : List StrmRow}

/-- The oldest fragment, where it will do, is picked. -/
theorem pickRow_head {g : StrmRow → Bool} (h : g f = true) : pickRow g (f :: rest) [] = some (f, rest) := by
  simp [pickRow, h]

theorem pickRow_only {g : StrmRow → Bool} (h : g f = false) : pickRow g [f] [] = none := by
  simp [pickRow, h]

/-- One change made once on each of several cores. -/
theorem foldl_modCore_core {g : Core → Core} {l : List Nat} (hl : l.Nodup) (q : Nat) :
    (l.foldl (fun t x => t.modCore x g) s).core q = if q ∈ l then g (s.core q) else s.core q := by
  induction l generalizing s with
  | nil => simp
  | cons x l ih =>
    obtain ⟨hx, hl⟩ := List.nodup_cons.mp hl
    rw [List.foldl_cons, ih hl]
    by_cases hq : q = x
    · subst hq
      simp [hx]
    · simp [hq, core_modCore_ne _ _ _ _ hq]

theorem foldl_modCore_bay (g : Core → Core) (l : List Nat) (c : Nat) : (l.foldl (fun t x => t.modCore x g) s).bay c = s.bay c :=
  foldl_proj (f := fun t x => t.modCore x g) (fun t : State => t.bay c) (fun _ _ => rfl) l

theorem foldl_modCore_mem (g : Core → Core) (l : List Nat) : (l.foldl (fun t x => t.modCore x g) s).mem = s.mem :=
  foldl_proj (f := fun t x => t.modCore x g) State.mem (fun _ _ => rfl) l

/-- The state in which a fragment of a stream is no longer under way. -/
def arrived (s : State) (n st : Nat) (rest : List StrmRow) : State := s.modCore n (·.modStrm st (fun m => { m with fly := rest }))

theorem arrived_core_same : (s.arrived n st rest).core n = (s.core n).modStrm st (fun m => { m with fly := rest }) := core_modCore_same ..
theorem arrived_core_ne {q : Nat} (h : q ≠ n) : (s.arrived n st rest).core q = s.core q := core_modCore_ne _ _ _ _ h

/-- What lands is the row itself, whether the core still lists it under way or not. -/
theorem arrived_lands (s : State) (n st : Nat) (rest : List StrmRow) (q : Nat) :
    let c := (s.arrived n st rest).core q
    (∀ r, c.rowAt r = (s.core q).rowAt r) ∧ c.arr = (s.core q).arr ∧ (c.strm st).landed = ((s.core q).strm st).landed ∧
      (c.strm st).arrival = ((s.core q).strm st).arrival := by
  by_cases hq : q = n
  · subst hq
    rw [arrived_core_same]
    simp
  · rw [arrived_core_ne hq]
    simp

/-- The oldest row of a load that has come, if its tile has a half, lands on every member of the fetch. -/
theorem deliver_lands (hf : ((s.core n).strm st).fly = f :: rest) (hret : f.ret = true) (hlive : ((s.core n).strm st).live = true)
    (hl : ((s.core n).strm st).loads = true) (hlead : ((s.core n).strm st).lead = true) (htile : f.tile ≤ s.minCur n st + 1) :
    s.deliver n st = ((s.mates n st).foldl (fun t q => t.modCore q (·.lands st f)) (s.arrived n st rest)).modBay (n / 16)
      (fun b => { b with tags := b.tags + f.tags }) := by
  have hmates : (s.arrived n st rest).mates n st = s.mates n st := by
    refine (sameRoutes_modStrm ?_).mates n
    exact fun _ => rfl
  rw [← hmates]
  simp only [deliver, hlive, hl, hlead, Bool.and_self, Bool.not_true, Bool.false_eq_true, if_false, hf]
  rw [pickRow_head (by simp [hret, htile])]
  simp only [htile, decide_true, if_true]
  rfl

theorem deliver_waits (hf : ((s.core n).strm st).fly = [f]) (hret : f.ret = false) : s.deliver n st = s := by
  have hnone (g : StrmRow → Bool) : pickRow (fun f => f.ret && g f) [f] [] = none := pickRow_only (by rw [hret, Bool.false_and])
  simp only [deliver, hf, hnone, ite_self]

theorem ackWrite_waits (hf : ((s.core n).strm st).fly = [f]) (hret : f.ret = false) : s.ackWrite n st = s := by
  simp only [ackWrite, hf, pickRow_only (g := (·.ret)) hret, ite_self]

/-- The state in which a row that is written has freed its tag and counts as written. -/
def acked (s : State) (n st : Nat) (f : StrmRow) (rest : List StrmRow) : State :=
  (s.modCore n (·.modStrm st (fun m => { m with fly := rest, landed := if f.last then tmod 0 m.landed f.tile (· + 1) else m.landed }))).modBay
    (n / 16) (fun b => { b with tags := b.tags + f.tags })

section
variable (hf : ((s.core n).strm st).fly = f :: rest) (hret : f.ret = true) (hlive : ((s.core n).strm st).live = true)
include hf hret hlive

theorem ackWrite_store (hd : ((s.core n).strm st).dir = 1) : s.ackWrite n st = s.acked n st f rest := by
  have hl : ((s.core n).strm st).loads = false := by simp [Strm.loads, hd]
  simp only [ackWrite, hlive, hl, Bool.not_false, Bool.and_self, Bool.not_true, Bool.false_eq_true, if_false, hf, pickRow_head hret, hd,
    if_true]
  rfl

/-- A forward's row goes into the scratchpad of its target. -/
theorem ackWrite_forward {q : Nat} (hd : ((s.core n).strm st).dir = 3) (hq : (s.acked n st f rest).target n st = some q) :
    s.ackWrite n st = (s.acked n st f rest).modCore q (·.receives f ((s.core n).strm st).arrival) := by
  have hl : ((s.core n).strm st).loads = false := by simp [Strm.loads, hd]
  simp only [ackWrite, hlive, hl, Bool.not_false, Bool.and_self, Bool.not_true, Bool.false_eq_true, if_false, hf, pickRow_head hret, hd]
  rw [if_neg (by decide)]
  unfold acked at hq ⊢
  rw [hq]
  rfl

end

theorem acked_core_same : (s.acked n st f rest).core n = (s.core n).modStrm st (fun m =>
    { m with fly := rest, landed := if f.last then tmod 0 m.landed f.tile (· + 1) else m.landed }) := by
  rw [acked, core_modBay, core_modCore_same]
theorem acked_core_ne {q : Nat} (h : q ≠ n) : (s.acked n st f rest).core q = s.core q := by
  rw [acked, core_modBay, core_modCore_ne _ _ _ _ h]
theorem acked_tags : ((s.acked n st f rest).bay (n / 16)).tags = (s.bay (n / 16)).tags + f.tags := by simp [acked]

/-- A forward's target by its Pricking's logical bay (10 R292, R297). -/
theorem acked_target {p k d : Nat} {j : Job} (hjob : (s.bay (n / 16)).job = some (p, k)) (hring : (s.ring p k).job = some j)
    (hbay : ((s.core n).strm st).target / 16 < j.bays) (hlay : j.lays[((s.core n).strm st).target / 16]? = some d) :
    (s.acked n st f rest).target n st = some (16 * d + ((s.core n).strm st).target % 16) := by
  have htarget : (((s.acked n st f rest).core n).strm st).target = ((s.core n).strm st).target := by rw [acked_core_same]; simp
  have hjob' : ((s.acked n st f rest).bay (n / 16)).job = some (p, k) := by simpa [acked] using hjob
  have hring' : ((s.acked n st f rest).ring p k).job = some j := hring
  simp only [target, hjob', hring', htarget, physBay, hbay, if_true, hlay, Option.map_some]

end State
end Sys2Proof.Machine

namespace Sys2Proof.Proofs

open Sys2Proof Sys2Proof.Machine Sys2Proof.Claims

/-- Settles O17: a beat by the first request of its round (`State.engineBeat_request`), a row by what is done with it where it lands
(`State.deliver_lands`, `State.ackWrite_store`, `State.ackWrite_forward`). -/
theorem streamEngine : Obligations.StreamEngine := by
  unfold Obligations.StreamEngine
  intro s b n st f rest i piece m at_ o asks ready calm tag marked addr len ctl
  refine ⟨fun hf hret hlive hl hlead htile hnodup => ?delivered, fun hf hret => ?waits, fun hf hret hlive hd => ?written,
    fun p k j d hf hret hlive hd hjob hring hbay hlay hne => ?forwarded, fun hcalm hround hready hasks hi => ?issues⟩
  case delivered =>
    have hstep : exec (.streamRowDelivered n st.castSucc) s = .next (s.deliver n st) := by
      have hst : ¬ (st.castSucc : Fin 17).val = 16 := by simp; omega
      exact congrArg Host.Outcome.next (if_neg hst)
    refine ⟨_, hstep.trans (congrArg Host.Outcome.next (State.deliver_lands hf hret hlive hl hlead htile)), ?_⟩
    have hcore (q : Nat) := State.foldl_modCore_core (s := s.arrived n st rest) (g := (·.lands st f)) hnodup q
    have hothers (q : Nat) (hq : q ∉ s.mates n st) := (hcore q).trans (if_neg hq)
    simp only [State.core_modBay, State.bay_modBay_same, State.modBay_mem]
    refine ⟨fun q hq => ?_, fun q hq hqn => ?_, ?_, ?_, ?_⟩
    · obtain ⟨hrow, harr, hlanded, harrival⟩ := s.arrived_lands n st rest q
      rw [hcore q, if_pos hq]
      refine ⟨?_, fun r hr => ?_, fun hlast => ?_, fun hlast ha => ?_⟩
      · rw [Core.lands_rowAt, Core.setRow_rowAt_same, hrow]
      · rw [Core.lands_rowAt, Core.setRow_rowAt_ne _ _ _ hr, hrow]
      · rw [Core.lands_landed _ _ _ hlast, hlanded]
      · rw [← harrival, ← harr]
        exact Core.lands_arr _ _ _ hlast (by rwa [harrival])
    · rw [hothers q hq, State.arrived_core_ne hqn]
    · have hfly : (((s.arrived n st rest).core n).strm st).fly = rest := by simp [State.arrived_core_same]
      by_cases hq : n.val ∈ s.mates n st
      · rw [hcore n, if_pos hq, Core.lands_fly, hfly]
      · rw [hothers n hq, hfly]
    · rw [State.foldl_modCore_bay]
      rfl
    · rw [State.foldl_modCore_mem]
      rfl
  case waits =>
    have hst : ¬ (st.castSucc : Fin 17).val = 16 := by simp; omega
    exact ⟨congrArg Host.Outcome.next ((if_neg hst).trans (State.deliver_waits hf hret)),
      congrArg Host.Outcome.next (State.ackWrite_waits hf hret)⟩
  case written =>
    refine ⟨_, congrArg Host.Outcome.next (State.ackWrite_store hf hret hlive hd), ?_⟩
    simp only [State.acked_core_same, State.acked_tags, Core.strm_modStrm_same]
    exact ⟨trivial, trivial, fun hlast => by simp [hlast, m], fun _ => rfl, rfl⟩
  case forwarded =>
    intro q
    refine ⟨_, congrArg Host.Outcome.next (State.ackWrite_forward hf hret hlive hd (State.acked_target hjob hring hbay hlay)), ?_⟩
    have hsource : (((s.acked n st f rest).modCore q (·.receives f m.arrival)).core n) = (s.acked n st f rest).core n :=
      State.core_modCore_ne _ _ _ _ (Ne.symm hne)
    beta_reduce
    rw [hsource, State.acked_core_same, State.core_modCore_same, State.acked_core_ne hne, Core.receives_rowAt]
    exact ⟨congrArg Strm.fly (Core.strm_modStrm_same ..), rfl, Core.receives_arr _ _, rfl⟩
  case issues =>
    have hplace : i < 272 := by
      obtain ⟨l₁, l₂, hround, -⟩ := hround
      obtain ⟨x, -, rfl⟩ := List.mem_map.mp (hround ▸ List.mem_append_right l₁ List.mem_cons_self)
      exact Nat.mod_lt _ (by decide)
    have hbay : at_ / 16 = b := by omega
    obtain ⟨l₁, l₂, hround, hbefore⟩ := hround
    obtain ⟨q, hq, htags⟩ := hready
    obtain rfl : q = piece := Option.some_inj.mp (hq.symm.trans hasks)
    have hstep : exec (.streamRequestIssue b) s = .next ((s.turned b i).issuePiece at_ (i % 17) q) := by
      have hbeat := State.engineBeat_request (s := s) (b := b) (i := i) (p := q)
        (fun c hc => State.send_of_strms (hcalm c (div_of_mem_coresOf hc)).1)
        (fun c hc => State.seqAsk_macless 3 (hcalm c (div_of_mem_coresOf hc)).2) (State.nextRequest_first hround hbefore hasks htags)
      exact congrArg Host.Outcome.next (hbeat.trans (if_neg hi))
    refine ⟨fun hl hgood => ?load, fun more hl hp hmore hopen => ?store, fun hd hbad => ?quarantined⟩
    case load =>
      refine ⟨_, hstep, ?_⟩
      obtain ⟨htodo, hfly, htag, hrr, hmem, haccept⟩ := State.issuePiece_load (s := s.turned b i) (p := q) hl hgood
      rw [hbay] at htag hrr
      simp only [State.Accepts, State.strmReq_addr, State.strmReq_len] at haccept
      obtain ⟨hfetch, hjoin⟩ := haccept
      refine ⟨htodo, hfly, htag.trans (by rw [State.turned_bay_tags]), hrr.trans (State.turned_bay_rr i), hmem, fun hnone => ?_, hjoin⟩
      obtain ⟨hqueue, hfetches⟩ := hfetch hnone
      have hlen := State.strmReq_len (s := s.turned b i) (n := at_) (st := i % 17) tag q
      exact ⟨⟨_, hqueue, rfl, rfl, hlen, congrArg not hl, rfl,
        congrArg (s.dev.tsc.toNat + ·) (State.turned_runway i), hbay, rfl, congrArg (fun l => (l + 511) / 512 + 2) hlen⟩, hfetches⟩
    case store =>
      have hfirst : f.tags ≤ (s.bay b).tags := by
        subst hp
        simp at htags
        omega
      obtain ⟨htodo, hsend, hfly, htag, hrr, hmem⟩ := State.issuePiece_store (s := s.turned b i) (n := at_) hl hp hmore hopen
        (State.send_of_strms (hcalm at_ hbay).1 _) (by rwa [hbay, State.turned_bay_tags])
      rw [hbay] at htag hrr
      exact ⟨_, hstep, htodo, hsend, hfly, htag.trans (by rw [State.turned_bay_tags]), hrr.trans (State.turned_bay_rr i), hmem⟩
    case quarantined =>
      have hfault := State.issuePiece_quarantined (s := s.turned b i) (n := at_) (st := i % 17) hd hbad
      refine ⟨_, hstep.trans (congrArg Host.Outcome.next hfault), ?_⟩
      beta_reduce
      rw [State.coreFault_core, State.coreFault_bay]
      exact ⟨rfl, rfl, State.turned_bay_rr i, State.mem_of_kept (State.coreFault_kept ..)⟩

end Sys2Proof.Proofs
end

section
/-! The tile sequencer's stream (08 R252, R253, R265; 10 R304): a matrix macro's fetches changed, a row that comes staged for its step, and a
piece that issues; and a stream's runway by its releases (10 R308). -/

namespace Sys2Proof.Machine

/-- A matrix macro's fetches after a row has come for its step (08 R252). -/
def SeqStrm.staging (q : SeqStrm) (r : StrmRow) (rest : List StrmRow) : SeqStrm :=
  { q with
    fly := rest, landed := tmod 0 q.landed r.tile (· + r.len)
    staged := tmod [] q.staged r.tile (fun l => writeBytes l r.addr r.data) }

namespace State

variable {s : State} {n bundle : Nat} {f g : MatFly} {r : StrmRow} {rest p : List StrmRow}

/-! ### A stream's runway (10 R308) -/

/-- The bytes that a stream released in the last 16,384 ticks. -/
def released (s : State) (n st : Nat) : Nat :=
  ((((s.core n).strm st).rel.filter (fun e => s.dev.tsc.toNat < e.1 + 16384)).map (·.2)).sum

/-- The bytes of a stream's full halves. -/
def fullBytes (m : Strm) : Nat :=
  (([m.cur, m.cur + 1].filter (fun t => t < m.tiles.length && m.tileDone t)).map (fun t => ((m.tiles.getD t []).map (·.2)).sum)).sum

theorem runway_eq (s : State) (n st : Nat) : s.runway n st =
    if s.released n st = 0 ∨ ∃ q ∈ s.mates n st, s.heldOn q st = true then 0
    else fullBytes ((s.core n).strm st) * 16384 / s.released n st := by
  simp only [runway, foldl_add_map, tileBytes_eq, Bool.or_eq_true, decide_eq_true_eq, List.any_eq_true]
  rfl

/-! ### A matrix macro in flight -/

theorem putMat_mac (s : State) (n bundle : Nat) (f : MatFly) : ((s.putMat n bundle f).core n).mac = some ⟨bundle, .matrix f⟩ := by
  rw [putMat, core_modCore_same]

section
variable (hmac : (s.core n).mac = some ⟨bundle, .matrix f⟩)
include hmac

theorem modFly_matrix {h : MacFly → MacFly} (hh : h (.matrix f) = .matrix g) : s.modFly n h = s.putMat n bundle g := by
  have hconst (k : Core → Core) : s.modCore n k = s.modCore n (fun _ => k (s.core n)) := rfl
  rw [modFly, putMat, hconst, hconst (fun c => { c with mac := some ⟨bundle, .matrix g⟩ }), hmac, Option.map_some, hh]

theorem seqOf_matrix : s.seqOf n = f.seq := by
  simp only [seqOf, hmac]
  rfl

theorem seqPos_matrix : s.seqPos n = f.pos := by
  simp only [seqPos, hmac]

/-- A macro whose steps are asked for up to two ahead asks for no more (10 R295). -/
theorem seqAsk_ahead (fuel : Nat) (h : f.pos + 2 < f.seq.asked) : s.seqAsk n fuel = s := by
  cases fuel with
  | zero => rfl
  | succ fuel => simp [seqAsk, hmac, Nat.not_le.mpr h]

/-- While an output tile has to be drained first, no step is computed (08 R252, R253). -/
theorem seqGo_full (h : (if f.db then 2 else 1) ≤ f.full.length) : s.seqGo n = s := by
  have hadvance (fuel : Nat) : s.seqAdvance n fuel = s := by
    cases fuel with
    | zero => rfl
    | succ fuel =>
      simp only [seqAdvance, hmac, h, decide_true, Bool.or_true, if_true]
      cases stepAt f f.pos <;> rfl
  simp only [seqGo, hmac, hadvance, ite_self]

/-- The oldest row that has come is staged for its step, and its tag is free. -/
theorem landSeq_matrix (hf : f.seq.fly = r :: rest) (hret : r.ret = true) (htile : r.tile ≤ f.pos + 1) :
    s.landSeq n = (s.putMat n bundle { f with seq := f.seq.staging r rest }).modBay (n / 16) (fun b => { b with tags := b.tags + r.tags }) := by
  simp only [landSeq, seqPos_matrix hmac, seqOf_matrix hmac, hf]
  rw [pickRow_head (by simp [hret, htile])]
  dsimp only
  rw [modFly_matrix hmac rfl]
  rfl

/-- A piece's request in the deadline class, with the runway of its operand. -/
theorem seqReq_matrix (tag : Nat) : s.seqReq n tag p =
    { Waiting.plain with
      tag := tag, write := false, addr := (p.head?.map (·.addr)).getD 0, len := (p.map (·.len)).sum, bay := n / 16, core := n
      cls := .deadline, dry := s.dev.tsc.toNat + seqRunway f ((p.head?.map (·.tile)).getD 0) } := by
  simp only [seqReq, hmac, foldl_add_map]

/-- A piece that touches a quarantined stack faults against the macro bundle (08 R265). -/
theorem issueSeq_quarantined (hbad : ∃ g ∈ p, s.quarTouch g.addr g.len = true) :
    s.issueSeq n p = (s.putMat n bundle { f with seq := { f.seq with todo := f.seq.todo.drop 1 } }).coreFault n Status.quarantined bundle := by
  have hany : p.any (fun g => s.quarTouch g.addr g.len) = true := List.any_eq_true.mpr hbad
  unfold issueSeq
  rw [modFly_matrix hmac rfl]
  refine (if_pos hany).trans ?_
  rw [putMat_mac]
  rfl

/-- A piece as its controller's request, whatever is still to be asked for. -/
theorem seqReq_putMat (tag : Nat) (todo : List (List StrmRow)) :
    ((s.putMat n bundle { f with seq := { f.seq with todo := todo } }).tagged).seqReq n tag (withTag tag p) = s.seqReq n tag p := by
  have hput := putMat_mac s n bundle { f with seq := { f.seq with todo := todo } }
  rw [seqReq_matrix hmac, seqReq_matrix (s := (s.putMat n bundle _).tagged) hput]
  simp only [head?_withTag (·.addr) (fun _ _ => rfl), head?_withTag (·.tile) (fun _ _ => rfl), map_withTag (·.len) (fun _ _ => rfl)]
  rfl

/-- A piece takes its tags, and its request goes to its controller. -/
theorem issueSeq_fetches (hgood : ∀ g ∈ p, s.quarTouch g.addr g.len = false) :
    let t := s.issueSeq n p
    (t.core n).mac = some ⟨bundle, .matrix { f with seq := { f.seq with
      todo := f.seq.todo.drop 1, fly := f.seq.fly ++ withTag (ownTags + s.memTag) p } }⟩ ∧
    (t.bay (n / 16)).tags = (s.bay (n / 16)).tags - (p.map (·.tags)).sum ∧ (t.bay (n / 16)).rr = (s.bay (n / 16)).rr ∧
    t.mem = s.mem ∧ s.Accepts t (s.seqReq n (ownTags + s.memTag) p) := by
  let f' : MatFly := { f with seq := { f.seq with todo := f.seq.todo.drop 1 } }
  have hw : (s.seqReq n (ownTags + s.memTag) p).write = false := by rw [seqReq_matrix hmac]
  obtain ⟨g, hg⟩ := acceptPiece_read (s := (s.putMat n bundle f').tagged) hw []
  have haccepts := acceptPiece_accepts (s := (s.putMat n bundle f').tagged) hw []
  have hissue : s.issueSeq n p = ((((s.putMat n bundle f').tagged.acceptPiece (s.seqReq n (ownTags + s.memTag) p) []).putMat n bundle
      { f' with seq := { f'.seq with fly := f'.seq.fly ++ withTag (ownTags + s.memTag) p } }).modBay (n / 16)
      (fun b => { b with tags := b.tags - (p.map (·.tags)).sum })) := by
    have hnone : ¬ p.any (fun g => s.quarTouch g.addr g.len) = true := by simpa using hgood
    have hmac' : (((s.putMat n bundle f').tagged.acceptPiece (s.seqReq n (ownTags + s.memTag) p) []).core n).mac =
        some ⟨bundle, .matrix f'⟩ := by
      rw [hg]
      exact putMat_mac ..
    rw [← modFly_matrix (h := fun m => m.modSeq (fun q => { q with fly := q.fly ++ withTag (ownTags + s.memTag) p })) hmac' rfl,
      ← map_withTag (·.tags) (fun _ _ => rfl) (ownTags + s.memTag) p, ← pieceTags_eq,
      ← seqReq_putMat hmac (ownTags + s.memTag) (f.seq.todo.drop 1)]
    unfold issueSeq
    rw [modFly_matrix hmac rfl]
    exact if_neg hnone
  dsimp only
  rw [hissue]
  refine ⟨?_, ?_, ?_, ?_, haccepts⟩
  · exact putMat_mac ..
  · rw [bay_modBay_same, hg]
    rfl
  · rw [bay_modBay_same, hg]
    rfl
  · rw [hg]
    rfl

end

end State
end Sys2Proof.Machine

namespace Sys2Proof.Proofs

open Sys2Proof Sys2Proof.Machine Sys2Proof.Claims

/-- Settles O18: the runway by `State.runway_eq`, a row by `State.landSeq_matrix`, a piece by whether it touches a quarantined stack
(`State.issueSeq_fetches`, `State.issueSeq_quarantined`). -/
theorem tileSequencerStreamAndRunway : Obligations.TileSequencerStreamAndRunway := by
  unfold Obligations.TileSequencerStreamAndRunway
  intro s b n bundle st f r rest piece now m recent released halves full asks ready own tag addr len ctl
  refine ⟨fun hrecent => ?unreleased, fun hheld => ?held, fun hrel hfree => ?runway,
    fun hmac => ⟨fun hf hret htile hfull => ?staged, fun hb hasked hcalm hround hready hpiece => ?issues⟩⟩
  case unreleased =>
    have hnone : s.released n st = 0 := congrArg (fun l => (l.map Prod.snd).sum) hrecent
    rw [State.runway_eq, if_pos (.inl hnone)]
  case held => rw [State.runway_eq, if_pos (.inr hheld)]
  case runway =>
    have hruns : ¬(s.released n st = 0 ∨ ∃ q ∈ s.mates n st, s.heldOn q st = true) := by
      rintro (h | ⟨q, hq, hheld⟩)
      · exact hrel h
      · exact Bool.noConfusion ((hfree q hq).symm.trans hheld)
    rw [State.runway_eq, if_neg hruns]
    rfl
  case staged =>
    let g : MatFly := { f with seq := f.seq.staging r rest }
    let t := (s.putMat n bundle g).modBay (n / 16) (fun b => { b with tags := b.tags + r.tags })
    have hput : (t.core n).mac = some ⟨bundle, .matrix g⟩ := State.putMat_mac ..
    have hland : (s.landSeq n).seqGo n = t := by
      rw [State.landSeq_matrix hmac hf hret htile]
      exact State.seqGo_full hput hfull
    refine ⟨t, congrArg Host.Outcome.next ((if_pos rfl).trans hland), hput, ?_, fun q => ?_, ?_, rfl⟩
    · simp [t, State.putMat]
    · simp [t, State.putMat]
      rfl
    · simp [t, State.putMat]
  case issues =>
    have hplace : 16 * b.val + own / 17 = n.val := by omega
    have hseq : own % 17 = 16 := by omega
    obtain ⟨l₁, l₂, hround, hbefore⟩ := hround
    obtain ⟨q, hq, htags⟩ := hready
    have hasks : asks own = some piece := (if_pos hseq).trans (by rw [hplace, hpiece])
    obtain rfl : q = piece := Option.some_inj.mp (hq.symm.trans hasks)
    have hask (c : Nat) (hc : c ∈ coresOf b) : s.seqAsk c 3 = s := by
      by_cases hcn : c = n.val
      · rw [hcn]
        exact State.seqAsk_ahead hmac 3 hasked
      · exact State.seqAsk_macless 3 ((hcalm c (div_of_mem_coresOf hc)).2 hcn)
    have hstep : exec (.streamRequestIssue b) s = .next ((s.turned b own).issueSeq n q) := by
      have hbeat := State.engineBeat_request (s := s) (b := b) (i := own) (p := q)
        (fun c hc => State.send_of_strms (hcalm c (div_of_mem_coresOf hc)).1) hask (State.nextRequest_first hround hbefore hasks htags)
      rw [hplace] at hbeat
      exact congrArg Host.Outcome.next (hbeat.trans (if_pos hseq))
    have hturned : ((s.turned b own).core n).mac = some ⟨bundle, .matrix f⟩ := hmac
    refine ⟨fun hgood => ?fetched, fun hbad => ?quarantined⟩
    case fetched =>
      obtain ⟨hfly, htag, hrr, hmem, haccept⟩ := State.issueSeq_fetches hturned (p := q) hgood
      rw [hb] at htag hrr
      rw [State.Accepts, State.seqReq_matrix hturned] at haccept
      refine ⟨_, hstep, hfly, htag.trans (by rw [State.turned_bay_tags]), hrr.trans (State.turned_bay_rr own), hmem, fun hnone => ?_⟩
      obtain ⟨hqueue, -⟩ := haccept.1 hnone
      exact ⟨_, hqueue, rfl, rfl, rfl, rfl, rfl, rfl, hb, rfl⟩
    case quarantined =>
      refine ⟨_, hstep.trans (congrArg Host.Outcome.next (State.issueSeq_quarantined hturned hbad)), ?_⟩
      beta_reduce
      rw [State.coreFault_core, State.coreFault_bay]
      exact ⟨rfl, rfl, State.turned_bay_rr own, State.mem_of_kept (State.coreFault_kept ..)⟩

end Sys2Proof.Proofs
end

section
/-! Stream operations at issue (10 R292-R296, R300, R308): what a waiting bundle leaves of the streams, an unended stream ended, and a Pricking
started. -/

namespace Sys2Proof.Machine

theorem issuedCore_strms (tsc : Nat) (c : Core) : (Claims.issuedCore tsc c).strms = c.strms := by
  rcases hx : c.xfer with _ | ⟨_ | _ | _, _⟩ <;> simp [Claims.issuedCore, Claims.issuedCore.nextCore, hx]

namespace State

variable {s t u : State} {n p k st : Nat} {j : Job}

/-! ### What waits at a core is nothing to its streams -/

section
variable (s n) (g : List SlotOp) (b : List (List SlotOp))

theorem queued_strm (q i : Nat) : ((s.modCore n (·.queued g b)).core q).strm i = (s.core q).strm i := by
  by_cases hq : q = n
  · rw [hq, core_modCore_same]
    rfl
  · rw [core_modCore_ne _ _ _ _ hq]

theorem sameRoutes_queued (st : Nat) : s.SameRoutes (s.modCore n (·.queued g b)) st :=
  ⟨fun _ => rfl, fun _ => rfl, fun _ _ => rfl, fun q => by simp only [route, queued_strm]⟩

theorem strmCause_queued (q st : Nat) : (s.modCore n (·.queued g b)).strmCause q st = s.strmCause q st := by
  simp only [strmCause, readyPiece, minCur, queued_strm, (s.sameRoutes_queued n g b st).leadOf, (s.sameRoutes_queued n g b st).mates]
  rfl

theorem strmgoFault_queued (q st prick : Nat) (c : Core) (base : Addr) :
    (s.modCore n (·.queued g b)).strmgoFault q st prick (c.queued g b) base = s.strmgoFault q st prick c base := by
  simp only [strmgoFault, queued_strm]
  rfl

end

/-! ### A bundle of one operation that its core and the tick decide -/

/-- A bundle of one slot whose effect is on its core alone, and is told by the core and the tick: the state after it (07 R209, R213). -/
theorem issueBundle_timed (op : SlotOp) (f : Core → Core) (hend : (s.core n).ending = false) (hkeep : ∀ c, (f c).ending = c.ending)
    (hfree : ∀ (c : Core) (w : Option Nat), countedCore w (f c) = f (countedCore w c))
    (hi : ∀ t : State, t.dev = s.dev →
      t.issueSlot n p k j (((s.tickCore n).core n).queued [] [[op]]) (s.core n).pc op = t.modCore n f) :
    ((s.tickCore n).modCore n (·.queued [] [[op]])).issueBundle n p k j [op] = Claims.issued s n p k f := by
  have hpc : (((s.tickCore n).core n).queued [] [[op]]).pc = (s.core n).pc := by simp
  rw [issueBundle_eq, core_modCore_same, hpc, hi, markBundle_eq, countBeat_none, checkEnded_going]
  · rw [modRing_modCore, modRing_modCore, modRing_modCore, modCore_modCore, modCore_modCore, modCore_modCore, modCore_modCore,
      modCore_modRing_modPdk, hfree]
    simp only [modCore_dev, tickCore_dev, issuedCore_eq, issued_eq]
  · simp [hkeep, hend]
  · simp [markBundle_eq]

end State

/-- The operations on a stream that a core already has. -/
inductive StrmOp : SlotOp → Prop
  | strmswap (st : Fin 16) : StrmOp (.strmswap st)
  | strmwait (st : Fin 16) (x : XReg) : StrmOp (.strmwait st x)

namespace StrmOp

variable {op : SlotOp} (hop : StrmOp op)
include hop

theorem slotWf_eq : slotWf op = true := by cases hop <;> rfl
theorem bundleOk_eq (img : TenImage) : State.bundleOk img [op] = true := by cases hop <;> rfl
theorem isTransfer_eq : isTransfer op = false := by cases hop <;> rfl
theorem selfHeld_eq : State.selfHeld op = false := by cases hop <;> rfl
theorem drawsOf_eq : State.drawsOf [op] = 0 := by cases hop <;> rfl
theorem slotFault_eq (s : State) (n p : Nat) (j : Job) : s.slotFault n p j op = none := by cases hop <;> rfl
theorem firstTest_eq (s : State) (n : Nat) : s.firstTest n op = s := by cases hop <;> rfl

theorem slotHold_queued (s : State) (n : Nat) (j : Job) (g : List SlotOp) (b : List (List SlotOp)) :
    (s.modCore n (·.queued g b)).slotHold n j op = s.slotHold n j op := by
  cases hop <;> simp only [State.slotHold, State.queued_strm, State.strmCause_queued]

section
variable {s : State} {n p k : Nat} {j : Job} (h : Claims.CanIssue s n p k j)
include h

/-- An operation whose half is not there: a bubble, and the bundle waits (10 R294). -/
theorem held {cause : Nat} (hhold : (s.tickCore n).slotHold n j op = some cause) :
    s.slotCmd n false op = .next (Claims.held s n p cause op) := by
  have hgather : ((s.tickCore n).core n).gather = [] := by simp [h.alone.1]
  have hqueued : ((s.tickCore n).core n).queued [] [[op]] = { (s.tickCore n).core n with queue := [[op]] } := by
    rw [Core.queued, ← hgather]
  rw [State.slotCmd_alone h op hop.slotWf_eq (hop.bundleOk_eq _) (.inr hop.isTransfer_eq)]
  simp only [List.filter_cons, hop.selfHeld_eq, Bool.not_false, if_true, List.filter_nil, State.heldFor_one _ _ _ _ hop.drawsOf_eq,
    hop.slotHold_queued, hhold, State.bubble, State.countBeat, State.modCore_modCore]
  rw [State.modCore, tmod, ← State.core, hqueued]
  rfl

/-- An operation that nothing holds: it issues, with its effect on its core as the streams stand. -/
theorem issues {f g : Core → Core} (hhold : (s.tickCore n).slotHold n j op = none)
    (hi : ∀ t : State, t.dev = s.dev →
      t.issueSlot n p k j (((s.tickCore n).core n).queued [] [[op]]) (s.core n).pc op = t.modCore n f)
    (hfg : ∀ y : Core, y.strms = ((s.tickCore n).core n).strms → f y = g y)
    (hkeep : ∀ c, (f c).ending = c.ending := by intros; rfl)
    (hfree : ∀ (c : Core) (w : Option Nat), State.countedCore w (f c) = f (State.countedCore w c) := by intros; rfl) :
    s.slotCmd n false op = .next (Claims.issued s n p k g) := by
  rw [State.slotCmd_alone h op hop.slotWf_eq (hop.bundleOk_eq _) (.inr hop.isTransfer_eq)]
  simp only [List.filter_cons, hop.selfHeld_eq, Bool.not_false, if_true, List.filter_nil, hop.firstTest_eq,
    State.heldFor_one _ _ _ _ hop.drawsOf_eq, hop.slotHold_queued, hhold, hop.slotFault_eq,
    State.issueBundle_timed op f h.going.1 hkeep hfree hi, State.issued_eq, hfg _ (issuedCore_strms ..)]

end

end StrmOp

/-! ### STRMSWAP and STRMWAIT (10 R294, R308) -/

/-- A stream whose current half its core swaps past at a tick. -/
def Strm.swapped (now : Nat) (m : Strm) : Strm :=
  if m.ended then m
  else if m.loads then { m with cur := m.cur + 1, rel := m.rel.filter (fun e => now < e.1 + 16384) ++ [(now, tileBytes (m.tiles.getD m.cur []))] }
  else { m with todo := m.todo ++ m.piecesOf m.cur, cur := m.cur + 1 }

/-- A core with one of its streams replaced. -/
def Core.putStrm (c : Core) (st : Nat) (m : Strm) : Core := { c with strms := tset c.strms st m }

namespace Strm

variable {m : Strm} {now : Nat}

theorem swapped_ended (h : m.ended = true) : m.swapped now = m := if_pos h

theorem swapped_load (he : m.ended = false) (hl : m.loads = true) : m.swapped now =
    { m with cur := m.cur + 1, rel := m.rel.filter (fun e => now < e.1 + 16384) ++ [(now, ((m.tiles.getD m.cur []).map (·.2)).sum)] } := by
  rw [swapped, if_neg (ne_true_of_eq_false he), if_pos hl, tileBytes_eq]

theorem swapped_store (he : m.ended = false) (hl : m.loads = false) :
    m.swapped now = { m with todo := m.todo ++ m.piecesOf m.cur, cur := m.cur + 1 } := by
  rw [swapped, if_neg (ne_true_of_eq_false he), if_neg (ne_true_of_eq_false hl)]

theorem waits_ended (h : m.ended = true) : m.waits = false := by simp [waits, h]

theorem waitVal_eq (m : Strm) : m.waitVal =
    if m.ended = true then 0 else if m.loads = true then ((m.tiles.getD m.cur []).map (·.2)).sum else 512 * m.halfRows := by
  rw [waitVal, tileBytes_eq, Nat.mul_comm]

end Strm

namespace State

variable {s : State} {n p k : Nat} {j : Job} {st : Fin 16} {x : XReg}

theorem slotHold_strmswap (s : State) (n : Nat) (j : Job) (st : Fin 16) : s.slotHold n j (.strmswap st) =
    if (((s.core n).strm st).loads && ((s.core n).strm st).waits) = true then some (s.strmCause n st) else none := rfl

theorem slotHold_strmwait (s : State) (n : Nat) (j : Job) (st : Fin 16) (x : XReg) : s.slotHold n j (.strmwait st x) =
    if ((s.core n).strm st).waits = true then some (s.strmCause n st) else none := rfl

section
variable (h : Claims.CanIssue s n p k j)
include h

theorem strmswap_issues (hfree : ((((s.tickCore n).core n).strm st).loads && (((s.tickCore n).core n).strm st).waits) = false) :
    s.slotCmd n false (.strmswap st) = .next (Claims.issued s n p k
      (·.putStrm st ((((s.tickCore n).core n).strm st).swapped s.dev.tsc.toNat))) := by
  refine (StrmOp.strmswap st).issues (f := (·.modStrm st (·.swapped s.dev.tsc.toNat))) h ?_ (fun t ht => ?_) (fun y hy => ?_)
  · rw [slotHold_strmswap, if_neg (ne_true_of_eq_false hfree)]
  · rw [← ht]
    simp [issueSlot, slotKind, issueMove, bankUses, strmswap]
    rfl
  · simp only [Core.modStrm, tmod, Core.putStrm, hy]
    rfl

theorem strmwait_issues (hfree : (((s.tickCore n).core n).strm st).waits = false) :
    s.slotCmd n false (.strmwait st x) = .next (Claims.issued s n p k
      (·.fly 1 (.setX x (BitVec.ofNat 64 (((s.tickCore n).core n).strm st).waitVal)))) := by
  refine (StrmOp.strmwait st x).issues h ?_ (fun t _ => ?_) (fun _ _ => rfl)
  · rw [slotHold_strmwait, if_neg (ne_true_of_eq_false hfree)]
  · simp [issueSlot, slotKind, issueMove, bankUses]
    rfl

end

/-! ### Changes of one stream number (10 R292, R296, R309) -/

/-- Two states that differ only in the cores' streams of one number, and in what their engines keep for them. -/
structure SameBut (st : Nat) (s t : State) : Prop where
  core : ∀ q, { t.core q with strms := [] } = { s.core q with strms := [] }
  strm : ∀ q i, i ≠ st → (t.core q).strm i = (s.core q).strm i
  job  : ∀ b, (t.bay b).job = (s.bay b).job
  pdks : t.pdks = s.pdks
  rings : t.rings = s.rings
  plat : t.plat = s.plat
  dev  : t.dev = s.dev
  mem  : t.mem = s.mem
  out  : t.out = s.out

namespace SameBut

variable {s t u : State} {st : Nat}

theorem refl (st : Nat) (s : State) : SameBut st s s :=
  ⟨fun _ => rfl, fun _ _ _ => rfl, fun _ => rfl, rfl, rfl, rfl, rfl, rfl, rfl⟩

theorem trans (h : SameBut st s t) (h' : SameBut st t u) : SameBut st s u :=
  ⟨fun q => (h'.core q).trans (h.core q), fun q i hi => (h'.strm q i hi).trans (h.strm q i hi), fun b => (h'.job b).trans (h.job b),
    h'.pdks.trans h.pdks, h'.rings.trans h.rings, h'.plat.trans h.plat, h'.dev.trans h.dev, h'.mem.trans h.mem, h'.out.trans h.out⟩

theorem modStrm (st : Nat) (s : State) (n : Nat) (g : Strm → Strm) : SameBut st s (s.modCore n (·.modStrm st g)) := by
  refine ⟨fun q => ?_, fun q i hi => ?_, fun _ => rfl, rfl, rfl, rfl, rfl, rfl, rfl⟩
  · by_cases hq : q = n
    · rw [hq, core_modCore_same]
      rfl
    · rw [core_modCore_ne _ _ _ _ hq]
  · by_cases hq : q = n
    · rw [hq, core_modCore_same, Core.strm_modStrm_ne _ _ _ hi]
    · rw [core_modCore_ne _ _ _ _ hq]

theorem modBay (st : Nat) (s : State) (b : Nat) {g : Bay → Bay} (hg : ∀ x, (g x).job = x.job) : SameBut st s (s.modBay b g) := by
  refine ⟨fun _ => rfl, fun _ _ _ => rfl, fun c => ?_, rfl, rfl, rfl, rfl, rfl, rfl⟩
  by_cases hc : c = b
  · rw [hc, bay_modBay_same, hg]
  · rw [bay_modBay_ne _ _ _ _ hc]

/-- What a core has besides its streams. -/
theorem proj (h : SameBut st s t) {α : Type} (g : Core → α) (hg : ∀ c, g { c with strms := [] } = g c) (q : Nat) :
    g (t.core q) = g (s.core q) := by
  rw [← hg, h.core, hg]

end SameBut

end State

/-! ### An unended stream ended by STRMGO (10 R296) -/

/-- A stream that a new STRMGO ends, of whose rows under way those that `keep` says remain. -/
def Strm.endedBy (m : Strm) (keep : StrmRow → Bool) : Strm := { m with todo := [], quit := true, fly := m.fly.filter keep }

theorem Strm.endedBy_settled {m : Strm} (keep : StrmRow → Bool) (h : m.settled = true) : (m.endedBy keep).settled = true := by
  simp only [settled, Bool.and_eq_true, List.isEmpty_iff] at h
  simp [settled, endedBy, h]

/-- A store or forward is no multicast. -/
theorem Strm.dir_ne_two {m : Strm} (hl : m.loads = false) : m.dir ≠ 2 := by
  intro hd
  simp [loads, hd] at hl

namespace State

variable {s t : State} {n st : Nat} {j : Job}

/-- STRMGO's first test changes at most the stream of the core that fetches, and the tags of its bay. -/
theorem endStream_cases (s : State) (n st : Nat) : s.endStream n st = s ∨ ∃ keep freed,
    s.endStream n st = (s.modCore (s.leadOf n st) (·.modStrm st (·.endedBy keep))).modBay (s.leadOf n st / 16)
      (fun b => { b with tags := b.tags + freed }) := by
  simp only [endStream]
  split
  · exact .inr ⟨_, _, rfl⟩
  · exact .inl rfl

theorem endStream_sameBut (s : State) (n st : Nat) : SameBut st s (s.endStream n st) := by
  obtain h | ⟨keep, freed, h⟩ := s.endStream_cases n st
  · rw [h]
    exact .refl st s
  · rw [h]
    exact (SameBut.modStrm ..).trans (.modBay _ _ _ fun _ => rfl)

theorem endStream_leadOf (s : State) (n st : Nat) : (s.endStream n st).leadOf n st = s.leadOf n st := by
  obtain h | ⟨keep, freed, h⟩ := s.endStream_cases n st
  · rw [h]
  · rw [h]
    refine ((sameRoutes_modBay ?_).leadOf n).trans ((sameRoutes_modStrm ?_).leadOf n) <;> exact fun _ => rfl

theorem slotHold_strmgo (s : State) (n : Nat) (j : Job) (st : Fin 16) (prick : BitVec 12) (adr : AReg) :
    s.slotHold n j (.strmgo st prick adr) = if ((s.core (s.leadOf n st)).strm st).settled = true then none else some 0 := by
  simp only [slotHold]
  cases ((s.core (s.leadOf n st)).strm st).settled <;> rfl

/-- Where no issued request of the fetch is still to complete, STRMGO's end of the old stream holds nothing. -/
theorem endStream_settled (h : ((s.core (s.leadOf n st)).strm st).settled = true) :
    (((s.endStream n st).core ((s.endStream n st).leadOf n st)).strm st).settled = true := by
  rw [endStream_leadOf]
  obtain he | ⟨keep, freed, he⟩ := s.endStream_cases n st
  · rw [he, h]
  · rw [he, core_modBay, core_modCore_same, Core.strm_modStrm_same]
    exact Strm.endedBy_settled keep h

/-- A store or forward with issued requests still to complete: those stay, and what is not issued is dropped. -/
theorem endStream_store (hlive : ((s.core n).strm st).live = true) (hl : ((s.core n).strm st).loads = false)
    (hs : ((s.core n).strm st).settled = false) :
    ((s.endStream n st).core n).strm st = { (s.core n).strm st with todo := [], quit := true } := by
  simp only [endStream, leadOf_alone (Strm.dir_ne_two hl), hlive, hl, hs, Bool.not_false, Bool.or_true, Bool.and_self, if_true, Bool.false_and,
    core_modBay, core_modCore_same, Core.strm_modStrm_same]
  simp

end State

/-! ### A Pricking started (10 R292, R298, R299, R309) -/

/-- The stream that STRMGO starts with a Pricking, its registers captured from a core, on package addresses that `addr` gives. -/
def Prick.begun (pr : Prick) (c : Core) (base : Addr) (prick bundle : Nat) (addr : Int → Nat) : Strm :=
  let m : Strm :=
    { live := true, started := pr.dir ≠ 2, prick := prick, base := base.toNat, dir := pr.dir, deadline := pr.deadline
      arrival := pr.arrival, bufRow := pr.bufRow, halfRows := pr.halfRows, group := pr.group, target := pr.target, bundle := bundle
      tiles := (State.prickTiles c pr base).map (fun t => t.map (fun e => (addr e.1, e.2))), lead := pr.dir ≠ 2 }
  { m with todo := if pr.dir = 0 then m.piecesFrom 0 else [] }

/-- A stream changed at most in its part of a multicast fetch. -/
def Strm.Regrouped (m y : Strm) : Prop := ∃ started fid lead todo, y = { m with started := started, fid := fid, lead := lead, todo := todo }

namespace Strm.Regrouped

variable {x y z : Strm}

theorem refl (x : Strm) : Regrouped x x := ⟨_, _, _, _, rfl⟩

theorem trans (h : Regrouped x y) (h' : Regrouped y z) : Regrouped x z := by
  obtain ⟨_, _, _, _, rfl⟩ := h
  obtain ⟨_, _, _, _, rfl⟩ := h'
  exact ⟨_, _, _, _, rfl⟩

end Strm.Regrouped

namespace State

variable {s t : State} {n st : Nat}

/-- Two states that differ only in the parts that the streams of one number have in multicast fetches. -/
structure Regroups (st : Nat) (s t : State) : Prop where
  same : SameBut st s t
  strm : ∀ q, ((s.core q).strm st).Regrouped ((t.core q).strm st)

theorem Regroups.refl (st : Nat) (s : State) : Regroups st s s := ⟨.refl st s, fun _ => .refl _⟩

theorem Regroups.trans {u : State} (h : Regroups st s t) (h' : Regroups st t u) : Regroups st s u :=
  ⟨h.same.trans h'.same, fun q => (h.strm q).trans (h'.strm q)⟩

theorem Regroups.modStrm {g : Strm → Strm} (hg : ∀ m : Strm, m.Regrouped (g m)) (n : Nat) : Regroups st s (s.modCore n (·.modStrm st g)) := by
  refine ⟨.modStrm st s n g, fun q => ?_⟩
  by_cases hq : q = n
  · rw [hq, core_modCore_same, Core.strm_modStrm_same]
    exact hg _
  · rw [core_modCore_ne _ _ _ _ hq]
    exact .refl _

theorem Regroups.tagged : Regroups st s s.tagged :=
  ⟨⟨fun _ => rfl, fun _ _ _ => rfl, fun _ => rfl, rfl, rfl, rfl, rfl, rfl, rfl⟩, fun _ => .refl _⟩

theorem Regroups.foldl {α : Type} {f : State → α → State} (hf : ∀ t x, Regroups st t (f t x)) (l : List α) :
    Regroups st s (l.foldl f s) := by
  induction l generalizing s with
  | nil => exact .refl st s
  | cons x l ih => exact (hf s x).trans ih

/-- A multicast fetch of the group's cores starts, its first core fetching for all. -/
def startGroup (s : State) (st : Nat) (qs : List Nat) : State :=
  let tag := ownTags + s.memTag
  let t := qs.foldl (fun s q => s.modCore q (·.modStrm st (fun x => { x with started := true, fid := tag }))) s.tagged
  match qs with
  | q :: _ => t.modCore q (·.modStrm st (fun x => { x with lead := true, todo := x.piecesFrom 0 }))
  | [] => t

theorem startGroup_regroups (s : State) (st : Nat) (qs : List Nat) : Regroups st s (s.startGroup st qs) := by
  have hall : Regroups st s (qs.foldl (fun t q => t.modCore q (·.modStrm st (fun x =>
      { x with started := true, fid := ownTags + s.memTag }))) s.tagged) :=
    Regroups.tagged.trans (.foldl (fun _ q => .modStrm (fun _ => ⟨_, _, _, _, rfl⟩) q) qs)
  cases qs with
  | nil => exact hall
  | cons q qs => exact hall.trans (.modStrm (fun _ => ⟨_, _, _, _, rfl⟩) q)

section
variable {p k prick bundle : Nat} {img : TenImage} {j : Job} {pr : Prick} (hjob : (s.bay (n / 16)).job = some (p, k))
  (himg : (s.pdk p).img = some img) (hring : (s.ring p k).job = some j) (hpr : img.pricks[prick]? = some pr)
include hjob himg hring hpr

/-- STRMGO's effect: the Pricking stands, and a multicast starts where every member of its group waits for it. -/
theorem strmgo_cases (c : Core) (base : Addr) : ∃ (ready : Bool) (qs : List Nat),
    let u := s.modCore n (·.putStrm st (pr.begun c base prick bundle (fun a => if pr.dir = 3 then a.toNat else (s.pkgAddr p a).toNat)))
    s.strmgo n st prick c base bundle = if pr.dir ≠ 2 then u else if ready then u.startGroup st qs else u := by
  unfold strmgo
  rw [hjob]
  dsimp only
  rw [himg, hring]
  dsimp only
  rw [hpr]
  exact ⟨_, _, rfl⟩

theorem strmgo_begins (c : Core) (base : Addr) :
    let m := pr.begun c base prick bundle (fun a => if pr.dir = 3 then a.toNat else (s.pkgAddr p a).toNat)
    let t := s.strmgo n st prick c base bundle
    SameBut st s t ∧ m.Regrouped ((t.core n).strm st) ∧ (pr.dir ≠ 2 → (t.core n).strm st = m) := by
  intro m t
  have hput : SameBut st s (s.modCore n (·.putStrm st m)) := SameBut.modStrm st s n (fun _ => m)
  have hstrm : ((s.modCore n (·.putStrm st m)).core n).strm st = m := by
    rw [core_modCore_same]
    exact tget_tset_same ..
  obtain ⟨ready, qs, h⟩ := strmgo_cases (st := st) (bundle := bundle) hjob himg hring hpr c base
  change t = if pr.dir ≠ 2 then _ else _ at h
  by_cases hd : pr.dir = 2
  · rw [if_neg (not_not.mpr hd)] at h
    have hgroup : Regroups st (s.modCore n (·.putStrm st m)) t := by
      rw [h]
      split
      · exact startGroup_regroups ..
      · exact .refl st _
    refine ⟨hput.trans hgroup.same, ?_, fun hne => absurd hd hne⟩
    rw [← hstrm]
    exact hgroup.strm n
  · rw [if_pos hd] at h
    rw [h, hstrm]
    exact ⟨hput, .refl m, fun _ => rfl⟩

end

/-! ### STRMGO as a bundle (07 R209, R231, R235; 10 R296, R300) -/

theorem slotFault_strmgo (s : State) (n p : Nat) (j : Job) (st : Fin 16) (prick : BitVec 12) (adr : AReg) :
    s.slotFault n p j (.strmgo st prick adr) = s.strmgoFault n st prick.toNat (s.core n) ((s.core n).rdA adr) := by
  simp only [slotFault, bankClash, bankUses]
  cases s.strmgoFault n st prick.toNat (s.core n) ((s.core n).rdA adr) <;> rfl

/-- The state in which a bundle of one slot that takes no bank stage has left its core's queue. -/
def departed (s : State) (n p k : Nat) : State :=
  (((s.modCore n (leftCore s.dev.tsc.toNat)).markBundle p k).modCore n (nextPc (s.core n))).modCore n
    (fun x => { x with banks := x.banks ++ [] })

theorem issueBundle_strmgo (s : State) (n p k : Nat) (j : Job) (st : Fin 16) (prick : BitVec 12) (adr : AReg) :
    s.issueBundle n p k j [.strmgo st prick adr] =
      (((s.departed n p k).strmgo n st prick.toNat (s.core n) ((s.core n).rdA adr) (s.core n).pc).countBeat n p none).checkEnded n := rfl

@[simp] theorem departed_mem (s : State) (n p k : Nat) : (s.departed n p k).mem = s.mem := rfl
@[simp] theorem departed_out (s : State) (n p k : Nat) : (s.departed n p k).out = s.out := rfl
@[simp] theorem departed_bay (s : State) (n p k b : Nat) : (s.departed n p k).bay b = s.bay b := rfl
@[simp] theorem departed_pdk (s : State) (n p k q : Nat) : (s.departed n p k).pdk q = s.pdk q := rfl
@[simp] theorem departed_pkgAddr (s : State) (n p k q : Nat) (a : Int) : (s.departed n p k).pkgAddr q a = s.pkgAddr q a := rfl

theorem departed_ring {s : State} {n p k : Nat} {j : Job} (h : (s.ring p k).job = some j) : ∃ j', ((s.departed n p k).ring p k).job = some j' := by
  simp [departed, markBundle_eq, Claims.bundleMarked, h]

theorem departed_core (s : State) (n p k : Nat) : ((s.departed n p k).core n).strms = (s.core n).strms ∧
    ((s.departed n p k).core n).flight = (s.core n).flight ∧ ((s.departed n p k).core n).ending = (s.core n).ending := by
  rcases hx : (s.core n).xfer with _ | ⟨_ | _ | _, _⟩ <;> simp [departed, nextPc, leftCore, markBundle_eq, hx]

section
variable {p k : Nat} {j : Job} (h : Claims.CanIssue s n p k j) {st : Fin 16} {prick : BitVec 12} {adr : AReg} {img : TenImage} {pr : Prick}
  (himg : (s.pdk p).img = some img) (hpr : img.pricks[prick.toNat]? = some pr) (hrange : prick.toNat ≤ 1023)
include h himg hpr hrange

theorem slotCmd_strmgo :
    let u := (s.tickCore n).modCore n (·.queued [] [[.strmgo st prick adr]])
    let c := (s.tickCore n).core n
    s.slotCmd n false (.strmgo st prick adr) = ((s.tickCore n).strmgoFault n st prick.toNat c (c.rdA adr)).elim
      (((u.endStream n st).slotHold n j (.strmgo st prick adr)).elim
        (.next ((u.endStream n st).issueBundle n p k j [.strmgo st prick adr])) (fun cause => .next ((u.endStream n st).bubble n p cause)))
      (fun e => .next ((s.tickCore n).coreFault n e c.pc)) := by
  have hw : slotWf (.strmgo st prick adr) = true := decide_eq_true hrange
  have hok : bundleOk ((s.pdk p).img.getD {}) [.strmgo st prick adr] = true := by
    obtain ⟨hlt, -⟩ := List.getElem?_eq_some_iff.mp hpr
    have hwf : bundleWf [.strmgo st prick adr] = true := by
      have hdst : [SlotOp.strmgo st prick adr].filterMap slotDst = [] := rfl
      simp [bundleWf, hw, hdst, hasTwins, slotKind]
    simp [bundleOk, hwf, himg, hlt]
  rw [slotCmd_alone h _ hw hok (.inr rfl)]
  dsimp only
  generalize hu : (s.tickCore n).modCore n (·.queued [] [[.strmgo st prick adr]]) = u
  have hcore : u.core n = ((s.tickCore n).core n).queued [] [[.strmgo st prick adr]] := by rw [← hu, core_modCore_same]
  have hfault : u.slotFault n p j (.strmgo st prick adr) =
      (s.tickCore n).strmgoFault n st prick.toNat ((s.tickCore n).core n) (((s.tickCore n).core n).rdA adr) := by
    rw [slotFault_strmgo, hcore, ← hu]
    exact (s.tickCore n).strmgoFault_queued n _ _ n st prick.toNat _ _
  have hfirst : u.firstTest n (.strmgo st prick adr) = u.endStream n st := rfl
  have hself : selfHeld (.strmgo st prick adr) = true := rfl
  have hpc : (s.core n).pc = ((s.tickCore n).core n).pc := by simp
  simp only [List.filter_cons, hself, Bool.not_true, Bool.false_eq_true, if_false, List.filter_nil, heldFor_nil,
    heldFor_one _ _ _ _ (show drawsOf [.strmgo st prick adr] = 0 from rfl), hfault, hfirst, hpc]
  cases (s.tickCore n).strmgoFault n st prick.toNat ((s.tickCore n).core n) (((s.tickCore n).core n).rdA adr) with
  | some e =>
    rw [← hu]
    simp only [Option.elim_some, coreFault, modCore_modCore, bay_modCore]
    rfl
  | none => cases (u.endStream n st).slotHold n j (.strmgo st prick adr) <;> rfl

end

/-- What STRMGO's bundle leaves as it issues: its Pricking stands, in a multicast with what its fetch makes of it, and nothing else of the
core's streams, of what is in flight or of memory has changed. -/
theorem issueBundle_strmgo_begins {p k : Nat} {j j' : Job} {st : Fin 16} {prick : BitVec 12} {adr : AReg} {img : TenImage} {pr : Prick}
    (hjob : (s.bay (n / 16)).job = some (p, k)) (himg : (s.pdk p).img = some img) (hring : (s.ring p k).job = some j')
    (hpr : img.pricks[prick.toNat]? = some pr) (hend : (s.core n).ending = false) :
    let c := s.core n
    let m := pr.begun c (c.rdA adr) prick.toNat c.pc (fun a => if pr.dir = 3 then a.toNat else (s.pkgAddr p a).toNat)
    let t := s.issueBundle n p k j [.strmgo st prick adr]
    m.Regrouped ((t.core n).strm st) ∧ (pr.dir ≠ 2 → (t.core n).strm st = m) ∧ (∀ i, i ≠ st.val → (t.core n).strm i = c.strm i) ∧
      (t.core n).flight = c.flight ∧ t.mem = s.mem ∧ t.out = s.out := by
  intro c m t
  obtain ⟨j₁, hring₁⟩ := departed_ring hring
  obtain ⟨hstrms, hflight, hending⟩ := s.departed_core n p k
  obtain ⟨hsame, hgroup, halone⟩ := strmgo_begins (s := s.departed n p k) (st := st) (bundle := c.pc) hjob himg hring₁ hpr c (c.rdA adr)
  have ht : t = ((s.departed n p k).strmgo n st prick.toNat c (c.rdA adr) c.pc).countBeat n p none := by
    refine (issueBundle_strmgo s n p k j st prick adr).trans (checkEnded_going _ _ ?_)
    simp only [countBeat_none, core_modPdk, core_modCore_same, countedCore_ending]
    rw [hsame.proj (·.ending) (fun _ => rfl), hending, hend]
  have hcore : t.core n = countedCore none (((s.departed n p k).strmgo n st prick.toNat c (c.rdA adr) c.pc).core n) := by
    rw [ht, countBeat_none, core_modPdk, core_modCore_same]
  have hstrm (i : Nat) : (t.core n).strm i = (((s.departed n p k).strmgo n st prick.toNat c (c.rdA adr) c.pc).core n).strm i := by
    rw [hcore]
    rfl
  refine ⟨?_, fun hd => ?_, fun i hi => ?_, ?_, ?_, ?_⟩
  · rw [hstrm]
    exact hgroup
  · rw [hstrm]
    exact halone hd
  · rw [hstrm, hsame.strm n i hi, Core.strm, hstrms]
    rfl
  · rw [hcore]
    exact (hsame.proj (·.flight) (fun _ => rfl) n).trans hflight
  · rw [ht]
    exact hsame.mem
  · rw [ht]
    exact hsame.out

theorem liveJob_job {p k : Nat} {j : Job} (h : s.liveJob n = some (p, k, j)) :
    (s.bay (n / 16)).job = some (p, k) ∧ (s.ring p k).job = some j := by
  unfold liveJob at h
  repeat' split at h
  all_goals simp_all

theorem pkgAddr_of_plat (h : t.plat = s.plat) (p : Nat) (a : Int) : t.pkgAddr p a = s.pkgAddr p a := by
  simp only [pkgAddr, quota, h]

section
variable {p k : Nat} {j : Job} (h : Claims.CanIssue s n p k j) {st : Fin 16} {prick : BitVec 12} {adr : AReg} {img : TenImage} {pr : Prick}
  (himg : (s.pdk p).img = some img) (hpr : img.pricks[prick.toNat]? = some pr) (hrange : prick.toNat ≤ 1023)
  (hfault : (s.tickCore n).strmgoFault n st prick.toNat ((s.tickCore n).core n) (((s.tickCore n).core n).rdA adr) = none)

/-- The state in which STRMGO's own first test has been made: the old stream has ended. -/
def streamEnded (s : State) (n : Nat) (st : Fin 16) (prick : BitVec 12) (adr : AReg) : State :=
  ((s.tickCore n).modCore n (·.queued [] [[.strmgo st prick adr]])).endStream n st

theorem streamEnded_sameBut (s : State) (n : Nat) (st : Fin 16) (prick : BitVec 12) (adr : AReg) :
    SameBut st ((s.tickCore n).modCore n (·.queued [] [[.strmgo st prick adr]])) (s.streamEnded n st prick adr) := endStream_sameBut ..

/-- What a core has besides its streams and what waits at it. -/
theorem streamEnded_proj {α : Type} (g : Core → α) (hg : ∀ c, g { c with strms := [] } = g c) :
    g ((s.streamEnded n st prick adr).core n) = g (((s.tickCore n).core n).queued [] [[.strmgo st prick adr]]) := by
  rw [(s.streamEnded_sameBut n st prick adr).proj g hg, core_modCore_same]

include h himg hpr hrange hfault

theorem strmgo_starts (hsettled : (((s.tickCore n).core ((s.tickCore n).leadOf n st)).strm st).settled = true) :
    let c := (s.tickCore n).core n
    let m := pr.begun c (c.rdA adr) prick.toNat c.pc (fun a => if pr.dir = 3 then a.toNat else (s.pkgAddr p a).toNat)
    ∃ t, s.slotCmd n false (.strmgo st prick adr) = .next t ∧ m.Regrouped ((t.core n).strm st) ∧
      (pr.dir ≠ 2 → (t.core n).strm st = m) ∧ (∀ i, i ≠ st.val → (t.core n).strm i = c.strm i) ∧ (t.core n).flight = c.flight ∧
      t.mem = s.mem ∧ t.out = s.out := by
  intro c m
  have hsame := s.streamEnded_sameBut n st prick adr
  obtain ⟨hjob, hring⟩ := liveJob_job h.live
  have hhold : (s.streamEnded n st prick adr).slotHold n j (.strmgo st prick adr) = none := by
    rw [slotHold_strmgo, if_pos]
    refine endStream_settled ?_
    rw [queued_strm, (sameRoutes_queued ..).leadOf, hsettled]
  have hbegun : pr.begun ((s.streamEnded n st prick adr).core n) (((s.streamEnded n st prick adr).core n).rdA adr) prick.toNat
      ((s.streamEnded n st prick adr).core n).pc
      (fun a => if pr.dir = 3 then a.toNat else ((s.streamEnded n st prick adr).pkgAddr p a).toNat) = m := by
    have haddr : (s.streamEnded n st prick adr).plat = s.plat := hsame.plat.trans (s.tickCore_plat n)
    simp only [pkgAddr_of_plat haddr]
    exact streamEnded_proj (fun x => pr.begun x (x.rdA adr) prick.toNat x.pc
      (fun a => if pr.dir = 3 then a.toNat else (s.pkgAddr p a).toNat)) (fun _ => rfl)
  obtain ⟨hgroup, halone, hothers, hflight, hmem, hout⟩ := issueBundle_strmgo_begins (s := s.streamEnded n st prick adr) (k := k) (j := j)
    ((hsame.job (n / 16)).trans ((s.tickCore_bay_job ..).trans hjob))
    (by rw [pdk, hsame.pdks]; simpa [pdk] using himg) (by rw [ring, hsame.rings]; simpa [ring] using hring) hpr
    ((streamEnded_proj (·.ending) fun _ => rfl).trans (by simp [h.going.1]))
  rw [hbegun] at hgroup halone
  refine ⟨_, ?_, hgroup, halone, fun i hi => ?_, ?_, ?_, ?_⟩
  · refine (slotCmd_strmgo h himg hpr hrange).trans ?_
    rw [hfault]
    exact congrArg (Option.elim · _ _) hhold
  · rw [hothers i hi, hsame.strm n i hi, queued_strm]
  · exact hflight.trans (streamEnded_proj (·.flight) fun _ => rfl)
  · exact hmem.trans (hsame.mem.trans (s.tickCore_mem n))
  · exact hout.trans (hsame.out.trans (s.tickCore_out n))

/-- Over a store or forward with issued requests still to complete, STRMGO holds as operand wait, its bundle's requests not issued dropped. -/
theorem strmgo_drains (hlive : (((s.tickCore n).core n).strm st).live = true) (hl : (((s.tickCore n).core n).strm st).loads = false)
    (hs : (((s.tickCore n).core n).strm st).settled = false) :
    ∃ t, s.slotCmd n false (.strmgo st prick adr) = .next t ∧ (t.core n).cause = some 0 ∧ (t.core n).queue = [[.strmgo st prick adr]] ∧
      (t.core n).pc = ((s.tickCore n).core n).pc ∧
      (t.core n).strm st = { ((s.tickCore n).core n).strm st with todo := [], quit := true } ∧ t.mem = s.mem := by
  have hd : ((s.streamEnded n st prick adr).core n).strm st = { ((s.tickCore n).core n).strm st with todo := [], quit := true } := by
    rw [← queued_strm (s.tickCore n) n [] [[.strmgo st prick adr]]] at hlive hl hs ⊢
    exact endStream_store hlive hl hs
  have hhold : (s.streamEnded n st prick adr).slotHold n j (.strmgo st prick adr) = some 0 := by
    have hdir : (((s.streamEnded n st prick adr).core n).strm st).dir ≠ 2 := by
      rw [hd]
      exact Strm.dir_ne_two hl
    rw [slotHold_strmgo, leadOf_alone hdir, hd]
    exact if_neg (ne_true_of_eq_false hs)
  refine ⟨(s.streamEnded n st prick adr).bubble n p 0, ?_, ?_⟩
  · refine (slotCmd_strmgo h himg hpr hrange).trans ?_
    rw [hfault]
    exact congrArg (Option.elim · _ _) hhold
  · rw [bubble_core, bubble_mem]
    exact ⟨rfl, streamEnded_proj (·.queue) fun _ => rfl, streamEnded_proj (·.pc) fun _ => rfl, hd,
      (s.streamEnded_sameBut n st prick adr).mem.trans (s.tickCore_mem n)⟩

end

end State
end Sys2Proof.Machine

namespace Sys2Proof.Proofs

open Sys2Proof Sys2Proof.Machine Sys2Proof.Claims

/-- Settles O16: STRMGO by its check and by what it leaves of the old stream (`State.slotCmd_strmgo`), STRMSWAP and STRMWAIT by whether the
half is there (`State.strmswap_issues`, `State.strmwait_issues`, `StrmOp.held`). -/
theorem streamInstructions : Obligations.StreamInstructions := by
  unfold Obligations.StreamInstructions
  intro s n p k j h st prick adr r t0 c m base now bytes put
  have hswap (y : Strm) (hy : m.swapped now = y) (hfree : (m.loads && m.waits) = false) :
      exec (.strmswap n false st) s = .next (issued s n p k (put y)) := by
    rw [← hy]
    exact State.strmswap_issues h hfree
  refine ⟨fun img pr himg hpr hrange => ⟨fun hfault hsettled => ?starts, fun e hfault => ?faults, fun hfault hlive hl hs => ?drains⟩,
    fun hrange => ?undefined, fun he => ?ended, fun he hl hw => ?released, fun he hl => ?handed, fun hl hw => ?swapHeld,
    fun hw => ?passes, fun hw => ?waitHeld⟩
  case starts =>
    obtain ⟨t, hstep, hgroup, halone, hothers, hflight, hmem, hout⟩ := State.strmgo_starts h himg hpr hrange hfault hsettled
    refine ⟨t, hstep, ?_⟩
    beta_reduce
    generalize (t.core n).strm st = y at hgroup halone ⊢
    have htodo (hd : pr.dir ≠ 2) : y.started = true ∧ y.lead = true ∧ y.todo = if pr.dir = 0 then y.piecesFrom 0 else [] := by
      rw [halone hd]
      exact ⟨decide_eq_true hd, decide_eq_true hd, rfl⟩
    obtain ⟨_, _, _, _, hy⟩ := hgroup
    subst hy
    exact ⟨rfl, rfl, rfl, rfl, rfl, rfl, rfl, rfl, rfl, rfl, rfl, rfl, rfl, rfl, rfl, rfl, htodo, fun q hq _ => hothers q hq, hflight, hmem, hout⟩
  case faults =>
    refine (State.slotCmd_strmgo h himg hpr hrange).trans ?_
    rw [hfault]
    rfl
  case drains =>
    obtain ⟨t, hstep, hcause, hqueue, hpc, hstrm, hmem⟩ := State.strmgo_drains h himg hpr hrange hfault hlive hl hs
    refine ⟨t, hstep, hcause, hqueue, hpc, ?_⟩
    rw [hstrm]
    exact ⟨rfl, rfl, rfl, rfl, hmem⟩
  case undefined =>
    have hw : slotWf (.strmgo st prick adr) = false := decide_eq_false (not_le.mpr hrange)
    exact if_pos (by rw [hw]; rfl)
  case ended => exact hswap _ (Strm.swapped_ended he) (by rw [Strm.waits_ended he, Bool.and_false])
  case released => exact hswap _ (Strm.swapped_load he hl) (by rw [hw, Bool.and_false])
  case handed => exact hswap _ (Strm.swapped_store he hl) (by rw [hl, Bool.false_and])
  case swapHeld =>
    refine (StrmOp.strmswap st).held h (if_pos ?_)
    exact Bool.and_eq_true_iff.mpr ⟨hl, hw⟩
  case passes =>
    refine (State.strmwait_issues h hw).trans ?_
    rw [Strm.waitVal_eq]
    rfl
  case waitHeld => exact (StrmOp.strmwait st r).held h (if_pos hw)

end Sys2Proof.Proofs
end
